-- ==== Sys2Proof/Word.lean ====
section
/-! DEFINITION. The words the SY9240 model computes with: bytes, 32-bit words, and the reading of a bit field.
R17: layouts are in 32-bit words; R16: multi-byte values are little-endian. -/

namespace Sys2Proof

/-- A byte of device memory. -/
abbrev Byte := BitVec 8

/-- A 32-bit word: a control-space register (R25), a layout word (R17). -/
abbrev Word := BitVec 32

/-- A 64-bit instruction word (R174). -/
abbrev IWord := BitVec 64

end Sys2Proof
end

