-- ==== Sys2Proof/Config.lean ====
section
/-! DEFINITION. The values the spec leaves open. Each is an uninterpreted constant: nothing in Lean can prove a value
of it. A value fresh at each use is a constant applied to State's counter freeCtr, the model's own field. -/

namespace Sys2Proof.Config

/-- A number the spec leaves open, fresh at each value of the counter (assumption 2). -/
opaque freeNat : Nat → Nat

/-- What a word of the buffer with three or more wrong bits does (R824): the counter, the data word and the error mask;
0 reported uncorrectable, 1 corrected to a wrong value, 2 no error found (any other value counts as 0). -/
opaque secdedBeyond : Nat → Nat → Nat → Nat

/-- The wrong value of a word that R824 delivers. -/
opaque secdedWrong : Nat → Nat → Nat → Nat

/-- A byte of a line whose contents a destructive array test left undefined (R468): the stack's test count and the address. -/
opaque arrayResidue : Nat → Nat → Byte

/-- How a line whose contents a destructive array test left undefined reads (R464): 0 good, 1 uncorrectable, 2 poisoned. -/
opaque arrayResidueClass : Nat → Nat → Nat

/-- The error of a special function below its bound (R202), in units of the bound's 2^-24 relative step: function, operand bits. -/
opaque specialError : Nat → Nat → Int

/-- The master-dependent id of the boot ROM version reported by SEC.ATTEST (R694). -/
opaque romId : Word

/-- The gradient G_s of a sensor in 1/256 degree per watt (R778, fused per module): die, sensor. -/
opaque gradient : Nat → Nat → Nat

/-- The part of the alias certificate that is signed, in DER (R690, R691): its names, serial number, validity and extension are open. Alias public key,
measurement, SVN. -/
opaque aliasTbs : List Byte → List Byte → Nat → List Byte

/-- A free key that orders what the spec leaves unordered (R226): the counter and the thread. -/
opaque choice : Nat → Nat → Nat

/-- A byte that is fused at manufacture (R673): 0 the digest of key slot 0, 1 that of slot 1, 2 the serial number, 3 DEVICE_SECRET; and its place. -/
opaque fuseByte : Nat → Nat → Byte

end Sys2Proof.Config
end

