-- ==== Sys2Proof/Machine/Bits.lean ====
section
/-! DEFINITION. Bit fields (R15), byte order (R16), words (R17), and a few list helpers. -/

namespace Sys2Proof.Machine

/-- Field [hi:lo] of a natural number read as bits (R15). -/
def bitsN (w hi lo : Nat) : Nat := (w >>> lo) % 2 ^ (hi + 1 - lo)

/-- Bit i of w as a number, 0 or 1. -/
def bitN (w i : Nat) : Nat := (w >>> i) % 2

/-- Bit i of w is 1. -/
def tb (w i : Nat) : Bool := (w >>> i) % 2 == 1

/-- w with field [hi:lo] replaced by v modulo its width. -/
def setBitsN (w hi lo v : Nat) : Nat :=
  w - bitsN w hi lo * 2 ^ lo + (v % 2 ^ (hi + 1 - lo)) * 2 ^ lo

/-- w with bit i set to b. -/
def putBit (w i : Nat) (b : Bool) : Nat := setBitsN w i i (if b then 1 else 0)

/-- 1 for true, 0 for false. -/
def b2n (b : Bool) : Nat := if b then 1 else 0

/-- The value of w as a signed number of n bits. -/
def sgn (n w : Nat) : Int := if w % 2 ^ n < 2 ^ (n - 1) then Int.ofNat (w % 2 ^ n) else Int.ofNat (w % 2 ^ n) - Int.ofNat (2 ^ n)

/-- The n low bits of a signed number. -/
def unsgn (n : Nat) (i : Int) : Nat := (i % Int.ofNat (2 ^ n)).toNat

/-- Number of 1 bits among the n low bits of w. -/
def popN : Nat → Nat → Nat
  | 0, _ => 0
  | n + 1, w => w % 2 + popN n (w / 2)

/-- Floor of the base-2 logarithm, 0 for 0. -/
def log2N (n : Nat) : Nat := Nat.log2 n

/-- v saturated at top. -/
def sat (top v : Nat) : Nat := min top v

/-- Little-endian value of a byte list (R16). -/
def leNat : List Byte → Nat
  | [] => 0
  | b :: bs => b.toNat + 256 * leNat bs

/-- n bytes of v, little-endian (R16). -/
def leBytes : Nat → Nat → List Byte
  | 0, _ => []
  | n + 1, v => BitVec.ofNat 8 v :: leBytes n (v / 256)

/-- Words as little-endian bytes (R16, R17). -/
def wordBytes (ws : List Nat) : List Byte := ws.flatMap (leBytes 4)

/-- Bytes, four at a time, as little-endian words (R16, R17); a short tail is dropped. -/
def bytesWords : List Byte → List Nat
  | a :: b :: c :: d :: r => leNat [a, b, c, d] :: bytesWords r
  | _ => []

/-- Element i of a list of numbers, 0 beyond its end. -/
def nth (ns : List Nat) (i : Nat) : Nat := ns.getD i 0

/-- The 64-bit value of words i and i + 1, low word first (R17). -/
def nth64 (ws : List Nat) (i : Nat) : Nat := nth ws i + 2 ^ 32 * nth ws (i + 1)

/-- The low and the high word of a 64-bit value. -/
def lohi (v : Nat) : List Nat := [v % 2 ^ 32, v / 2 ^ 32 % 2 ^ 32]

/-- Element i of a list of Booleans, false beyond its end. -/
def nthB (bs : List Bool) (i : Nat) : Bool := bs.getD i false

/-- A list cut or padded with d to length n. -/
def fit {α : Type} (n : Nat) (d : α) (l : List α) : List α := (l ++ List.replicate n d).take n

/-- Replace element i of a list. -/
def setAt {α : Type} (l : List α) (i : Nat) (v : α) : List α := l.set i v

/-- Apply f to element i of a list. -/
def modAt {α : Type} (l : List α) (i : Nat) (f : α → α) : List α := l.modify i f

/-- The first index below n at which p holds. -/
def firstIdx (n : Nat) (p : Nat → Bool) : Option Nat := (List.range n).find? p

/-- The indices below n at which p holds, ascending. -/
def idxs (n : Nat) (p : Nat → Bool) : List Nat := (List.range n).filter p

/-- The sum over the indices below n. -/
def sumN (n : Nat) (f : Nat → Nat) : Nat := (List.range n).foldl (fun a i => a + f i) 0

/-- A number whose bit i is p i, for i below n. -/
def maskN (n : Nat) (p : Nat → Bool) : Nat := (List.range n).foldl (fun a i => a + (if p i then 2 ^ i else 0)) 0

/-- Thread a value through a list. -/
def each {α β : Type} (l : List α) (f : β → α → β) (b : β) : β := l.foldl f b

/-- x - y modulo 2^32, the distance of R613. -/
def dist32 (x y : Nat) : Nat := (x + 2 ^ 32 - y % 2 ^ 32) % 2 ^ 32

/-- Ceiling division. -/
def cdiv (a b : Nat) : Nat := (a + b - 1) / b

end Sys2Proof.Machine
end

