-- ==== Sys2Proof/Machine/Tab.lean ====
section
/-! DEFINITION. A sparse table: a list of (key, value) pairs in one canonical form, keys strictly rising and no
value equal to what an unlisted key reads as. Device memory, the register file of control space and every sparse
store of the machine have this form. -/

namespace Sys2Proof.Machine

/-- A sparse table over keys Nat. -/
abbrev Tab (α : Type) := List (Nat × α)

/-- Read key k; an unlisted key reads as d. -/
def tget {α : Type} (d : α) (k : Nat) : Tab α → α
  | [] => d
  | (j, v) :: r => if j = k then v else tget d k r

/-- Write v at key k, keeping the canonical form: the value an unlisted key reads as is not listed. -/
def tput {α : Type} [DecidableEq α] (d : α) (k : Nat) (v : α) : Tab α → Tab α
  | [] => if v = d then [] else [(k, v)]
  | (j, u) :: r =>
    if k < j then (if v = d then (j, u) :: tput d k v r else (k, v) :: (j, u) :: r)
    else if k = j then (if v = d then tput d k v r else (k, v) :: r)
    else (j, u) :: tput d k v r

/-- Apply f to the value at key k. -/
def tmod {α : Type} [DecidableEq α] (d : α) (k : Nat) (f : α → α) (t : Tab α) : Tab α := tput d k (f (tget d k t)) t

/-- Keys strictly rise from above lo, and no value equals the unlisted value. -/
def twfFrom {α : Type} [DecidableEq α] (d : α) : Nat → Tab α → Bool
  | _, [] => true
  | lo, (j, v) :: r => decide (lo ≤ j) && decide (v ≠ d) && twfFrom d (j + 1) r

/-- The canonical form of a sparse table. -/
def twf {α : Type} [DecidableEq α] (d : α) (t : Tab α) : Bool := twfFrom d 0 t

end Sys2Proof.Machine
end

