-- ==== Sys2Proof/Machine/Codes.lean ====
section
/-! DEFINITION. The check codes of the spec: the waybill CRC-32C (R740), the word code of the buffer (R314, R824), the
symbol code of an HBM line (R437 to R440), the header check of a flit (R517), SHAKE256 and Ed448 (R672 to R674, R690, R694). -/

namespace Sys2Proof.Machine

/-! ### CRC-32C -/

/-- One bit of the reflected CRC-32C register: polynomial 0x1EDC_6F41, reflected 0x82F6_3B78 (R740). -/
def crcBit (c : Nat) : Nat := if c % 2 = 1 then (c / 2) ^^^ 0x82F63B78 else c / 2

/-- One byte into the CRC-32C register. -/
def crcByte (c : Nat) (b : Byte) : Nat :=
  crcBit (crcBit (crcBit (crcBit (crcBit (crcBit (crcBit (crcBit (c ^^^ b.toNat))))))))

/-- The CRC-32C of a byte list: initial value and final XOR 0xFFFF_FFFF, input and output reflected (R740). -/
def crc32c (bs : List Byte) : Nat := (bs.foldl crcByte 0xFFFFFFFF) ^^^ 0xFFFFFFFF

/-- The waybill of an item of words: their little-endian bytes (R740, R637). -/
def crcWords (ws : List Nat) : Nat := crc32c (wordBytes ws)

/-! ### The word code of the buffer -/

/-- What a checker finds in one word or line: good, corrected with n places, uncorrectable. -/
inductive Found where
  | good
  | corrected (n : Nat)
  | uncorrectable
  deriving DecidableEq, Repr

/-- The wrong bits of word i of a line: errors are (2 * word, data mask) and (2 * word + 1, check mask). -/
def wordErr (errs : List (Nat × Nat)) (i : Nat) : Nat × Nat :=
  (errs.foldl (fun a e => if e.1 = 2 * i then a ^^^ e.2 else a) 0,
   errs.foldl (fun a e => if e.1 = 2 * i + 1 then a ^^^ e.2 else a) 0)

/-- The word code on word i with data value v and error masks (R314, R824): what is found and the value delivered. n is the
machine's free-value counter, which fixes what an error of three or more bits does. -/
def secded (n i v : Nat) (e : Nat × Nat) : Found × Nat :=
  match popN 64 e.1 + popN 8 e.2 with
  | 0 => (.good, v)
  | 1 => (.corrected 1, v)
  | 2 => (.uncorrectable, v ^^^ e.1)
  | _ =>
    match Config.secdedBeyond n i (e.1 + 2 ^ 64 * e.2) with
    | 1 => (.corrected 1, Config.secdedWrong n i (e.1 + 2 ^ 64 * e.2) % 2 ^ 64)
    | 2 => (.good, v ^^^ e.1)
    | _ => (.uncorrectable, v ^^^ e.1)

/-! ### The symbol code of HBM -/

/-- Multiply by α in GF(2^16) with field polynomial x^16 + x^12 + x^3 + x + 1 (R437). -/
def gfDouble (a : Nat) : Nat := if a * 2 ≥ 65536 then (a * 2 - 65536) ^^^ 0x100B else a * 2

/-- The product in GF(2^16), over the n low bits of b. -/
def gfMulN : Nat → Nat → Nat → Nat
  | 0, _, _ => 0
  | n + 1, a, b => (if b % 2 = 1 then a else 0) ^^^ gfMulN n (gfDouble a) (b / 2)

/-- The product in GF(2^16). -/
def gfMul (a b : Nat) : Nat := gfMulN 16 a b

/-- a to the n-th power in GF(2^16), n below 2^16. -/
def gfPowN : Nat → Nat → Nat → Nat
  | 0, _, _ => 1
  | k + 1, a, n => gfMul (if n % 2 = 1 then a else 1) (gfPowN k (gfMul a a) (n / 2))

/-- a to the n-th power in GF(2^16). -/
def gfPow (a n : Nat) : Nat := gfPowN 16 a n

/-- The inverse in GF(2^16): a^(2^16 - 2). -/
def gfInv (a : Nat) : Nat := gfPow a 65534

/-- The syndrome of an error pattern of (symbol, mask) pairs: its value at α^0 to α^7, symbol i being the coefficient of
x^(73 - i) (R437). -/
def rsSyndrome (errs : List (Nat × Nat)) : List Nat :=
  (List.range 8).map (fun j => errs.foldl (fun a e => a ^^^ gfMul (e.2 % 65536) (gfPow 2 (j * (73 - e.1)))) 0)

/-- The pattern of a poisoned line: each of the 8 check symbols XORed with 0xFFFF (R440). -/
def rsPoison : List (Nat × Nat) := (List.range 8).map (fun i => (66 + i, 0xFFFF))

/-- Two syndromes added. -/
def synAdd (a b : List Nat) : List Nat := List.zipWith (· ^^^ ·) a b

/-- The error in one symbol with the syndrome s, if there is one. -/
def rsOne (s : List Nat) : Option (List (Nat × Nat)) :=
  ((List.range 74).find? (fun i => rsSyndrome [(i, nth s 0)] == s)).map (fun i => [(i, nth s 0)])

/-- The masks that errors in symbols i and j have when their syndrome begins with s0, s1. -/
def rsPair (s0 s1 i j : Nat) : Nat × Nat :=
  let xi := gfPow 2 (73 - i)
  let xj := gfPow 2 (73 - j)
  let yj := gfMul (s1 ^^^ gfMul s0 xi) (gfInv (xi ^^^ xj))
  (s0 ^^^ yj, yj)

/-- The error in two symbols with the syndrome s, if there is one. -/
def rsTwo (s : List Nat) : Option (List (Nat × Nat)) :=
  ((List.range 74).flatMap (fun j => (List.range j).map (fun i => (i, j)))).findSome? (fun p =>
    let y := rsPair (nth s 0) (nth s 1) p.1 p.2
    let e := [(p.1, y.1), (p.2, y.2)]
    if y.1 ≠ 0 ∧ y.2 ≠ 0 ∧ rsSyndrome e = s then some e else none)

/-- The error in at most two symbols with a non-zero syndrome s, if there is one. -/
def rsFew (s : List Nat) : Option (List (Nat × Nat)) := (rsOne s).orElse (fun _ => rsTwo s)

/-- What a stack controller finds in a line (R439): the class, whether it is poisoned, and the error it corrects. -/
structure RsFound where
  found : Found
  poisoned : Bool
  fix : List (Nat × Nat)
  deriving DecidableEq, Repr

/-- The classification of R439, in its order, from the error pattern of the codeword (poison included). -/
def rsClassify (errs : List (Nat × Nat)) : RsFound :=
  let s := rsSyndrome errs
  let z := List.replicate 8 0
  let p := rsSyndrome rsPoison
  if s = z then ⟨.good, false, []⟩
  else if s = p then ⟨.good, true, []⟩
  else
    match rsFew s with
    | some e => ⟨.corrected e.length, false, e⟩
    | none => if (rsFew (synAdd s p)).isSome then ⟨.good, true, []⟩ else ⟨.uncorrectable, false, []⟩

/-- The classification as used: a line with at most two wrong symbols, poisoned or not, needs no search (R439, R440). -/
def hbmFound (poison : Bool) (errs : List (Nat × Nat)) : RsFound :=
  let live := errs.filter (fun e => decide (e.2 % 65536 ≠ 0))
  if live.isEmpty then ⟨.good, poison, []⟩
  else if !poison && decide (live.length ≤ 2) then ⟨.corrected live.length, false, live⟩
  else rsClassify (live ++ (if poison then rsPoison else []))

/-- XOR a symbol's mask into a line's data and waybill (R437): check symbols change neither. -/
def xorSymbol (p : List Byte × Nat) (e : Nat × Nat) : List Byte × Nat :=
  if e.1 < 64 then
    (modAt (modAt p.1 (2 * e.1) (· ^^^ BitVec.ofNat 8 e.2)) (2 * e.1 + 1) (· ^^^ BitVec.ofNat 8 (e.2 / 256)), p.2)
  else if e.1 = 64 then (p.1, p.2 ^^^ (e.2 % 65536))
  else if e.1 = 65 then (p.1, p.2 ^^^ ((e.2 % 65536) * 65536))
  else p

/-! ### SHAKE256 (FIPS 202), named by R672, R673 and R690 -/

/-- A 64-bit word rotated left. -/
def rotl64 (x n : Nat) : Nat := ((x <<< n) % 2 ^ 64) ||| (x >>> (64 - n))

/-- The Keccak rotation offsets, lane x + 5 y. -/
def keccakRot : List Nat :=
  [0, 1, 62, 28, 27, 36, 44, 6, 55, 20, 3, 10, 43, 25, 39, 41, 45, 15, 21, 8, 18, 2, 61, 56, 14]

/-- The Keccak round constants. -/
def keccakRC : List Nat :=
  [0x0000000000000001, 0x0000000000008082, 0x800000000000808A, 0x8000000080008000, 0x000000000000808B, 0x0000000080000001,
   0x8000000080008081, 0x8000000000008009, 0x000000000000008A, 0x0000000000000088, 0x0000000080008009, 0x000000008000000A,
   0x000000008000808B, 0x800000000000008B, 0x8000000000008089, 0x8000000000008003, 0x8000000000008002, 0x8000000000000080,
   0x000000000000800A, 0x800000008000000A, 0x8000000080008081, 0x8000000000008080, 0x0000000080000001, 0x8000000080008008]

/-- One round of Keccak-f[1600] on 25 lanes. -/
def keccakRound (a : List Nat) (rc : Nat) : List Nat :=
  let c := (List.range 5).map (fun x => nth a x ^^^ nth a (x + 5) ^^^ nth a (x + 10) ^^^ nth a (x + 15) ^^^ nth a (x + 20))
  let d := (List.range 5).map (fun x => nth c ((x + 4) % 5) ^^^ rotl64 (nth c ((x + 1) % 5)) 1)
  let t := (List.range 25).map (fun i => nth a i ^^^ nth d (i % 5))
  let r := (List.range 25).map (fun i => if nth keccakRot i = 0 then nth t i else rotl64 (nth t i) (nth keccakRot i))
  -- ρ and π: B[y, 2x + 3y] := r[x, y]; lane x + 5y of B comes from lane ((x + 3y) mod 5) + 5x
  let b := (List.range 25).map (fun i => nth r ((i % 5 + 3 * (i / 5)) % 5 + 5 * (i % 5)))
  let e := (List.range 25).map (fun i =>
    nth b i ^^^ ((2 ^ 64 - 1 - nth b ((i % 5 + 1) % 5 + 5 * (i / 5))) &&& nth b ((i % 5 + 2) % 5 + 5 * (i / 5))))
  modAt e 0 (· ^^^ rc)

/-- Keccak-f[1600]. -/
def keccakF (a : List Nat) : List Nat := keccakRC.foldl keccakRound a

/-- Absorb one 136-byte block. -/
def keccakAbsorb (a : List Nat) (blk : List Byte) : List Nat :=
  keccakF ((List.range 25).map (fun i =>
    if i < 17 then nth a i ^^^ leNat ((blk.drop (8 * i)).take 8) else nth a i))

/-- Absorb n blocks. -/
def keccakAbsorbAll : Nat → List Nat → List Byte → List Nat
  | 0, a, _ => a
  | n + 1, a, bs => keccakAbsorbAll n (keccakAbsorb a (bs.take 136)) (bs.drop 136)

/-- Squeeze n blocks of output. -/
def keccakSqueeze : Nat → List Nat → List Byte
  | 0, _ => []
  | n + 1, a => ((List.range 17).flatMap (fun i => leBytes 8 (nth a i))) ++ keccakSqueeze n (keccakF a)

/-- The SHAKE256 padding: 0x1F, zeros, and the last bit of the block. -/
def shakePad (len : Nat) : List Byte :=
  let z := 135 - len % 136
  if z = 0 then [0x9F#8] else 0x1F#8 :: (List.replicate (z - 1) 0#8 ++ [0x80#8])

/-- The first n bytes of SHAKE256 output over a message. -/
def shake256 (msg : List Byte) (n : Nat) : List Byte :=
  let p := msg ++ shakePad msg.length
  (keccakSqueeze (n / 136 + 1) (keccakAbsorbAll (p.length / 136) (List.replicate 25 0) p)).take n

/-! ### Ed448 (RFC 8032), named by R674, R690 and R694 -/

/-- The field prime 2^448 - 2^224 - 1. -/
def edP : Nat := 2 ^ 448 - 2 ^ 224 - 1

/-- The group order. -/
def edL : Nat := 2 ^ 446 - 13818066809895115352007386748515426880336692474882178609894547503885

/-- The curve constant d = -39081. -/
def edD : Nat := edP - 39081

/-- b to the e modulo m, over n bits of e. -/
def powMod : Nat → Nat → Nat → Nat → Nat
  | 0, _, _, m => 1 % m
  | n + 1, b, e, m => (if e % 2 = 1 then b else 1) * powMod n (b * b % m) (e / 2) m % m

/-- The inverse modulo edP. -/
def edInv (a : Nat) : Nat := powMod 448 a (edP - 2) edP

/-- A point in projective coordinates (X, Y, Z). -/
abbrev EdPt := Nat × Nat × Nat

/-- The sum of two points (RFC 8032, 5.2.4). -/
def edAdd (p q : EdPt) : EdPt :=
  let a := p.2.2 * q.2.2 % edP
  let b := a * a % edP
  let c := p.1 * q.1 % edP
  let d := p.2.1 * q.2.1 % edP
  let e := edD * c % edP * d % edP
  let f := (b + edP - e) % edP
  let g := (b + e) % edP
  let h := (p.1 + p.2.1) * (q.1 + q.2.1) % edP
  (a * f % edP * ((h + 2 * edP - c - d) % edP) % edP, a * g % edP * ((d + edP - c) % edP) % edP, f * g % edP)

/-- n times a point, over k bits of n. -/
def edMul : Nat → Nat → EdPt → EdPt
  | 0, _, _ => (0, 1, 1)
  | k + 1, n, p => if n % 2 = 1 then edAdd p (edMul k (n / 2) (edAdd p p)) else edMul k (n / 2) (edAdd p p)

/-- The base point. -/
def edB : EdPt :=
  (224580040295924300187604334099896036246789641632564134246125461686950415467406032909029192869357953282578032075146446173674602635247710,
   298819210078481492676017930443930673437544040154080242095928241372331506189835876003536878655418784733982303233503462500531545062832660, 1)

/-- A point as 57 bytes: y, and the low bit of x on top. -/
def edEncode (p : EdPt) : List Byte :=
  let zi := edInv p.2.2
  let x := p.1 * zi % edP
  let y := p.2.1 * zi % edP
  leBytes 57 (y + (x % 2) * 2 ^ 455)

/-- The point that 57 bytes encode, if they encode one. -/
def edDecode (bs : List Byte) : Option EdPt :=
  let v := leNat bs
  let y := v % 2 ^ 455
  let x0 := v / 2 ^ 455
  if y ≥ edP then none
  else
    let u := (y * y + edP - 1) % edP
    let w := (edD * (y * y % edP) + edP - 1) % edP
    let x := powMod 448 w (edP - 2) edP * u % edP
    let r := powMod 448 x ((edP + 1) / 4) edP
    if r * r % edP ≠ x then none
    else if r = 0 ∧ x0 = 1 then none
    else some (if r % 2 = x0 then r else edP - r, y, 1)

/-- dom4(0, empty context). -/
def edDom : List Byte := [0x53#8, 0x69#8, 0x67#8, 0x45#8, 0x64#8, 0x34#8, 0x34#8, 0x38#8, 0#8, 0#8]

/-- The secret scalar and the prefix of a 57-byte private key. -/
def edSecret (sk : List Byte) : Nat × List Byte :=
  let h := shake256 sk 114
  let s := leNat (h.take 55) + (leNat ((h.drop 55).take 1) ||| 128) * 2 ^ 440
  (s - s % 4, h.drop 57)

/-- The public key of a 57-byte private key. -/
def edPublic (sk : List Byte) : List Byte := edEncode (edMul 448 (edSecret sk).1 edB)

/-- The signature of a message with an empty context: 114 bytes. -/
def edSign (sk msg : List Byte) : List Byte :=
  let a := edSecret sk
  let pk := edEncode (edMul 448 a.1 edB)
  let r := leNat (shake256 (edDom ++ a.2 ++ msg) 114) % edL
  let rb := edEncode (edMul 448 r edB)
  let k := leNat (shake256 (edDom ++ rb ++ pk ++ msg) 114) % edL
  rb ++ leBytes 57 ((r + k * a.1) % edL)

/-- The signature verifies under the public key, with an empty context (R674 check 4). -/
def edVerify (pk msg sig : List Byte) : Bool :=
  match edDecode pk, edDecode (sig.take 57) with
  | some a, some r =>
    let s := leNat (sig.drop 57)
    let k := leNat (shake256 (edDom ++ sig.take 57 ++ pk ++ msg) 114) % edL
    decide (s < edL) && decide (sig.length = 114) &&
      edEncode (edMul 448 (4 * s) edB) == edEncode (edMul 448 4 (edAdd r (edMul 448 k a)))
  | _, _ => false

end Sys2Proof.Machine
end

