-- ==== Sys2Proof/Machine/Regs.lean ====
section
/-! DEFINITION. The registers of control space: each register's place, fields, types, reset values and legal encodings,
as the register tables of the spec give them, and the 48-bit counters. An offset is counted from 0xFF00_0000_0000 (R19). -/

namespace Sys2Proof.Machine

/-- The type of a register field (R24). -/
inductive FType where
  | ro | rw | w1c | wo
  deriving DecidableEq, Repr

/-- A field of a register: the register's offset in control space and its bits [hi:lo]. -/
structure Fld where
  off : Nat
  hi : Nat
  lo : Nat
  deriving DecidableEq, Repr

/-- A field as its register table gives it. legal lists the ranges of encodings that are not reserved (R13, R28). -/
structure FDef where
  hi : Nat
  lo : Nat
  ty : FType
  reset : Nat
  legal : List (Nat × Nat)
  deriving DecidableEq, Repr

/-- A register, or a run of count registers stride bytes apart. -/
structure RDef where
  base : Nat
  stride : Nat
  count : Nat
  fields : List FDef
  deriving DecidableEq, Repr

/-- Field ROOT of TT_CTRL (R99). -/
def TT_CTRL_ROOT : Fld := ⟨0x10000, 1, 1⟩
/-- Field ARM of TT_CTRL (R99). -/
def TT_CTRL_ARM : Fld := ⟨0x10000, 0, 0⟩
/-- Field OFFSET_ERR of TT_LT_STAT (R99). -/
def TT_LT_STAT_OFFSET_ERR : Fld := ⟨0x10004, 31, 24⟩
/-- Field HOPS of TT_LT_STAT (R99). -/
def TT_LT_STAT_HOPS : Fld := ⟨0x10004, 23, 16⟩
/-- Field HOLDOVER_EXPIRED of TT_LT_STAT (R99). -/
def TT_LT_STAT_HOLDOVER_EXPIRED : Fld := ⟨0x10004, 10, 10⟩
/-- Field EPOCH_SLIP of TT_LT_STAT (R99). -/
def TT_LT_STAT_EPOCH_SLIP : Fld := ⟨0x10004, 9, 9⟩
/-- Field LOCK_LOST of TT_LT_STAT (R99). -/
def TT_LT_STAT_LOCK_LOST : Fld := ⟨0x10004, 8, 8⟩
/-- Field LTEPOCH_OK of TT_LT_STAT (R99). -/
def TT_LT_STAT_LTEPOCH_OK : Fld := ⟨0x10004, 5, 5⟩
/-- Field LTREF_OK of TT_LT_STAT (R99). -/
def TT_LT_STAT_LTREF_OK : Fld := ⟨0x10004, 4, 4⟩
/-- Field STATE of TT_LT_STAT (R99). -/
def TT_LT_STAT_STATE : Fld := ⟨0x10004, 2, 0⟩
/-- Field MIOTO of TT_ROWS_STAT (R99). -/
def TT_ROWS_STAT_MIOTO : Fld := ⟨0x10010, 23, 16⟩
/-- Field USED of TT_ROWS_STAT (R99). -/
def TT_ROWS_STAT_USED : Fld := ⟨0x10010, 12, 0⟩
/-- Field LIMIT of TT_HOLDOVER (R99). -/
def TT_HOLDOVER_LIMIT : Fld := ⟨0x10014, 4, 0⟩
/-- Field PF_DEPTH of CG_CTRL (R168). -/
def CG_CTRL_PF_DEPTH : Fld := ⟨0x20000, 11, 8⟩
/-- Field PF_EN of CG_CTRL (R168). -/
def CG_CTRL_PF_EN : Fld := ⟨0x20000, 7, 7⟩
/-- Field WDOG_LOG2 of CG_CTRL (R168). -/
def CG_CTRL_WDOG_LOG2 : Fld := ⟨0x20000, 4, 0⟩
/-- Field ALL of CG_L0_INV (R168). -/
def CG_L0_INV_ALL : Fld := ⟨0x20004, 0, 0⟩
/-- Field ZSKIP_EN of MU_CTRL (R274). -/
def MU_CTRL_ZSKIP_EN : Fld := ⟨0x20800, 0, 0⟩
/-- Field FLUSH of BUF_CTRL (R326). -/
def BUF_CTRL_FLUSH : Fld := ⟨0x30000, 23, 16⟩
/-- Field PROMOTE_LOG2 of BUF_CTRL (R326). -/
def BUF_CTRL_PROMOTE_LOG2 : Fld := ⟨0x30000, 11, 8⟩
/-- Field SIDING_EN of BUF_CTRL (R326). -/
def BUF_CTRL_SIDING_EN : Fld := ⟨0x30000, 1, 1⟩
/-- Field CE_WRITEBACK of BUF_CTRL (R326). -/
def BUF_CTRL_CE_WRITEBACK : Fld := ⟨0x30000, 0, 0⟩
/-- Field ARM of BUF_FLIP_CTRL (R326). -/
def BUF_FLIP_CTRL_ARM : Fld := ⟨0x30004, 31, 31⟩
/-- Field TARGET of BUF_FLIP_CTRL (R326). -/
def BUF_FLIP_CTRL_TARGET : Fld := ⟨0x30004, 30, 29⟩
/-- Field WORD of BUF_FLIP_CTRL (R326). -/
def BUF_FLIP_CTRL_WORD : Fld := ⟨0x30004, 11, 8⟩
/-- Field ANY of BUF_FLIP_CTRL (R326). -/
def BUF_FLIP_CTRL_ANY : Fld := ⟨0x30004, 7, 7⟩
/-- Field SLICE of BUF_FLIP_CTRL (R326). -/
def BUF_FLIP_CTRL_SLICE : Fld := ⟨0x30004, 6, 0⟩
/-- Field S_LINES of BUF_SIDING_STAT (R326). -/
def BUF_SIDING_STAT_S_LINES : Fld := ⟨0x30010, 31, 16⟩
/-- Field N_LINES of BUF_SIDING_STAT (R326). -/
def BUF_SIDING_STAT_N_LINES : Fld := ⟨0x30010, 15, 0⟩
/-- Field S_LINES of BUF_EVB_STAT (R326). -/
def BUF_EVB_STAT_S_LINES : Fld := ⟨0x30014, 25, 16⟩
/-- Field N_LINES of BUF_EVB_STAT (R326). -/
def BUF_EVB_STAT_N_LINES : Fld := ⟨0x30014, 9, 0⟩
/-- Field FLUSH_BUSY of BUF_STAT (R326). -/
def BUF_STAT_FLUSH_BUSY : Fld := ⟨0x30018, 7, 0⟩
/-- Field EN of BUF_RGNk_CFG (R326). -/
def BUF_RGNk_CFG_EN (i : Nat) : Fld := ⟨0x30040 + 0x8 * i, 31, 31⟩
/-- Field SIZE of BUF_RGNk_CFG (R326). -/
def BUF_RGNk_CFG_SIZE (i : Nat) : Fld := ⟨0x30040 + 0x8 * i, 26, 24⟩
/-- Field FIRST_GRANULE of BUF_RGNk_CFG (R326). -/
def BUF_RGNk_CFG_FIRST_GRANULE (i : Nat) : Fld := ⟨0x30040 + 0x8 * i, 21, 16⟩
/-- Field BACK_GIB of BUF_RGNk_CFG (R326). -/
def BUF_RGNk_CFG_BACK_GIB (i : Nat) : Fld := ⟨0x30040 + 0x8 * i, 15, 8⟩
/-- Field BASE of BUF_RGNk_BACK (R326). -/
def BUF_RGNk_BACK_BASE (i : Nat) : Fld := ⟨0x30044 + 0x8 * i, 10, 0⟩
/-- Field WAIT_LOG2 of CON_CTRL (R389). -/
def CON_CTRL_WAIT_LOG2 : Fld := ⟨0x40000, 12, 8⟩
/-- Field WINDOW_STATIC of CON_CTRL (R389). -/
def CON_CTRL_WINDOW_STATIC : Fld := ⟨0x40000, 4, 4⟩
/-- Field AUDIT_EN of CON_CTRL (R389). -/
def CON_CTRL_AUDIT_EN : Fld := ⟨0x40000, 3, 3⟩
/-- Field ACCEPT_S of CON_CTRL (R389). -/
def CON_CTRL_ACCEPT_S : Fld := ⟨0x40000, 1, 1⟩
/-- Field ACCEPT_N of CON_CTRL (R389). -/
def CON_CTRL_ACCEPT_N : Fld := ⟨0x40000, 0, 0⟩
/-- Field ACTIVE_S of CON_STAT (R389). -/
def CON_STAT_ACTIVE_S : Fld := ⟨0x40004, 30, 24⟩
/-- Field ACTIVE_N of CON_STAT (R389). -/
def CON_STAT_ACTIVE_N : Fld := ⟨0x40004, 22, 16⟩
/-- Field RECLAIM_BUSY of CON_STAT (R389). -/
def CON_STAT_RECLAIM_BUSY : Fld := ⟨0x40004, 2, 2⟩
/-- Field AUDIT_FAIL_S of CON_STAT (R389). -/
def CON_STAT_AUDIT_FAIL_S : Fld := ⟨0x40004, 1, 1⟩
/-- Field AUDIT_FAIL_N of CON_STAT (R389). -/
def CON_STAT_AUDIT_FAIL_N : Fld := ⟨0x40004, 0, 0⟩
/-- Field STAGE_S of CON_RESET (R389). -/
def CON_RESET_STAGE_S : Fld := ⟨0x40008, 7, 4⟩
/-- Field STAGE_N of CON_RESET (R389). -/
def CON_RESET_STAGE_N : Fld := ⟨0x40008, 3, 0⟩
/-- Field MODE of CON_REGk_CFG (R389). -/
def CON_REGk_CFG_MODE (i : Nat) : Fld := ⟨0x40100 + 0x4 * i, 31, 30⟩
/-- Field MASTER of CON_REGk_CFG (R389). -/
def CON_REGk_CFG_MASTER (i : Nat) : Fld := ⟨0x40100 + 0x4 * i, 23, 16⟩
/-- Field RATE of CON_REGk_CFG (R389). -/
def CON_REGk_CFG_RATE (i : Nat) : Fld := ⟨0x40100 + 0x4 * i, 15, 0⟩
/-- Field GATE_LOG2 of PTS_CTRL (R426). -/
def PTS_CTRL_GATE_LOG2 : Fld := ⟨0x50000, 20, 16⟩
/-- Field WAIT_LOG2 of PTS_CTRL (R426). -/
def PTS_CTRL_WAIT_LOG2 : Fld := ⟨0x50000, 12, 8⟩
/-- Field AUDIT_EN of PTS_CTRL (R426). -/
def PTS_CTRL_AUDIT_EN : Fld := ⟨0x50000, 2, 2⟩
/-- Field ACCEPT_S of PTS_CTRL (R426). -/
def PTS_CTRL_ACCEPT_S : Fld := ⟨0x50000, 1, 1⟩
/-- Field ACCEPT_N of PTS_CTRL (R426). -/
def PTS_CTRL_ACCEPT_N : Fld := ⟨0x50000, 0, 0⟩
/-- Field GATES of PTS_STAT (R426). -/
def PTS_STAT_GATES : Fld := ⟨0x50004, 24, 16⟩
/-- Field AUDIT_FAIL_S of PTS_STAT (R426). -/
def PTS_STAT_AUDIT_FAIL_S : Fld := ⟨0x50004, 3, 3⟩
/-- Field AUDIT_FAIL_N of PTS_STAT (R426). -/
def PTS_STAT_AUDIT_FAIL_N : Fld := ⟨0x50004, 2, 2⟩
/-- Field BUSY_S of PTS_STAT (R426). -/
def PTS_STAT_BUSY_S : Fld := ⟨0x50004, 1, 1⟩
/-- Field BUSY_N of PTS_STAT (R426). -/
def PTS_STAT_BUSY_N : Fld := ⟨0x50004, 0, 0⟩
/-- Field INDEX of PTS_TBL_IDX (R426). -/
def PTS_TBL_IDX_INDEX : Fld := ⟨0x50008, 11, 0⟩
/-- Field ENTRY of PTS_TBL_DATA (R426). -/
def PTS_TBL_DATA_ENTRY : Fld := ⟨0x5000c, 31, 0⟩
/-- Field ENGINE_S of PTS_RESET (R426). -/
def PTS_RESET_ENGINE_S : Fld := ⟨0x50010, 1, 1⟩
/-- Field ENGINE_N of PTS_RESET (R426). -/
def PTS_RESET_ENGINE_N : Fld := ⟨0x50010, 0, 0⟩
/-- Field PROMOTE_LOG2 of HBM_CTRL (R471). -/
def HBM_CTRL_PROMOTE_LOG2 : Fld := ⟨0x60000, 11, 8⟩
/-- Field CE_WRITEBACK of HBM_CTRL (R471). -/
def HBM_CTRL_CE_WRITEBACK : Fld := ⟨0x60000, 0, 0⟩
/-- Field THROTTLED of HBM_STAT (R471). -/
def HBM_STAT_THROTTLED : Fld := ⟨0x60004, 23, 0⟩
/-- Field ARM of HBM_FLIP_CTRL (R471). -/
def HBM_FLIP_CTRL_ARM : Fld := ⟨0x60008, 31, 31⟩
/-- Field TARGET of HBM_FLIP_CTRL (R471). -/
def HBM_FLIP_CTRL_TARGET : Fld := ⟨0x60008, 30, 30⟩
/-- Field SPAN of HBM_FLIP_CTRL (R471). -/
def HBM_FLIP_CTRL_SPAN : Fld := ⟨0x60008, 24, 23⟩
/-- Field SYMBOL of HBM_FLIP_CTRL (R471). -/
def HBM_FLIP_CTRL_SYMBOL : Fld := ⟨0x60008, 22, 16⟩
/-- Field STACK of HBM_FLIP_CTRL (R471). -/
def HBM_FLIP_CTRL_STACK : Fld := ⟨0x60008, 12, 8⟩
/-- Field ANY of HBM_FLIP_CTRL (R471). -/
def HBM_FLIP_CTRL_ANY : Fld := ⟨0x60008, 7, 7⟩
/-- Field MASK of HBM_FLIP_MASK (R471). -/
def HBM_FLIP_MASK_MASK : Fld := ⟨0x6000c, 31, 0⟩
/-- Field FORCE_LEVEL of HBMs_CTRL (R471). -/
def HBMs_CTRL_FORCE_LEVEL (s : Nat) : Fld := ⟨0x60100 + 0x100 * s, 5, 4⟩
/-- Field OOS of HBMs_CTRL (R471). -/
def HBMs_CTRL_OOS (s : Nat) : Fld := ⟨0x60100 + 0x100 * s, 0, 0⟩
/-- Field LEVEL_CHANGE of HBMs_STAT (R471). -/
def HBMs_STAT_LEVEL_CHANGE (s : Nat) : Fld := ⟨0x60104 + 0x100 * s, 31, 31⟩
/-- Field TEST_BUSY of HBMs_STAT (R471). -/
def HBMs_STAT_TEST_BUSY (s : Nat) : Fld := ⟨0x60104 + 0x100 * s, 14, 14⟩
/-- Field OOS_DONE of HBMs_STAT (R471). -/
def HBMs_STAT_OOS_DONE (s : Nat) : Fld := ⟨0x60104 + 0x100 * s, 13, 13⟩
/-- Field TRAINING of HBMs_STAT (R471). -/
def HBMs_STAT_TRAINING (s : Nat) : Fld := ⟨0x60104 + 0x100 * s, 12, 12⟩
/-- Field HOT of HBMs_STAT (R471). -/
def HBMs_STAT_HOT (s : Nat) : Fld := ⟨0x60104 + 0x100 * s, 11, 11⟩
/-- Field LEVEL of HBMs_STAT (R471). -/
def HBMs_STAT_LEVEL (s : Nat) : Fld := ⟨0x60104 + 0x100 * s, 9, 8⟩
/-- Field TEMP of HBMs_STAT (R471). -/
def HBMs_STAT_TEMP (s : Nat) : Fld := ⟨0x60104 + 0x100 * s, 7, 0⟩
/-- Field VALID of HBMs_ERR_INFO (R471). -/
def HBMs_ERR_INFO_VALID (s : Nat) : Fld := ⟨0x60108 + 0x100 * s, 31, 31⟩
/-- Field KIND of HBMs_ERR_INFO (R471). -/
def HBMs_ERR_INFO_KIND (s : Nat) : Fld := ⟨0x60108 + 0x100 * s, 30, 29⟩
/-- Field SYMBOLS of HBMs_ERR_INFO (R471). -/
def HBMs_ERR_INFO_SYMBOLS (s : Nat) : Fld := ⟨0x60108 + 0x100 * s, 26, 24⟩
/-- Field UE_MAX of LNK_CTRL (R509). -/
def LNK_CTRL_UE_MAX : Fld := ⟨0x70000, 15, 8⟩
/-- Field FAR_LOOP_OK of LNK_CTRL (R509). -/
def LNK_CTRL_FAR_LOOP_OK : Fld := ⟨0x70000, 0, 0⟩
/-- Field OOS of LNKp_CFG (R509). -/
def LNKp_CFG_OOS (p : Nat) : Fld := ⟨0x70100 + 0x100 * p, 31, 31⟩
/-- Field LANE_EN of LNKp_CFG (R509). -/
def LNKp_CFG_LANE_EN (p : Nat) : Fld := ⟨0x70100 + 0x100 * p, 19, 16⟩
/-- Field LOOP of LNKp_CFG (R509). -/
def LNKp_CFG_LOOP (p : Nat) : Fld := ⟨0x70100 + 0x100 * p, 10, 8⟩
/-- Field PATTERN of LNKp_CFG (R509). -/
def LNKp_CFG_PATTERN (p : Nat) : Fld := ⟨0x70100 + 0x100 * p, 7, 6⟩
/-- Field MAX_RATE of LNKp_CFG (R509). -/
def LNKp_CFG_MAX_RATE (p : Nat) : Fld := ⟨0x70100 + 0x100 * p, 1, 0⟩
/-- Field LANE_FAIL of LNKp_STAT (R509). -/
def LNKp_STAT_LANE_FAIL (p : Nat) : Fld := ⟨0x70104 + 0x100 * p, 31, 28⟩
/-- Field WIDTH_CHANGE of LNKp_STAT (R509). -/
def LNKp_STAT_WIDTH_CHANGE (p : Nat) : Fld := ⟨0x70104 + 0x100 * p, 27, 27⟩
/-- Field RATE_FALLBACK of LNKp_STAT (R509). -/
def LNKp_STAT_RATE_FALLBACK (p : Nat) : Fld := ⟨0x70104 + 0x100 * p, 26, 26⟩
/-- Field OOS_DONE of LNKp_STAT (R509). -/
def LNKp_STAT_OOS_DONE (p : Nat) : Fld := ⟨0x70104 + 0x100 * p, 25, 25⟩
/-- Field POSSESSION of LNKp_STAT (R509). -/
def LNKp_STAT_POSSESSION (p : Nat) : Fld := ⟨0x70104 + 0x100 * p, 24, 24⟩
/-- Field LANES of LNKp_STAT (R509). -/
def LNKp_STAT_LANES (p : Nat) : Fld := ⟨0x70104 + 0x100 * p, 19, 16⟩
/-- Field WIDTH of LNKp_STAT (R509). -/
def LNKp_STAT_WIDTH (p : Nat) : Fld := ⟨0x70104 + 0x100 * p, 5, 4⟩
/-- Field RATE of LNKp_STAT (R509). -/
def LNKp_STAT_RATE (p : Nat) : Fld := ⟨0x70104 + 0x100 * p, 1, 0⟩
/-- Field STATE0 of LNKp_LSTATE (R509). -/
def LNKp_LSTATE_STATE0 (p : Nat) : Fld := ⟨0x70108 + 0x100 * p, 3, 0⟩
/-- Field STATE1 of LNKp_LSTATE (R509). -/
def LNKp_LSTATE_STATE1 (p : Nat) : Fld := ⟨0x70108 + 0x100 * p, 7, 4⟩
/-- Field STATE2 of LNKp_LSTATE (R509). -/
def LNKp_LSTATE_STATE2 (p : Nat) : Fld := ⟨0x70108 + 0x100 * p, 11, 8⟩
/-- Field STATE3 of LNKp_LSTATE (R509). -/
def LNKp_LSTATE_STATE3 (p : Nat) : Fld := ⟨0x70108 + 0x100 * p, 15, 12⟩
/-- Field START of LNKp_EYE_CTRL (R509). -/
def LNKp_EYE_CTRL_START (p : Nat) : Fld := ⟨0x7010c + 0x100 * p, 31, 31⟩
/-- Field DWELL_LOG2 of LNKp_EYE_CTRL (R509). -/
def LNKp_EYE_CTRL_DWELL_LOG2 (p : Nat) : Fld := ⟨0x7010c + 0x100 * p, 28, 24⟩
/-- Field LANES of LNKp_EYE_CTRL (R509). -/
def LNKp_EYE_CTRL_LANES (p : Nat) : Fld := ⟨0x7010c + 0x100 * p, 23, 20⟩
/-- Field EYE of LNKp_EYE_CTRL (R509). -/
def LNKp_EYE_CTRL_EYE (p : Nat) : Fld := ⟨0x7010c + 0x100 * p, 19, 18⟩
/-- Field VOLT of LNKp_EYE_CTRL (R509). -/
def LNKp_EYE_CTRL_VOLT (p : Nat) : Fld := ⟨0x7010c + 0x100 * p, 15, 8⟩
/-- Field PHASE of LNKp_EYE_CTRL (R509). -/
def LNKp_EYE_CTRL_PHASE (p : Nat) : Fld := ⟨0x7010c + 0x100 * p, 5, 0⟩
/-- Field BUSY of LNKp_EYE_STAT (R509). -/
def LNKp_EYE_STAT_BUSY (p : Nat) : Fld := ⟨0x70110 + 0x100 * p, 31, 31⟩
/-- Field REFUSED of LNKp_EYE_STAT (R509). -/
def LNKp_EYE_STAT_REFUSED (p : Nat) : Fld := ⟨0x70110 + 0x100 * p, 30, 30⟩
/-- Field DONE of LNKp_EYE_STAT (R509). -/
def LNKp_EYE_STAT_DONE (p : Nat) : Fld := ⟨0x70110 + 0x100 * p, 3, 0⟩
/-- Field WIDTH_MIN of LNKp_EYE_LIM (R509). -/
def LNKp_EYE_LIM_WIDTH_MIN (p : Nat) : Fld := ⟨0x70114 + 0x100 * p, 13, 8⟩
/-- Field HEIGHT_MIN of LNKp_EYE_LIM (R509). -/
def LNKp_EYE_LIM_HEIGHT_MIN (p : Nat) : Fld := ⟨0x70114 + 0x100 * p, 7, 0⟩
/-- Field VALID of LNK_TOPO (R553). -/
def LNK_TOPO_VALID : Fld := ⟨0x70004, 31, 31⟩
/-- Field Z_LOG2 of LNK_TOPO (R553). -/
def LNK_TOPO_Z_LOG2 : Fld := ⟨0x70004, 21, 20⟩
/-- Field Y_LOG2 of LNK_TOPO (R553). -/
def LNK_TOPO_Y_LOG2 : Fld := ⟨0x70004, 19, 18⟩
/-- Field X_LOG2 of LNK_TOPO (R553). -/
def LNK_TOPO_X_LOG2 : Fld := ⟨0x70004, 17, 16⟩
/-- Field SLOT of LNK_TOPO (R553). -/
def LNK_TOPO_SLOT : Fld := ⟨0x70004, 10, 8⟩
/-- Field STATION of LNK_TOPO (R553). -/
def LNK_TOPO_STATION : Fld := ⟨0x70004, 7, 0⟩
/-- Field AUTO_RECLAIM of LNK_FAB_CTRL (R553). -/
def LNK_FAB_CTRL_AUTO_RECLAIM : Fld := ⟨0x70008, 1, 1⟩
/-- Field AUDIT_EN of LNK_FAB_CTRL (R553). -/
def LNK_FAB_CTRL_AUDIT_EN : Fld := ⟨0x70008, 0, 0⟩
/-- Field STATE of LNKp_LINK (R553). -/
def LNKp_LINK_STATE (p : Nat) : Fld := ⟨0x701c0 + 0x100 * p, 31, 29⟩
/-- Field WIRING of LNKp_LINK (R553). -/
def LNKp_LINK_WIRING (p : Nat) : Fld := ⟨0x701c0 + 0x100 * p, 28, 28⟩
/-- Field AUDIT_FAIL of LNKp_LINK (R553). -/
def LNKp_LINK_AUDIT_FAIL (p : Nat) : Fld := ⟨0x701c0 + 0x100 * p, 27, 27⟩
/-- Field RTT_LONG of LNKp_LINK (R553). -/
def LNKp_LINK_RTT_LONG (p : Nat) : Fld := ⟨0x701c0 + 0x100 * p, 26, 26⟩
/-- Field FAR_VALID of LNKp_LINK (R553). -/
def LNKp_LINK_FAR_VALID (p : Nat) : Fld := ⟨0x701c0 + 0x100 * p, 25, 25⟩
/-- Field FAR_PORT of LNKp_LINK (R553). -/
def LNKp_LINK_FAR_PORT (p : Nat) : Fld := ⟨0x701c0 + 0x100 * p, 21, 16⟩
/-- Field FAR_MODULE of LNKp_LINK (R553). -/
def LNKp_LINK_FAR_MODULE (p : Nat) : Fld := ⟨0x701c0 + 0x100 * p, 10, 0⟩
/-- Field RECLAIM of LNKp_LINK_CTRL (R553). -/
def LNKp_LINK_CTRL_RECLAIM (p : Nat) : Fld := ⟨0x701c4 + 0x100 * p, 1, 1⟩
/-- Field RETRAIN of LNKp_LINK_CTRL (R553). -/
def LNKp_LINK_CTRL_RETRAIN (p : Nat) : Fld := ⟨0x701c4 + 0x100 * p, 0, 0⟩
/-- Field RTT of LNKp_RTT (R553). -/
def LNKp_RTT_RTT (p : Nat) : Fld := ⟨0x701c8 + 0x100 * p, 15, 0⟩
/-- Field AVAIL_HI of LNKp_TAB01 (R553). -/
def LNKp_TAB01_AVAIL_HI (p : Nat) : Fld := ⟨0x701cc + 0x100 * p, 26, 16⟩
/-- Field AVAIL_LO of LNKp_TAB01 (R553). -/
def LNKp_TAB01_AVAIL_LO (p : Nat) : Fld := ⟨0x701cc + 0x100 * p, 10, 0⟩
/-- Field AVAIL_HI of LNKp_TAB23 (R553). -/
def LNKp_TAB23_AVAIL_HI (p : Nat) : Fld := ⟨0x701d0 + 0x100 * p, 26, 16⟩
/-- Field AVAIL_LO of LNKp_TAB23 (R553). -/
def LNKp_TAB23_AVAIL_LO (p : Nat) : Fld := ⟨0x701d0 + 0x100 * p, 10, 0⟩
/-- Field PARITY_MAX of D2D_CTRL (R583). -/
def D2D_CTRL_PARITY_MAX : Fld := ⟨0x80000, 15, 8⟩
/-- Field AUTO_RECLAIM of D2D_CTRL (R583). -/
def D2D_CTRL_AUTO_RECLAIM : Fld := ⟨0x80000, 2, 2⟩
/-- Field PARITY_EN of D2D_CTRL (R583). -/
def D2D_CTRL_PARITY_EN : Fld := ⟨0x80000, 1, 1⟩
/-- Field AUDIT_EN of D2D_CTRL (R583). -/
def D2D_CTRL_AUDIT_EN : Fld := ⟨0x80000, 0, 0⟩
/-- Field CD_CLK_OK of D2D_CLK_STAT (R583). -/
def D2D_CLK_STAT_CD_CLK_OK : Fld := ⟨0x80008, 9, 2⟩
/-- Field BDS_BCLK_OK of D2D_CLK_STAT (R583). -/
def D2D_CLK_STAT_BDS_BCLK_OK : Fld := ⟨0x80008, 1, 1⟩
/-- Field REF_OK of D2D_CLK_STAT (R583). -/
def D2D_CLK_STAT_REF_OK : Fld := ⟨0x80008, 0, 0⟩
/-- Field UNIT of D2D_MAP_SEL (R583). -/
def D2D_MAP_SEL_UNIT : Fld := ⟨0x80010, 19, 16⟩
/-- Field DIR of D2D_MAP_SEL (R583). -/
def D2D_MAP_SEL_DIR : Fld := ⟨0x80010, 12, 12⟩
/-- Field INDEX of D2D_MAP_SEL (R583). -/
def D2D_MAP_SEL_INDEX : Fld := ⟨0x80010, 8, 0⟩
/-- Field ENTRY of D2D_MAP_DATA (R583). -/
def D2D_MAP_DATA_ENTRY : Fld := ⟨0x80014, 31, 0⟩
/-- Field STATE of D2D_CDd_STAT (R583). -/
def D2D_CDd_STAT_STATE (i : Nat) : Fld := ⟨0x80020 + 0x4 * i, 31, 30⟩
/-- Field CLK_LOST of D2D_CDd_STAT (R583). -/
def D2D_CDd_STAT_CLK_LOST (i : Nat) : Fld := ⟨0x80020 + 0x4 * i, 29, 29⟩
/-- Field AUDIT_FAIL of D2D_CDd_STAT (R583). -/
def D2D_CDd_STAT_AUDIT_FAIL (i : Nat) : Fld := ⟨0x80020 + 0x4 * i, 28, 28⟩
/-- Field MAP_CHANGE of D2D_CDd_STAT (R583). -/
def D2D_CDd_STAT_MAP_CHANGE (i : Nat) : Fld := ⟨0x80020 + 0x4 * i, 27, 27⟩
/-- Field HALF of D2D_CDd_STAT (R583). -/
def D2D_CDd_STAT_HALF (i : Nat) : Fld := ⟨0x80020 + 0x4 * i, 15, 8⟩
/-- Field SLOW of D2D_CDd_STAT (R583). -/
def D2D_CDd_STAT_SLOW (i : Nat) : Fld := ⟨0x80020 + 0x4 * i, 7, 0⟩
/-- Field MAP_CHANGE of D2D_CPL_STAT (R583). -/
def D2D_CPL_STAT_MAP_CHANGE : Fld := ⟨0x80040, 27, 27⟩
/-- Field AUDIT_FAIL of D2D_CPL_STAT (R583). -/
def D2D_CPL_STAT_AUDIT_FAIL : Fld := ⟨0x80040, 26, 26⟩
/-- Field SPARES of D2D_CPL_STAT (R583). -/
def D2D_CPL_STAT_SPARES : Fld := ⟨0x80040, 17, 16⟩
/-- Field HALF of D2D_CPL_STAT (R583). -/
def D2D_CPL_STAT_HALF : Fld := ⟨0x80040, 15, 8⟩
/-- Field OFF of D2D_CPL_STAT (R583). -/
def D2D_CPL_STAT_OFF : Fld := ⟨0x80040, 7, 0⟩
/-- Field HOLDOFF_MS of HOST_CTRL (R621). -/
def HOST_CTRL_HOLDOFF_MS : Fld := ⟨0x90000, 31, 16⟩
/-- Field LOSS_STAY of HOST_CTRL (R621). -/
def HOST_CTRL_LOSS_STAY : Fld := ⟨0x90000, 3, 3⟩
/-- Field READAHEAD of HOST_CTRL (R621). -/
def HOST_CTRL_READAHEAD : Fld := ⟨0x90000, 2, 2⟩
/-- Field AUTO_FLIP of HOST_CTRL (R621). -/
def HOST_CTRL_AUTO_FLIP : Fld := ⟨0x90000, 0, 0⟩
/-- Field FLIPS of HOST_STAT (R621). -/
def HOST_STAT_FLIPS : Fld := ⟨0x90004, 31, 24⟩
/-- Field H1_SPEED of HOST_STAT (R621). -/
def HOST_STAT_H1_SPEED : Fld := ⟨0x90004, 23, 20⟩
/-- Field H1_WIDTH of HOST_STAT (R621). -/
def HOST_STAT_H1_WIDTH : Fld := ⟨0x90004, 19, 16⟩
/-- Field H0_SPEED of HOST_STAT (R621). -/
def HOST_STAT_H0_SPEED : Fld := ⟨0x90004, 15, 12⟩
/-- Field H0_WIDTH of HOST_STAT (R621). -/
def HOST_STAT_H0_WIDTH : Fld := ⟨0x90004, 11, 8⟩
/-- Field H1_LOST of HOST_STAT (R621). -/
def HOST_STAT_H1_LOST : Fld := ⟨0x90004, 3, 3⟩
/-- Field H0_LOST of HOST_STAT (R621). -/
def HOST_STAT_H0_LOST : Fld := ⟨0x90004, 2, 2⟩
/-- Field H1_UP of HOST_STAT (R621). -/
def HOST_STAT_H1_UP : Fld := ⟨0x90004, 1, 1⟩
/-- Field H0_UP of HOST_STAT (R621). -/
def HOST_STAT_H0_UP : Fld := ⟨0x90004, 0, 0⟩
/-- Field DWELL_LOG2 of HOST_BIAS_CTRL (R621). -/
def HOST_BIAS_CTRL_DWELL_LOG2 : Fld := ⟨0x90008, 4, 0⟩
/-- Field WORD of HOST_BIAS_SEL (R621). -/
def HOST_BIAS_SEL_WORD : Fld := ⟨0x90010, 14, 0⟩
/-- Field BIAS of HOST_BIAS_DATA (R621). -/
def HOST_BIAS_DATA_BIAS : Fld := ⟨0x90014, 31, 0⟩
/-- Field VALID of HOST_SEGk (R621). -/
def HOST_SEGk_VALID (i : Nat) : Fld := ⟨0x90100 + 0x4 * i, 31, 31⟩
/-- Field TARGET of HOST_SEGk (R621). -/
def HOST_SEGk_TARGET (i : Nat) : Fld := ⟨0x90100 + 0x4 * i, 17, 0⟩
/-- Field SEQ of HOST_DBn (R621). -/
def HOST_DBn_SEQ (i : Nat) : Fld := ⟨0x91000 + 0x4 * i, 31, 0⟩
/-- Field IRQ_LOG2 of MB_CTRL (R664). -/
def MB_CTRL_IRQ_LOG2 : Fld := ⟨0xa0000, 4, 0⟩
/-- Field READY of MB_GLOBAL (R664). -/
def MB_GLOBAL_READY : Fld := ⟨0xa0004, 0, 0⟩
/-- Field GO of MBm_CTRL (R664). -/
def MBm_CTRL_GO (i : Nat) : Fld := ⟨0xa0010 + 0x8 * i, 31, 31⟩
/-- Field VECTOR of MBm_CTRL (R664). -/
def MBm_CTRL_VECTOR (i : Nat) : Fld := ⟨0xa0010 + 0x8 * i, 6, 0⟩
/-- Field STATE of MBm_STAT (R664). -/
def MBm_STAT_STATE (i : Nat) : Fld := ⟨0xa0014 + 0x8 * i, 31, 30⟩
/-- Field OVERRUN of MBm_STAT (R664). -/
def MBm_STAT_OVERRUN (i : Nat) : Fld := ⟨0xa0014 + 0x8 * i, 29, 29⟩
/-- Field DONE_COUNT of MBm_STAT (R664). -/
def MBm_STAT_DONE_COUNT (i : Nat) : Fld := ⟨0xa0014 + 0x8 * i, 15, 0⟩
/-- Field L of MB_RINGn_L (R664). -/
def MB_RINGn_L_L (i : Nat) : Fld := ⟨0xa0100 + 0x4 * i, 31, 0⟩
/-- Field KIND of MB_RINGn_CFG (R664). -/
def MB_RINGn_CFG_KIND (i : Nat) : Fld := ⟨0xa0200 + 0x4 * i, 31, 28⟩
/-- Field FAST of MB_RINGn_CFG (R664). -/
def MB_RINGn_CFG_FAST (i : Nat) : Fld := ⟨0xa0200 + 0x4 * i, 27, 27⟩
/-- Field PATH of MB_RINGn_CFG (R664). -/
def MB_RINGn_CFG_PATH (i : Nat) : Fld := ⟨0xa0200 + 0x4 * i, 26, 25⟩
/-- Field VECTOR of MB_RINGn_CFG (R664). -/
def MB_RINGn_CFG_VECTOR (i : Nat) : Fld := ⟨0xa0200 + 0x4 * i, 24, 18⟩
/-- Field ENTRIES of MB_RINGn_CFG (R664). -/
def MB_RINGn_CFG_ENTRIES (i : Nat) : Fld := ⟨0xa0200 + 0x4 * i, 12, 0⟩
/-- Field VERIFY_SKIPPED of SEC_STAT (R701). -/
def SEC_STAT_VERIFY_SKIPPED : Fld := ⟨0xb0000, 24, 24⟩
/-- Field TRIAL of SEC_STAT (R701). -/
def SEC_STAT_TRIAL : Fld := ⟨0xb0000, 20, 20⟩
/-- Field PENDING of SEC_STAT (R701). -/
def SEC_STAT_PENDING : Fld := ⟨0xb0000, 16, 16⟩
/-- Field SELECTED of SEC_STAT (R701). -/
def SEC_STAT_SELECTED : Fld := ⟨0xb0000, 8, 8⟩
/-- Field LAST_START of SEC_STAT (R701). -/
def SEC_STAT_LAST_START : Fld := ⟨0xb0000, 1, 1⟩
/-- Field RUNNING of SEC_STAT (R701). -/
def SEC_STAT_RUNNING : Fld := ⟨0xb0000, 0, 0⟩
/-- Field LT of SEC_START_LT (R701). -/
def SEC_START_LT_LT : Fld := ⟨0xb0004, 31, 0⟩
/-- Field WARM_WAIT of TWIN_CTRL (R739). -/
def TWIN_CTRL_WARM_WAIT : Fld := ⟨0xc0000, 31, 22⟩
/-- Field MISS of TWIN_CTRL (R739). -/
def TWIN_CTRL_MISS : Fld := ⟨0xc0000, 21, 14⟩
/-- Field HOSTLOSS of TWIN_CTRL (R739). -/
def TWIN_CTRL_HOSTLOSS : Fld := ⟨0xc0000, 13, 13⟩
/-- Field GROUP of TWIN_CTRL (R739). -/
def TWIN_CTRL_GROUP : Fld := ⟨0xc0000, 12, 12⟩
/-- Field QUORUM of TWIN_CTRL (R739). -/
def TWIN_CTRL_QUORUM : Fld := ⟨0xc0000, 10, 8⟩
/-- Field STATE of TWIN_STAT (R739). -/
def TWIN_STAT_STATE : Fld := ⟨0xc0004, 31, 28⟩
/-- Field CONFLICT of TWIN_STAT (R739). -/
def TWIN_STAT_CONFLICT : Fld := ⟨0xc0004, 23, 23⟩
/-- Field TAKEN of TWIN_STAT (R739). -/
def TWIN_STAT_TAKEN : Fld := ⟨0xc0004, 22, 22⟩
/-- Field P34_UP of TWIN_STAT (R739). -/
def TWIN_STAT_P34_UP : Fld := ⟨0xc0004, 21, 21⟩
/-- Field P17_UP of TWIN_STAT (R739). -/
def TWIN_STAT_P17_UP : Fld := ⟨0xc0004, 20, 20⟩
/-- Field ROUTED_OK of TWIN_STAT (R739). -/
def TWIN_STAT_ROUTED_OK : Fld := ⟨0xc0004, 19, 19⟩
/-- Field QUORUM_OK of TWIN_STAT (R739). -/
def TWIN_STAT_QUORUM_OK : Fld := ⟨0xc0004, 18, 18⟩
/-- Field MISSED of TWIN_STAT (R739). -/
def TWIN_STAT_MISSED : Fld := ⟨0xc0004, 15, 8⟩
/-- Field LAG of TWIN_STAT (R739). -/
def TWIN_STAT_LAG : Fld := ⟨0xc0004, 7, 0⟩
/-- Field VALID of TWIN_HELD (R739). -/
def TWIN_HELD_VALID : Fld := ⟨0xc0010, 31, 31⟩
/-- Field MODULE of TWIN_HELD (R739). -/
def TWIN_HELD_MODULE : Fld := ⟨0xc0010, 10, 0⟩
/-- Field UNITS of TWIN_JCFG (R739). -/
def TWIN_JCFG_UNITS : Fld := ⟨0xc0014, 13, 0⟩
/-- Field ROLE of TWIN_ALIAS_IDX (R739). -/
def TWIN_ALIAS_IDX_ROLE : Fld := ⟨0xc0018, 10, 0⟩
/-- Field VALID of TWIN_ALIAS_DATA (R739). -/
def TWIN_ALIAS_DATA_VALID : Fld := ⟨0xc001c, 31, 31⟩
/-- Field HOLDER of TWIN_ALIAS_DATA (R739). -/
def TWIN_ALIAS_DATA_HOLDER : Fld := ⟨0xc001c, 10, 0⟩
/-- Field CE_REC of ERR_CTRL (R771). -/
def ERR_CTRL_CE_REC : Fld := ⟨0xd0000, 0, 0⟩
/-- Field SEQ of ERR_SEQ (R771). -/
def ERR_SEQ_SEQ : Fld := ⟨0xd0004, 31, 0⟩
/-- Field FATAL_VALID of ERR_STAT (R771). -/
def ERR_STAT_FATAL_VALID : Fld := ⟨0xd0008, 1, 1⟩
/-- Field LAST_VALID of ERR_STAT (R771). -/
def ERR_STAT_LAST_VALID : Fld := ⟨0xd0008, 0, 0⟩
/-- Field FORCE of PWR_CTRL (R798). -/
def PWR_CTRL_FORCE : Fld := ⟨0xe0000, 20, 20⟩
/-- Field FLOOR of PWR_CTRL (R798). -/
def PWR_CTRL_FLOOR : Fld := ⟨0xe0000, 19, 16⟩
/-- Field IN_FORCE of PWR_LIMIT (R798). -/
def PWR_LIMIT_IN_FORCE : Fld := ⟨0xe0004, 27, 16⟩
/-- Field TARGET of PWR_LIMIT (R798). -/
def PWR_LIMIT_TARGET : Fld := ⟨0xe0004, 11, 0⟩
/-- Field STEP of PWR_STAT (R798). -/
def PWR_STAT_STEP : Fld := ⟨0xe0008, 31, 28⟩
/-- Field NEXT_STEP of PWR_STAT (R798). -/
def PWR_STAT_NEXT_STEP : Fld := ⟨0xe0008, 27, 24⟩
/-- Field S_THERMAL of PWR_STAT (R798). -/
def PWR_STAT_S_THERMAL : Fld := ⟨0xe0008, 23, 20⟩
/-- Field S_POWER of PWR_STAT (R798). -/
def PWR_STAT_S_POWER : Fld := ⟨0xe0008, 19, 16⟩
/-- Field STATE of PWR_STAT (R798). -/
def PWR_STAT_STATE : Fld := ⟨0xe0008, 15, 14⟩
/-- Field BCLK_HALF of PWR_STAT (R798). -/
def PWR_STAT_BCLK_HALF : Fld := ⟨0xe0008, 13, 13⟩
/-- Field SURGE of PWR_STAT (R798). -/
def PWR_STAT_SURGE : Fld := ⟨0xe0008, 12, 12⟩
/-- Field WARNING_SEEN of PWR_STAT (R798). -/
def PWR_STAT_WARNING_SEEN : Fld := ⟨0xe0008, 11, 11⟩
/-- Field THROTTLE_SEEN of PWR_STAT (R798). -/
def PWR_STAT_THROTTLE_SEEN : Fld := ⟨0xe0008, 10, 10⟩
/-- Field SUSPECT of PWR_STAT (R798). -/
def PWR_STAT_SUSPECT : Fld := ⟨0xe0008, 9, 9⟩
/-- Field FALLBACK of PWR_STAT (R798). -/
def PWR_STAT_FALLBACK : Fld := ⟨0xe0008, 8, 8⟩
/-- Field PHASE_FAIL of PWR_STAT (R798). -/
def PWR_STAT_PHASE_FAIL : Fld := ⟨0xe0008, 7, 7⟩
/-- Field AVG_W of PWR_INPUT (R798). -/
def PWR_INPUT_AVG_W : Fld := ⟨0xe000c, 31, 16⟩
/-- Field VIN_MV of PWR_INPUT (R798). -/
def PWR_INPUT_VIN_MV : Fld := ⟨0xe000c, 15, 0⟩
/-- Field FALLBACK of PWR_TJd (R798). -/
def PWR_TJd_FALLBACK (i : Nat) : Fld := ⟨0xe0040 + 0x4 * i, 15, 15⟩
/-- Field VALID of PWR_TJd (R798). -/
def PWR_TJd_VALID (i : Nat) : Fld := ⟨0xe0040 + 0x4 * i, 14, 8⟩
/-- Field TJ of PWR_TJd (R798). -/
def PWR_TJd_TJ (i : Nat) : Fld := ⟨0xe0040 + 0x4 * i, 7, 0⟩
/-- Counter TT_VOID (R99): the offset of its _LO register. -/
def TT_VOID_CTR : Nat := 0x10020
/-- Counter TT_OMIT (R99): the offset of its _LO register. -/
def TT_OMIT_CTR : Nat := 0x10028
/-- Counter TT_SKIP (R99): the offset of its _LO register. -/
def TT_SKIP_CTR : Nat := 0x10030
/-- Counter TT_SLIP (R99): the offset of its _LO register. -/
def TT_SLIP_CTR : Nat := 0x10038
/-- Counter TT_BADPARAM (R99): the offset of its _LO register. -/
def TT_BADPARAM_CTR : Nat := 0x10040
/-- Counter CG_BAR_STALL (R168): the offset of its _LO register. -/
def CG_BAR_STALL_CTR : Nat := 0x20010
/-- Counter CG_L0_PAR (R168): the offset of its _LO register. -/
def CG_L0_PAR_CTR : Nat := 0x20018
/-- Counter CG_MEM_ERR (R168): the offset of its _LO register. -/
def CG_MEM_ERR_CTR : Nat := 0x20020
/-- Counter CG_PF (R168): the offset of its _LO register. -/
def CG_PF_CTR : Nat := 0x20028
/-- Counter MU_MMA (R274): the offset of its _LO register. -/
def MU_MMA_CTR : Nat := 0x20810
/-- Counter MU_SKIP (R274): the offset of its _LO register. -/
def MU_SKIP_CTR : Nat := 0x20818
/-- Counter MU_DIV (R274): the offset of its _LO register. -/
def MU_DIV_CTR : Nat := 0x20820
/-- Counter MU_META (R274): the offset of its _LO register. -/
def MU_META_CTR : Nat := 0x20828
/-- Counter BUF_CE (R326): the offset of its _LO register. -/
def BUF_CE_CTR : Nat := 0x30080
/-- Counter BUF_UE (R326): the offset of its _LO register. -/
def BUF_UE_CTR : Nat := 0x30088
/-- Counter BUF_WBILL (R326): the offset of its _LO register. -/
def BUF_WBILL_CTR : Nat := 0x30090
/-- Counter BUF_POISON (R326): the offset of its _LO register. -/
def BUF_POISON_CTR : Nat := 0x30098
/-- Counter BUF_RMW (R326): the offset of its _LO register. -/
def BUF_RMW_CTR : Nat := 0x300a0
/-- Counter BUF_ATOM (R326): the offset of its _LO register. -/
def BUF_ATOM_CTR : Nat := 0x300a8
/-- Counter BUF_HIT (R326): the offset of its _LO register. -/
def BUF_HIT_CTR : Nat := 0x300b0
/-- Counter BUF_MISS (R326): the offset of its _LO register. -/
def BUF_MISS_CTR : Nat := 0x300b8
/-- Counter BUF_WRBACK (R326): the offset of its _LO register. -/
def BUF_WRBACK_CTR : Nat := 0x300c0
/-- Counter BUF_SIDING (R326): the offset of its _LO register. -/
def BUF_SIDING_CTR : Nat := 0x300c8
/-- Counter CON_WAGON (R389): the offset of its _LO register. -/
def CON_WAGON_CTR : Nat := 0x40010
/-- Counter CON_ABANDON (R389): the offset of its _LO register. -/
def CON_ABANDON_CTR : Nat := 0x40018
/-- Counter CON_FORMAT (R389): the offset of its _LO register. -/
def CON_FORMAT_CTR : Nat := 0x40020
/-- Counter CON_WBILL (R389): the offset of its _LO register. -/
def CON_WBILL_CTR : Nat := 0x40028
/-- Counter CON_DEMOTE (R389): the offset of its _LO register. -/
def CON_DEMOTE_CTR : Nat := 0x40030
/-- Counter CON_AUDIT (R389): the offset of its _LO register. -/
def CON_AUDIT_CTR : Nat := 0x40038
/-- Counter CON_RECLAIM (R389): the offset of its _LO register. -/
def CON_RECLAIM_CTR : Nat := 0x40040
/-- Counter PTS_IN (R426): the offset of its _LO register. -/
def PTS_IN_CTR : Nat := 0x50020
/-- Counter PTS_ROUTED (R426): the offset of its _LO register. -/
def PTS_ROUTED_CTR : Nat := 0x50028
/-- Counter PTS_DEMOTED (R426): the offset of its _LO register. -/
def PTS_DEMOTED_CTR : Nat := 0x50030
/-- Counter PTS_OVERFLOW (R426): the offset of its _LO register. -/
def PTS_OVERFLOW_CTR : Nat := 0x50038
/-- Counter PTS_FALLBACK (R426): the offset of its _LO register. -/
def PTS_FALLBACK_CTR : Nat := 0x50040
/-- Counter PTS_AUDIT (R426): the offset of its _LO register. -/
def PTS_AUDIT_CTR : Nat := 0x50048
/-- Counter PTS_SKIP (R426): the offset of its _LO register. -/
def PTS_SKIP_CTR : Nat := 0x50050
/-- Counter PTS_GATE_TO (R426): the offset of its _LO register. -/
def PTS_GATE_TO_CTR : Nat := 0x50058
/-- Counter HBM_POISON (R471): the offset of its _LO register. -/
def HBM_POISON_CTR : Nat := 0x60020
/-- Counter HBM_WBILL (R471): the offset of its _LO register. -/
def HBM_WBILL_CTR : Nat := 0x60028
/-- Counter HBM_RMW (R471): the offset of its _LO register. -/
def HBM_RMW_CTR : Nat := 0x60030
/-- Counter HBM_TRAIN_FAIL (R471): the offset of its _LO register. -/
def HBM_TRAIN_FAIL_CTR : Nat := 0x60038
/-- Counter HBM_THR (R471): the offset of its _LO register. -/
def HBM_THR_CTR : Nat := 0x60040
/-- Counter HBMs_CE (R471): the offset of its _LO register. -/
def HBMs_CE_CTR (i : Nat) : Nat := 0x60118 + 0x100 * i
/-- Counter HBMs_UE (R471): the offset of its _LO register. -/
def HBMs_UE_CTR (i : Nat) : Nat := 0x60120 + 0x100 * i
/-- Counter LNK_STRAY (R553): the offset of its _LO register. -/
def LNK_STRAY_CTR : Nat := 0x70030
/-- Counter LNK_UNROUTE (R553): the offset of its _LO register. -/
def LNK_UNROUTE_CTR : Nat := 0x70038
/-- Counter LNK_EXTRA_SRC (R553): the offset of its _LO register. -/
def LNK_EXTRA_SRC_CTR : Nat := 0x70040
/-- Counter LNKp_DROP (R509): the offset of its _LO register. -/
def LNKp_DROP_CTR (i : Nat) : Nat := 0x70120 + 0x100 * i
/-- Counter LNKp_LOCK (R509): the offset of its _LO register. -/
def LNKp_LOCK_CTR (i : Nat) : Nat := 0x70128 + 0x100 * i
/-- Counter LNKp_Ln_CE of lane l of port p (R509): the offset of its _LO register. -/
def LNKp_Ln_CE_CTR (p l : Nat) : Nat := 0x70140 + 0x100 * p + 0x20 * l
/-- Counter LNKp_Ln_UE of lane l of port p (R509): the offset of its _LO register. -/
def LNKp_Ln_UE_CTR (p l : Nat) : Nat := 0x70148 + 0x100 * p + 0x20 * l
/-- Counter LNKp_Ln_BERR of lane l of port p (R509): the offset of its _LO register. -/
def LNKp_Ln_BERR_CTR (p l : Nat) : Nat := 0x70150 + 0x100 * p + 0x20 * l
/-- Counter LNKp_Ln_EYE of lane l of port p (R509): the offset of its _LO register. -/
def LNKp_Ln_EYE_CTR (p l : Nat) : Nat := 0x70158 + 0x100 * p + 0x20 * l
/-- Counter LNKp_REPLAY (R553): the offset of its _LO register. -/
def LNKp_REPLAY_CTR (i : Nat) : Nat := 0x701d8 + 0x100 * i
/-- Counter LNKp_POISON (R553): the offset of its _LO register. -/
def LNKp_POISON_CTR (i : Nat) : Nat := 0x701e0 + 0x100 * i
/-- Counter LNKp_RECLAIM (R553): the offset of its _LO register. -/
def LNKp_RECLAIM_CTR (i : Nat) : Nat := 0x701e8 + 0x100 * i
/-- Counter LNKp_AUDIT (R553): the offset of its _LO register. -/
def LNKp_AUDIT_CTR (i : Nat) : Nat := 0x701f0 + 0x100 * i
/-- Counter LNKp_VOID_RX (R553): the offset of its _LO register. -/
def LNKp_VOID_RX_CTR (i : Nat) : Nat := 0x701f8 + 0x100 * i
/-- Counter D2D_PARITY (R583): the offset of its _LO register. -/
def D2D_PARITY_CTR : Nat := 0x80080
/-- Counter D2D_REPAIR (R583): the offset of its _LO register. -/
def D2D_REPAIR_CTR : Nat := 0x80088
/-- Counter D2D_HALF (R583): the offset of its _LO register. -/
def D2D_HALF_CTR : Nat := 0x80090
/-- Counter D2D_OFF (R583): the offset of its _LO register. -/
def D2D_OFF_CTR : Nat := 0x80098
/-- Counter D2D_AUDIT (R583): the offset of its _LO register. -/
def D2D_AUDIT_CTR : Nat := 0x800a0
/-- Counter D2D_RECLAIM (R583): the offset of its _LO register. -/
def D2D_RECLAIM_CTR : Nat := 0x800a8
/-- Counter D2D_LOST (R583): the offset of its _LO register. -/
def D2D_LOST_CTR : Nat := 0x800b0
/-- Counter HOST_FLIP_DEV (R621): the offset of its _LO register. -/
def HOST_FLIP_DEV_CTR : Nat := 0x90020
/-- Counter HOST_FLIP_HOST (R621): the offset of its _LO register. -/
def HOST_FLIP_HOST_CTR : Nat := 0x90028
/-- Counter HOST_BIAS_ERR (R621): the offset of its _LO register. -/
def HOST_BIAS_ERR_CTR : Nat := 0x90030
/-- Counter HOST_DB_AHEAD (R621): the offset of its _LO register. -/
def HOST_DB_AHEAD_CTR : Nat := 0x90038
/-- Counter HOST_DB_BAD (R621): the offset of its _LO register. -/
def HOST_DB_BAD_CTR : Nat := 0x90040
/-- Counter HOST_UNMAPPED (R621): the offset of its _LO register. -/
def HOST_UNMAPPED_CTR : Nat := 0x90048
/-- Counter HOST_POISON (R621): the offset of its _LO register. -/
def HOST_POISON_CTR : Nat := 0x90050
/-- Counter MB_CMD (R664): the offset of its _LO register. -/
def MB_CMD_CTR : Nat := 0xa0040
/-- Counter MB_OVERRUN (R664): the offset of its _LO register. -/
def MB_OVERRUN_CTR : Nat := 0xa0048
/-- Counter MB_EVT_LOST (R664): the offset of its _LO register. -/
def MB_EVT_LOST_CTR : Nat := 0xa0050
/-- Counter MB_REJECT (R664): the offset of its _LO register. -/
def MB_REJECT_CTR : Nat := 0xa0058
/-- Counter SEC_WARM (R701): the offset of its _LO register. -/
def SEC_WARM_CTR : Nat := 0xb0010
/-- Counter SEC_COLD (R701): the offset of its _LO register. -/
def SEC_COLD_CTR : Nat := 0xb0018
/-- Counter TWIN_PAGES (R739): the offset of its _LO register. -/
def TWIN_PAGES_CTR : Nat := 0xc0040
/-- Counter TWIN_INCOMPLETE (R739): the offset of its _LO register. -/
def TWIN_INCOMPLETE_CTR : Nat := 0xc0048
/-- Counter TWIN_MISS (R739): the offset of its _LO register. -/
def TWIN_MISS_CTR : Nat := 0xc0050
/-- Counter TWIN_TAKE (R739): the offset of its _LO register. -/
def TWIN_TAKE_CTR : Nat := 0xc0058
/-- Counter TWIN_CONFLICT (R739): the offset of its _LO register. -/
def TWIN_CONFLICT_CTR : Nat := 0xc0060
/-- Counter ERR_REC (R771): the offset of its _LO register. -/
def ERR_REC_CTR : Nat := 0xd0100
/-- Counter ERR_SUPPR (R771): the offset of its _LO register. -/
def ERR_SUPPR_CTR : Nat := 0xd0108
/-- Counter ERR_CONTAINED (R771): the offset of its _LO register. -/
def ERR_CONTAINED_CTR : Nat := 0xd0110
/-- Counter PWR_ENERGY (R798): the offset of its _LO register. -/
def PWR_ENERGY_CTR : Nat := 0xe0080
/-- Counter PWR_THR_EP (R798): the offset of its _LO register. -/
def PWR_THR_EP_CTR : Nat := 0xe0088
/-- Counter PWR_SURGE (R798): the offset of its _LO register. -/
def PWR_SURGE_CTR : Nat := 0xe0090
/-- Counter PWR_SUSPECT (R798): the offset of its _LO register. -/
def PWR_SUSPECT_CTR : Nat := 0xe0098
/-- Counter PWR_STEP (R798): the offset of its _LO register. -/
def PWR_STEP_CTR : Nat := 0xe00a0

/-- The registers of R44. -/
def regs01 : List RDef := [
  ⟨0x400, 0x4, 21, [⟨31, 0, .ro, 0, []⟩]⟩  -- SIZE_Wn
  ]

/-- The registers of R99. -/
def regs02 : List RDef := [
  ⟨0x10000, 0x0, 1, [⟨1, 1, .rw, 0, []⟩, ⟨0, 0, .rw, 0, []⟩]⟩,  -- TT_CTRL
  ⟨0x10004, 0x0, 1, [⟨31, 24, .ro, 255, []⟩, ⟨23, 16, .ro, 0, []⟩, ⟨10, 10, .w1c, 0, []⟩, ⟨9, 9, .w1c, 0, []⟩, ⟨8, 8, .w1c, 0, []⟩, ⟨5, 5, .ro, 0, []⟩, ⟨4, 4, .ro, 0, []⟩, ⟨2, 0, .ro, 0, []⟩]⟩,  -- TT_LT_STAT
  ⟨0x10010, 0x0, 1, [⟨23, 16, .ro, 0, []⟩, ⟨12, 0, .ro, 0, []⟩]⟩,  -- TT_ROWS_STAT
  ⟨0x10014, 0x0, 1, [⟨4, 0, .rw, 8, [(1, 16)]⟩]⟩,  -- TT_HOLDOVER
  ⟨0x10008, 0x4, 2, [⟨31, 0, .ro, 0, []⟩]⟩  -- TT_LT_LO, TT_LT_HI
  ]

/-- The registers of R168. -/
def regs03 : List RDef := [
  ⟨0x20000, 0x0, 1, [⟨11, 8, .rw, 2, [(1, 4)]⟩, ⟨7, 7, .rw, 1, []⟩, ⟨4, 0, .rw, 24, [(16, 30)]⟩]⟩,  -- CG_CTRL
  ⟨0x20004, 0x0, 1, [⟨0, 0, .wo, 0, []⟩]⟩  -- CG_L0_INV
  ]

/-- The registers of R274. -/
def regs05 : List RDef := [
  ⟨0x20800, 0x0, 1, [⟨0, 0, .rw, 1, []⟩]⟩  -- MU_CTRL
  ]

/-- The registers of R326. -/
def regs06 : List RDef := [
  ⟨0x30000, 0x0, 1, [⟨23, 16, .wo, 0, []⟩, ⟨11, 8, .rw, 12, [(8, 15)]⟩, ⟨1, 1, .rw, 0, []⟩, ⟨0, 0, .rw, 1, []⟩]⟩,  -- BUF_CTRL
  ⟨0x30004, 0x0, 1, [⟨31, 31, .rw, 0, []⟩, ⟨30, 29, .rw, 0, [(0, 2)]⟩, ⟨11, 8, .rw, 0, []⟩, ⟨7, 7, .rw, 0, []⟩, ⟨6, 0, .rw, 0, []⟩]⟩,  -- BUF_FLIP_CTRL
  ⟨0x30010, 0x0, 1, [⟨31, 16, .ro, 0, []⟩, ⟨15, 0, .ro, 0, []⟩]⟩,  -- BUF_SIDING_STAT
  ⟨0x30014, 0x0, 1, [⟨25, 16, .ro, 0, []⟩, ⟨9, 0, .ro, 0, []⟩]⟩,  -- BUF_EVB_STAT
  ⟨0x30018, 0x0, 1, [⟨7, 0, .ro, 0, []⟩]⟩,  -- BUF_STAT
  ⟨0x30040, 0x8, 8, [⟨31, 31, .rw, 0, []⟩, ⟨26, 24, .rw, 0, [(0, 5)]⟩, ⟨21, 16, .rw, 0, [(0, 62)]⟩, ⟨15, 8, .rw, 0, [(1, 255)]⟩]⟩,  -- BUF_RGNk_CFG
  ⟨0x30044, 0x8, 8, [⟨10, 0, .rw, 0, []⟩]⟩,  -- BUF_RGNk_BACK
  ⟨0x30008, 0x4, 2, [⟨31, 0, .rw, 0, []⟩]⟩  -- BUF_FLIP_MASK_LO, BUF_FLIP_MASK_HI
  ]

/-- The registers of R389. -/
def regs07 : List RDef := [
  ⟨0x40000, 0x0, 1, [⟨12, 8, .rw, 24, [(16, 30)]⟩, ⟨4, 4, .rw, 1, []⟩, ⟨3, 3, .rw, 1, []⟩, ⟨1, 1, .rw, 1, []⟩, ⟨0, 0, .rw, 1, []⟩]⟩,  -- CON_CTRL
  ⟨0x40004, 0x0, 1, [⟨30, 24, .ro, 0, []⟩, ⟨22, 16, .ro, 0, []⟩, ⟨2, 2, .ro, 0, []⟩, ⟨1, 1, .w1c, 0, []⟩, ⟨0, 0, .w1c, 0, []⟩]⟩,  -- CON_STAT
  ⟨0x40008, 0x0, 1, [⟨7, 4, .wo, 0, []⟩, ⟨3, 0, .wo, 0, []⟩]⟩,  -- CON_RESET
  ⟨0x40100, 0x4, 64, [⟨31, 30, .rw, 0, []⟩, ⟨23, 16, .rw, 0, [(0, 13), (16, 255)]⟩, ⟨15, 0, .rw, 0, []⟩]⟩  -- CON_REGk_CFG
  ]

/-- The registers of R426. -/
def regs08 : List RDef := [
  ⟨0x50000, 0x0, 1, [⟨20, 16, .rw, 24, [(16, 30)]⟩, ⟨12, 8, .rw, 24, [(16, 30)]⟩, ⟨2, 2, .rw, 1, []⟩, ⟨1, 1, .rw, 1, []⟩, ⟨0, 0, .rw, 1, []⟩]⟩,  -- PTS_CTRL
  ⟨0x50004, 0x0, 1, [⟨24, 16, .ro, 0, []⟩, ⟨3, 3, .w1c, 0, []⟩, ⟨2, 2, .w1c, 0, []⟩, ⟨1, 1, .ro, 0, []⟩, ⟨0, 0, .ro, 0, []⟩]⟩,  -- PTS_STAT
  ⟨0x50008, 0x0, 1, [⟨11, 0, .rw, 0, []⟩]⟩,  -- PTS_TBL_IDX
  ⟨0x5000c, 0x0, 1, [⟨31, 0, .rw, 0, []⟩]⟩,  -- PTS_TBL_DATA
  ⟨0x50010, 0x0, 1, [⟨1, 1, .wo, 0, []⟩, ⟨0, 0, .wo, 0, []⟩]⟩  -- PTS_RESET
  ]

/-- The registers of R471. -/
def regs09 : List RDef := [
  ⟨0x60000, 0x0, 1, [⟨11, 8, .rw, 12, [(8, 15)]⟩, ⟨0, 0, .rw, 1, []⟩]⟩,  -- HBM_CTRL
  ⟨0x60004, 0x0, 1, [⟨23, 0, .ro, 0, []⟩]⟩,  -- HBM_STAT
  ⟨0x60008, 0x0, 1, [⟨31, 31, .rw, 0, []⟩, ⟨30, 30, .rw, 0, []⟩, ⟨24, 23, .rw, 0, []⟩, ⟨22, 16, .rw, 0, [(0, 73)]⟩, ⟨12, 8, .rw, 0, [(0, 23)]⟩, ⟨7, 7, .rw, 0, []⟩]⟩,  -- HBM_FLIP_CTRL
  ⟨0x6000c, 0x0, 1, [⟨31, 0, .rw, 0, []⟩]⟩,  -- HBM_FLIP_MASK
  ⟨0x60100, 0x100, 24, [⟨5, 4, .rw, 0, []⟩, ⟨0, 0, .rw, 0, []⟩]⟩,  -- HBMs_CTRL
  ⟨0x60104, 0x100, 24, [⟨31, 31, .w1c, 0, []⟩, ⟨14, 14, .ro, 0, []⟩, ⟨13, 13, .ro, 0, []⟩, ⟨12, 12, .ro, 0, []⟩, ⟨11, 11, .ro, 0, []⟩, ⟨9, 8, .ro, 0, []⟩, ⟨7, 0, .ro, 0, []⟩]⟩,  -- HBMs_STAT
  ⟨0x60108, 0x100, 24, [⟨31, 31, .w1c, 0, []⟩, ⟨30, 29, .ro, 0, []⟩, ⟨26, 24, .ro, 0, []⟩]⟩,  -- HBMs_ERR_INFO
  ⟨0x60110, 0x100, 24, [⟨31, 0, .ro, 0, []⟩]⟩,  -- HBMs_ERR_DA_LO
  ⟨0x60114, 0x100, 24, [⟨15, 0, .ro, 0, []⟩]⟩  -- HBMs_ERR_DA_HI
  ]

/-- The registers of R509. -/
def regs10 : List RDef := [
  ⟨0x70000, 0x0, 1, [⟨15, 8, .rw, 16, [(1, 255)]⟩, ⟨0, 0, .rw, 1, []⟩]⟩,  -- LNK_CTRL
  ⟨0x70100, 0x100, 36, [⟨31, 31, .rw, 0, []⟩, ⟨19, 16, .rw, 15, []⟩, ⟨10, 8, .rw, 0, [(0, 3)]⟩, ⟨7, 6, .rw, 0, [(0, 2)]⟩, ⟨1, 0, .rw, 3, []⟩]⟩,  -- LNKp_CFG
  ⟨0x70104, 0x100, 36, [⟨31, 28, .w1c, 0, []⟩, ⟨27, 27, .w1c, 0, []⟩, ⟨26, 26, .w1c, 0, []⟩, ⟨25, 25, .ro, 0, []⟩, ⟨24, 24, .ro, 0, []⟩, ⟨19, 16, .ro, 0, []⟩, ⟨5, 4, .ro, 0, []⟩, ⟨1, 0, .ro, 0, []⟩]⟩,  -- LNKp_STAT
  ⟨0x70108, 0x100, 36, [⟨3, 0, .ro, 0, []⟩, ⟨7, 4, .ro, 0, []⟩, ⟨11, 8, .ro, 0, []⟩, ⟨15, 12, .ro, 0, []⟩]⟩,  -- LNKp_LSTATE
  ⟨0x7010c, 0x100, 36, [⟨31, 31, .wo, 0, []⟩, ⟨28, 24, .rw, 20, [(16, 30)]⟩, ⟨23, 20, .rw, 15, []⟩, ⟨19, 18, .rw, 1, [(0, 2)]⟩, ⟨15, 8, .rw, 0, [(0, 127), (129, 255)]⟩, ⟨5, 0, .rw, 0, []⟩]⟩,  -- LNKp_EYE_CTRL
  ⟨0x70110, 0x100, 36, [⟨31, 31, .ro, 0, []⟩, ⟨30, 30, .w1c, 0, []⟩, ⟨3, 0, .ro, 0, []⟩]⟩,  -- LNKp_EYE_STAT
  ⟨0x70114, 0x100, 36, [⟨13, 8, .rw, 16, []⟩, ⟨7, 0, .rw, 24, []⟩]⟩  -- LNKp_EYE_LIM
  ]

/-- The registers of R553. -/
def regs11 : List RDef := [
  ⟨0x70004, 0x0, 1, [⟨31, 31, .rw, 0, []⟩, ⟨21, 20, .rw, 0, [(0, 2)]⟩, ⟨19, 18, .rw, 0, []⟩, ⟨17, 16, .rw, 0, []⟩, ⟨10, 8, .ro, 0, []⟩, ⟨7, 0, .rw, 0, []⟩]⟩,  -- LNK_TOPO
  ⟨0x70008, 0x0, 1, [⟨1, 1, .rw, 1, []⟩, ⟨0, 0, .rw, 1, []⟩]⟩,  -- LNK_FAB_CTRL
  ⟨0x701c0, 0x100, 36, [⟨31, 29, .ro, 0, []⟩, ⟨28, 28, .w1c, 0, []⟩, ⟨27, 27, .w1c, 0, []⟩, ⟨26, 26, .ro, 0, []⟩, ⟨25, 25, .ro, 0, []⟩, ⟨21, 16, .ro, 0, []⟩, ⟨10, 0, .ro, 0, []⟩]⟩,  -- LNKp_LINK
  ⟨0x701c4, 0x100, 36, [⟨1, 1, .wo, 0, []⟩, ⟨0, 0, .wo, 0, []⟩]⟩,  -- LNKp_LINK_CTRL
  ⟨0x701c8, 0x100, 36, [⟨15, 0, .ro, 0, []⟩]⟩,  -- LNKp_RTT
  ⟨0x701cc, 0x100, 36, [⟨26, 16, .ro, 0, []⟩, ⟨10, 0, .ro, 0, []⟩]⟩,  -- LNKp_TAB01
  ⟨0x701d0, 0x100, 36, [⟨26, 16, .ro, 0, []⟩, ⟨10, 0, .ro, 0, []⟩]⟩  -- LNKp_TAB23
  ]

/-- The registers of R583. -/
def regs12 : List RDef := [
  ⟨0x80000, 0x0, 1, [⟨15, 8, .rw, 16, [(1, 255)]⟩, ⟨2, 2, .rw, 1, []⟩, ⟨1, 1, .rw, 1, []⟩, ⟨0, 0, .rw, 1, []⟩]⟩,  -- D2D_CTRL
  ⟨0x80008, 0x0, 1, [⟨9, 2, .ro, 0, []⟩, ⟨1, 1, .ro, 0, []⟩, ⟨0, 0, .ro, 0, []⟩]⟩,  -- D2D_CLK_STAT
  ⟨0x80010, 0x0, 1, [⟨19, 16, .rw, 0, [(0, 8)]⟩, ⟨12, 12, .rw, 0, []⟩, ⟨8, 0, .rw, 0, [(0, 287)]⟩]⟩,  -- D2D_MAP_SEL
  ⟨0x80014, 0x0, 1, [⟨31, 0, .rw, 0, []⟩]⟩,  -- D2D_MAP_DATA
  ⟨0x80020, 0x4, 8, [⟨31, 30, .ro, 0, []⟩, ⟨29, 29, .w1c, 0, []⟩, ⟨28, 28, .w1c, 0, []⟩, ⟨27, 27, .w1c, 0, []⟩, ⟨15, 8, .ro, 0, []⟩, ⟨7, 0, .ro, 0, []⟩]⟩,  -- D2D_CDd_STAT
  ⟨0x80040, 0x0, 1, [⟨27, 27, .w1c, 0, []⟩, ⟨26, 26, .w1c, 0, []⟩, ⟨17, 16, .ro, 0, []⟩, ⟨15, 8, .ro, 0, []⟩, ⟨7, 0, .ro, 0, []⟩]⟩  -- D2D_CPL_STAT
  ]

/-- The registers of R621. -/
def regs13 : List RDef := [
  ⟨0x90000, 0x0, 1, [⟨31, 16, .rw, 500, [(1, 60000)]⟩, ⟨3, 3, .rw, 0, []⟩, ⟨2, 2, .rw, 1, []⟩, ⟨0, 0, .rw, 1, []⟩]⟩,  -- HOST_CTRL
  ⟨0x90004, 0x0, 1, [⟨31, 24, .ro, 0, []⟩, ⟨23, 20, .ro, 0, []⟩, ⟨19, 16, .ro, 15, []⟩, ⟨15, 12, .ro, 0, []⟩, ⟨11, 8, .ro, 15, []⟩, ⟨3, 3, .w1c, 0, []⟩, ⟨2, 2, .w1c, 0, []⟩, ⟨1, 1, .ro, 0, []⟩, ⟨0, 0, .ro, 0, []⟩]⟩,  -- HOST_STAT
  ⟨0x90008, 0x0, 1, [⟨4, 0, .rw, 14, [(10, 24)]⟩]⟩,  -- HOST_BIAS_CTRL
  ⟨0x90010, 0x0, 1, [⟨14, 0, .rw, 0, []⟩]⟩,  -- HOST_BIAS_SEL
  ⟨0x90014, 0x0, 1, [⟨31, 0, .rw, 4294967295, []⟩]⟩,  -- HOST_BIAS_DATA
  ⟨0x90100, 0x4, 64, [⟨31, 31, .rw, 1, []⟩, ⟨17, 0, .rw, 0, [(0, 1535), (229376, 229383)]⟩]⟩,  -- HOST_SEGk
  ⟨0x91000, 0x4, 64, [⟨31, 0, .wo, 0, []⟩]⟩  -- HOST_DBn
  ]

/-- The registers of R664. -/
def regs14 : List RDef := [
  ⟨0xa0000, 0x0, 1, [⟨4, 0, .rw, 10, [(0, 20)]⟩]⟩,  -- MB_CTRL
  ⟨0xa0004, 0x0, 1, [⟨0, 0, .ro, 0, []⟩]⟩,  -- MB_GLOBAL
  ⟨0xa0010, 0x8, 4, [⟨31, 31, .wo, 0, []⟩, ⟨6, 0, .rw, 127, [(0, 63), (127, 127)]⟩]⟩,  -- MBm_CTRL
  ⟨0xa0014, 0x8, 4, [⟨31, 30, .ro, 0, []⟩, ⟨29, 29, .w1c, 0, []⟩, ⟨15, 0, .ro, 0, []⟩]⟩,  -- MBm_STAT
  ⟨0xa0100, 0x4, 64, [⟨31, 0, .ro, 0, []⟩]⟩,  -- MB_RINGn_L
  ⟨0xa0200, 0x4, 64, [⟨31, 28, .ro, 0, []⟩, ⟨27, 27, .ro, 0, []⟩, ⟨26, 25, .ro, 0, []⟩, ⟨24, 18, .ro, 127, []⟩, ⟨12, 0, .ro, 0, []⟩]⟩,  -- MB_RINGn_CFG
  ⟨0xa1000, 0x4, 512, [⟨31, 0, .rw, 0, []⟩]⟩,  -- MB0_REQw
  ⟨0xa1800, 0x4, 512, [⟨31, 0, .ro, 0, []⟩]⟩,  -- MB0_RSPw
  ⟨0xa2000, 0x4, 512, [⟨31, 0, .rw, 0, []⟩]⟩,  -- MB1_REQw
  ⟨0xa2800, 0x4, 512, [⟨31, 0, .ro, 0, []⟩]⟩,  -- MB1_RSPw
  ⟨0xa3000, 0x4, 512, [⟨31, 0, .rw, 0, []⟩]⟩,  -- MB2_REQw
  ⟨0xa3800, 0x4, 512, [⟨31, 0, .ro, 0, []⟩]⟩,  -- MB2_RSPw
  ⟨0xa4000, 0x4, 512, [⟨31, 0, .rw, 0, []⟩]⟩,  -- MB3_REQw
  ⟨0xa4800, 0x4, 512, [⟨31, 0, .ro, 0, []⟩]⟩  -- MB3_RSPw
  ]

/-- The registers of R701. -/
def regs15 : List RDef := [
  ⟨0xb0000, 0x0, 1, [⟨24, 24, .ro, 0, []⟩, ⟨20, 20, .ro, 0, []⟩, ⟨16, 16, .ro, 0, []⟩, ⟨8, 8, .ro, 0, []⟩, ⟨1, 1, .ro, 0, []⟩, ⟨0, 0, .ro, 0, []⟩]⟩,  -- SEC_STAT
  ⟨0xb0004, 0x0, 1, [⟨31, 0, .ro, 0, []⟩]⟩  -- SEC_START_LT
  ]

/-- The registers of R739. -/
def regs16 : List RDef := [
  ⟨0xc0000, 0x0, 1, [⟨31, 22, .rw, 512, [(1, 1023)]⟩, ⟨21, 14, .rw, 64, [(8, 255)]⟩, ⟨13, 13, .rw, 1, []⟩, ⟨12, 12, .rw, 0, []⟩, ⟨10, 8, .rw, 4, [(1, 7)]⟩]⟩,  -- TWIN_CTRL
  ⟨0xc0004, 0x0, 1, [⟨31, 28, .ro, 0, []⟩, ⟨23, 23, .w1c, 0, []⟩, ⟨22, 22, .w1c, 0, []⟩, ⟨21, 21, .ro, 0, []⟩, ⟨20, 20, .ro, 0, []⟩, ⟨19, 19, .ro, 0, []⟩, ⟨18, 18, .ro, 0, []⟩, ⟨15, 8, .ro, 0, []⟩, ⟨7, 0, .ro, 0, []⟩]⟩,  -- TWIN_STAT
  ⟨0xc0010, 0x0, 1, [⟨31, 31, .ro, 0, []⟩, ⟨10, 0, .ro, 0, []⟩]⟩,  -- TWIN_HELD
  ⟨0xc0014, 0x0, 1, [⟨13, 0, .rw, 4096, [(1024, 8192)]⟩]⟩,  -- TWIN_JCFG
  ⟨0xc0018, 0x0, 1, [⟨10, 0, .rw, 0, []⟩]⟩,  -- TWIN_ALIAS_IDX
  ⟨0xc001c, 0x0, 1, [⟨31, 31, .ro, 0, []⟩, ⟨10, 0, .ro, 0, []⟩]⟩,  -- TWIN_ALIAS_DATA
  ⟨0xc0008, 0x4, 2, [⟨31, 0, .ro, 0, []⟩]⟩  -- TWIN_J_LO, TWIN_J_HI
  ]

/-- The registers of R771. -/
def regs17 : List RDef := [
  ⟨0xd0000, 0x0, 1, [⟨0, 0, .rw, 1, []⟩]⟩,  -- ERR_CTRL
  ⟨0xd0004, 0x0, 1, [⟨31, 0, .ro, 0, []⟩]⟩,  -- ERR_SEQ
  ⟨0xd0008, 0x0, 1, [⟨1, 1, .w1c, 0, []⟩, ⟨0, 0, .w1c, 0, []⟩]⟩,  -- ERR_STAT
  ⟨0xd0040, 0x4, 12, [⟨31, 0, .ro, 0, []⟩]⟩,  -- ERR_LASTw
  ⟨0xd0080, 0x4, 12, [⟨31, 0, .ro, 0, []⟩]⟩  -- ERR_FATALw
  ]

/-- The registers of R798. -/
def regs18 : List RDef := [
  ⟨0xe0000, 0x0, 1, [⟨20, 20, .rw, 0, []⟩, ⟨19, 16, .rw, 0, [(0, 11)]⟩]⟩,  -- PWR_CTRL
  ⟨0xe0004, 0x0, 1, [⟨27, 16, .ro, 2800, []⟩, ⟨11, 0, .rw, 2800, [(1000, 2800)]⟩]⟩,  -- PWR_LIMIT
  ⟨0xe0008, 0x0, 1, [⟨31, 28, .ro, 0, []⟩, ⟨27, 24, .ro, 0, []⟩, ⟨23, 20, .ro, 0, []⟩, ⟨19, 16, .ro, 0, []⟩, ⟨15, 14, .ro, 0, []⟩, ⟨13, 13, .ro, 0, []⟩, ⟨12, 12, .w1c, 0, []⟩, ⟨11, 11, .w1c, 0, []⟩, ⟨10, 10, .w1c, 0, []⟩, ⟨9, 9, .ro, 0, []⟩, ⟨8, 8, .ro, 0, []⟩, ⟨7, 7, .ro, 0, []⟩]⟩,  -- PWR_STAT
  ⟨0xe000c, 0x0, 1, [⟨31, 16, .ro, 0, []⟩, ⟨15, 0, .ro, 0, []⟩]⟩,  -- PWR_INPUT
  ⟨0xe0040, 0x4, 10, [⟨15, 15, .ro, 0, []⟩, ⟨14, 8, .ro, 0, []⟩, ⟨7, 0, .ro, 0, []⟩]⟩  -- PWR_TJd
  ]

/-- Every register run of control space, but the counters. -/
def regTable : List RDef :=
  regs01 ++ regs02 ++ regs03 ++ regs05 ++ regs06 ++ regs07 ++ regs08 ++ regs09 ++ regs10 ++ regs11 ++ regs12 ++ regs13 ++ regs14 ++ regs15 ++ regs16 ++ regs17 ++ regs18

/-- The runs of 48-bit counters (R31): base of _LO, stride, count. -/
def ctrTable : List (Nat × Nat × Nat) := [
  (0x10020, 0x0, 1),
  (0x10028, 0x0, 1),
  (0x10030, 0x0, 1),
  (0x10038, 0x0, 1),
  (0x10040, 0x0, 1),
  (0x20010, 0x0, 1),
  (0x20018, 0x0, 1),
  (0x20020, 0x0, 1),
  (0x20028, 0x0, 1),
  (0x20810, 0x0, 1),
  (0x20818, 0x0, 1),
  (0x20820, 0x0, 1),
  (0x20828, 0x0, 1),
  (0x30080, 0x0, 1),
  (0x30088, 0x0, 1),
  (0x30090, 0x0, 1),
  (0x30098, 0x0, 1),
  (0x300a0, 0x0, 1),
  (0x300a8, 0x0, 1),
  (0x300b0, 0x0, 1),
  (0x300b8, 0x0, 1),
  (0x300c0, 0x0, 1),
  (0x300c8, 0x0, 1),
  (0x40010, 0x0, 1),
  (0x40018, 0x0, 1),
  (0x40020, 0x0, 1),
  (0x40028, 0x0, 1),
  (0x40030, 0x0, 1),
  (0x40038, 0x0, 1),
  (0x40040, 0x0, 1),
  (0x50020, 0x0, 1),
  (0x50028, 0x0, 1),
  (0x50030, 0x0, 1),
  (0x50038, 0x0, 1),
  (0x50040, 0x0, 1),
  (0x50048, 0x0, 1),
  (0x50050, 0x0, 1),
  (0x50058, 0x0, 1),
  (0x60020, 0x0, 1),
  (0x60028, 0x0, 1),
  (0x60030, 0x0, 1),
  (0x60038, 0x0, 1),
  (0x60040, 0x0, 1),
  (0x60118, 0x100, 24),
  (0x60120, 0x100, 24),
  (0x70030, 0x0, 1),
  (0x70038, 0x0, 1),
  (0x70040, 0x0, 1),
  (0x70120, 0x100, 36),
  (0x70128, 0x100, 36),
  (0x70140, 0x100, 36),
  (0x70160, 0x100, 36),
  (0x70180, 0x100, 36),
  (0x701a0, 0x100, 36),
  (0x70148, 0x100, 36),
  (0x70168, 0x100, 36),
  (0x70188, 0x100, 36),
  (0x701a8, 0x100, 36),
  (0x70150, 0x100, 36),
  (0x70170, 0x100, 36),
  (0x70190, 0x100, 36),
  (0x701b0, 0x100, 36),
  (0x70158, 0x100, 36),
  (0x70178, 0x100, 36),
  (0x70198, 0x100, 36),
  (0x701b8, 0x100, 36),
  (0x701d8, 0x100, 36),
  (0x701e0, 0x100, 36),
  (0x701e8, 0x100, 36),
  (0x701f0, 0x100, 36),
  (0x701f8, 0x100, 36),
  (0x80080, 0x0, 1),
  (0x80088, 0x0, 1),
  (0x80090, 0x0, 1),
  (0x80098, 0x0, 1),
  (0x800a0, 0x0, 1),
  (0x800a8, 0x0, 1),
  (0x800b0, 0x0, 1),
  (0x90020, 0x0, 1),
  (0x90028, 0x0, 1),
  (0x90030, 0x0, 1),
  (0x90038, 0x0, 1),
  (0x90040, 0x0, 1),
  (0x90048, 0x0, 1),
  (0x90050, 0x0, 1),
  (0xa0040, 0x0, 1),
  (0xa0048, 0x0, 1),
  (0xa0050, 0x0, 1),
  (0xa0058, 0x0, 1),
  (0xb0010, 0x0, 1),
  (0xb0018, 0x0, 1),
  (0xc0040, 0x0, 1),
  (0xc0048, 0x0, 1),
  (0xc0050, 0x0, 1),
  (0xc0058, 0x0, 1),
  (0xc0060, 0x0, 1),
  (0xd0100, 0x0, 1),
  (0xd0108, 0x0, 1),
  (0xd0110, 0x0, 1),
  (0xe0080, 0x0, 1),
  (0xe0088, 0x0, 1),
  (0xe0090, 0x0, 1),
  (0xe0098, 0x0, 1),
  (0xe00a0, 0x0, 1)
  ]

/-- Offset off is register number i of the run: answer i. -/
def runIndex (base stride count off : Nat) : Option Nat :=
  if off < base then none
  else if stride = 0 then (if off = base then some 0 else none)
  else if (off - base) % stride = 0 ∧ (off - base) / stride < count then some ((off - base) / stride) else none

/-- The fields of the register at an offset, none where no register is defined (R823) or the register is a counter's. -/
def regFields (off : Nat) : Option (List FDef) :=
  (regTable.find? (fun d => (runIndex d.base d.stride d.count off).isSome)).map (·.fields)

/-- The offset is the _LO register of a 48-bit counter (R31). -/
def isCtrLo (off : Nat) : Bool := ctrTable.any (fun c => (runIndex c.1 c.2.1 c.2.2 off).isSome)

/-- The offset is the _HI register of a 48-bit counter (R31). -/
def isCtrHi (off : Nat) : Bool := decide (4 ≤ off) && isCtrLo (off - 4)

/-- The _HI register of a pair whose _LO register has no field that a write changes, and is not a counter's (R29, R30). -/
def isRoPairLo (off : Nat) : Bool :=
  off == 0x10008 || off == 0xC0008 || (runIndex 0x60110 0x100 24 off).isSome

/-- The _LO register of a pair that takes effect together (R30): BUF_FLIP_MASK is the one such pair. -/
def isRwPairLo (off : Nat) : Bool := off == 0x30008

/-- The offset is the _LO register of a pair (R29). -/
def isPairLo (off : Nat) : Bool := isCtrLo off || isRoPairLo off || isRwPairLo off

/-- The offset is the _HI register of a pair (R29). -/
def isPairHi (off : Nat) : Bool := decide (4 ≤ off) && isPairLo (off - 4)

/-- A register is defined at the offset (R823). -/
def regDefined (off : Nat) : Bool := (regFields off).isSome || isCtrLo off || isCtrHi off

/-- Words 0 to 14 of the size table at stepping A0 (R47); GENERATION is 0 after reset. -/
def sizeFixed : List Nat :=
  [0x0001_0015, 0, 0x9240_4130, 0x0140_0802, 0x4040_4018, 0x0402_0424, 0x1030_8010, 0x0410_00C0,
   0x1000_1000, 0x0014_4040, 0x07D0_0FA0, 0x00E0_2710, 131072, 0, 0x0040_0040]

/-- The reset value of the register at an offset, from its register table; the size table's fixed words (R47), word 20
with the power limit of R798; HOST_SEGk.TARGET is k (R621). -/
def regReset (off : Nat) : Nat :=
  match runIndex 0x400 4 21 off with
  | some n => if n = 20 then 2800 * 2 ^ 16 else sizeFixed.getD n 0
  | none =>
    match runIndex 0x90100 4 64 off with
    | some k => 2 ^ 31 + k
    | none =>
      match regFields off with
      | some fs => fs.foldl (fun a f => a + f.reset * 2 ^ f.lo) 0
      | none => 0

/-- The encoding v is legal for the field (R13): no range given means every encoding is. -/
def FDef.ok (f : FDef) (v : Nat) : Bool := f.legal.isEmpty || f.legal.any (fun r => decide (r.1 ≤ v ∧ v ≤ r.2))

end Sys2Proof.Machine
end

