-- ==== Sys2Proof/Syntax.lean ====
section
/-! DEFINITION. The commands of the SY9240: one constructor per row of spec/opcode_table.json, with the row's operands.
A row of the instruction set carries the core, the group slot and the 64-bit instruction word (R174).
A mailbox command carries the mailbox; its request words stand in the mailbox's request area (R622).
A register write that has a row of its own carries the value written; an event of the outside world carries what it brings. -/

namespace Sys2Proof

/-- A Fervin flit: the fields of its 16-byte header (R517), and its body bytes (R518, R519).
addr is ADDR_HI:ADDR_LO, the line number DA[47:7]. -/
structure Flit where
  typ : Nat
  lines : Nat
  op : Nat
  dtype : Nat
  retCount : Nat
  seq : Nat
  dest : Nat
  src : Nat
  retVc : Nat
  hchk : Nat
  addr : Nat
  ack : Nat
  tag : Nat
  body : List Byte
  deriving DecidableEq, Repr

/-- The commands of the block, one constructor per row of the table. -/
inductive Instr where
  /-- REGISTER_WRITE (R24). An aligned 32-bit write to a control-space register with no row of its own stores or ignores each field by its type. -/
  | registerWrite (off : Nat) (val : Word)
  /-- READ_LO_LATCH (R29). A read of a _LO register latches the matching _HI word for the next _HI read. -/
  | readLoLatch (off : Nat)
  /-- COUNTER_OVF_CLEAR (R31). Writing 1 to a 48-bit counter's OVF clears the flag and sets the counter to 0. -/
  | counterOvfClear (off : Nat) (val : Word)
  /-- CTRL_ACCESS_ERROR (R26). A control-space access that is not an aligned 32-bit read or write completes with an error and is not applied. -/
  | ctrlAccessError (off : Nat) (size : Nat) (write : Bool)
  /-- UNDEFINED_REG_ACCESS (R823). An access to a control-space address with no defined register completes with an error and makes a KIND 7 record. -/
  | undefinedRegAccess (off : Nat) (write : Bool)
  /-- LTREF_LOCK (R55). The multiplier locks to a present LTREF and LT enters FREQ. -/
  | ltrefLock
  /-- LTREF_LOSS (R55). Loss of LTREF moves a module in SYSTEM to HOLDOVER. -/
  | ltrefLoss
  /-- LTEPOCH_PULSE (R49). An LTEPOCH pulse aligns LT[19:0] by stepping or pausing and may advance the lock to EPOCH. -/
  | ltepochPulse
  /-- EPOCH_BOUNDARY (R65). At LT[19:0] = 0 the housekeeping round snapshots and audits counts, exchanges markers and steps power. -/
  | epochBoundary
  /-- HOLDOVER_EXPIRE (R60). HOLDOVER beyond TT_HOLDOVER.LIMIT epochs moves LT to FREQ or UNLOCKED. -/
  | holdoverExpire
  /-- TT_LOCK_TIMEOUT (R64). TT.LOCK completes with TT_NOLOCK when SYSTEM is not reached within 64 epochs. -/
  | ttLockTimeout
  /-- MARK_REQ_RX (R519). A received MARK_REQ control flit is answered with MARK_REP. -/
  | markReqRx (port : Nat) (sub : Nat)
  /-- MARK_REP_RX (R52). A received MARK_REP supplies timestamps for the offset computation and filter. -/
  | markRepRx (port : Nat) (t2 : Nat) (t3 : Nat) (hops : Nat) (state : Nat) (sub : Nat)
  /-- ROW_ARM (R77). At 4,096 lt before start an occurrence arms, or is skipped when ARM is 0. -/
  | rowArm (row : Nat)
  /-- SLOT_WINDOW_OPEN (R93). A SLOT window opens; Despatch reads the ready word and sends the contribution or void markers. -/
  | slotWindowOpen (row : Nat)
  /-- RECV_WINDOW_OPEN (R544). A RECV window opens and takes EXPECTED source entries from the pool. -/
  | recvWindowOpen (row : Nat)
  /-- EXCHANGE_WINDOW_OPEN (R410). An EXCHANGE window opens and Despatch sends the phase-list entries' slot blocks. -/
  | exchangeWindowOpen (row : Nat)
  /-- REFRESH_WINDOW_OPEN (R445). A REFRESH window opens and the stack controller runs its refresh passes. -/
  | refreshWindowOpen (row : Nat)
  /-- POSSESSION_WINDOW_OPEN (R90). A POSSESSION window opens and calibration runs at the declared reduced rate. -/
  | possessionWindowOpen (row : Nat)
  /-- THROTTLE_WINDOW_OPEN (R792). A THROTTLE window opens and NEXT_STEP and the next limit step take effect. -/
  | throttleWindowOpen (row : Nat)
  /-- JOURNAL_WINDOW_OPEN (R712). A JOURNAL window opens and the dirty pages and control image are sent to the twin. -/
  | journalWindowOpen (row : Nat)
  /-- SIGNAL_ROW_FIRE (R421). A SIGNAL row performs its atomic on the signal word with release. -/
  | signalRowFire (row : Nat)
  /-- MARK_ROW_FIRE (R656). A MARK row writes a time-mark record to the timetable event ring. -/
  | markRowFire (row : Nat)
  /-- ROW_WINDOW_END (R76). An ACTIVE window ends; the row returns to PENDING or retires with its record. -/
  | rowWindowEnd (row : Nat)
  /-- RECV_WINDOW_CLOSE (R74). A RECV window closes, writes its completion record and increments the ready word. -/
  | recvWindowClose (row : Nat)
  /-- LATE_READY_OMIT (R96). A contribution that becomes ready after its void marker under OMIT is counted once in TT_OMIT. -/
  | lateReadyOmit (row : Nat)
  /-- TT_LOCK (R64). Command naming the time root and first epoch and driving the lock to SYSTEM. -/
  | ttLock (m : Nat)
  /-- TT_NOW (R661). Command returning LT and TT_LT_STAT. -/
  | ttNow (m : Nat)
  /-- TT_SCHEDULE (R662). Command building and posting the rows of a collective template. -/
  | ttSchedule (m : Nat)
  /-- TT_POST (R87). Command posting 1 to 16 timetable rows after all checks. -/
  | ttPost (m : Nat)
  /-- TT_CANCEL (R89). Command retiring the row named by a tag. -/
  | ttCancel (m : Nat)
  /-- TT_LIST (R661). Command returning the rows in use with their states. -/
  | ttList (m : Nat)
  /-- TT_ARM (R80). Command setting or clearing TT_CTRL.ARM. -/
  | ttArm (m : Nat)
  /-- BLOCK_PLACE (R107). Mioto places the next block of a launch on the lowest core where it fits. -/
  | blockPlace
  /-- BARRIER_STALL (R122). The barrier watchdog expires and the block ends with BARRIER_STALL. -/
  | barrierStall (core : Nat) (block : Nat)
  /-- L0_LINE_FILL (R136). A line fill returns in beats to the L0 and meets waiting loads. -/
  | l0LineFill (core : Nat) (id : Nat)
  /-- UWAIT_POLL (R223). A suspended UWAIT re-reads its word and wakes with acquire when the condition holds. -/
  | uwaitPoll (core : Nat) (slot : Nat)
  /-- UWAIT_TIMEOUT (R224). A UWAIT time-out sets its predicate to 0 without acquire. -/
  | uwaitTimeout (core : Nat) (slot : Nat)
  /-- L0_INV_ALL_WRITE (R148). Writing CG_L0_INV.ALL invalidates the L0 of every core in service. -/
  | l0InvAllWrite (val : Word)
  /-- DIAG_CORE (R167). Command testing the register file, L0 and accumulators of an out-of-service die. -/
  | diagCore (m : Nat)
  /-- MMA_ARRAY_COMPLETE (R267). An MMA finishes its occupancy of the array and the next queued MMA starts. -/
  | mmaArrayComplete (core : Nat)
  /-- NOP (R188). Instruction that does nothing. -/
  | nop (core : Nat) (slot : Nat) (w : IWord)
  /-- BRA (R211). Branch that is uniform or diverges with reconvergence stack entries. -/
  | bra (core : Nat) (slot : Nat) (w : IWord)
  /-- CALL (R213). Writes the return PC to a u pair and continues at the target. -/
  | call (core : Nat) (slot : Nat) (w : IWord)
  /-- JMP (R213). Continues at the address held in a u register pair. -/
  | jmp (core : Nat) (slot : Nat) (w : IWord)
  /-- EXIT (R214). Ends the acting threads, possibly ending the group, block and launch. -/
  | exit (core : Nat) (slot : Nat) (w : IWord)
  /-- BAR (R214). Barrier instruction on barrier AUX[1:0]. -/
  | bar (core : Nat) (slot : Nat) (w : IWord)
  /-- TRAP (R214). Raises the precise fault TRAP with IMM32 as code. -/
  | trap (core : Nat) (slot : Nat) (w : IWord)
  /-- IADD (R190). 32-bit integer add, optionally saturated. -/
  | iadd (core : Nat) (slot : Nat) (w : IWord)
  /-- ISUB (R190). 32-bit integer subtract, optionally saturated. -/
  | isub (core : Nat) (slot : Nat) (w : IWord)
  /-- IMUL (R190). Low 32 bits of an integer product. -/
  | imul (core : Nat) (slot : Nat) (w : IWord)
  /-- IMULHI (R190). High 32 bits of an integer product. -/
  | imulhi (core : Nat) (slot : Nat) (w : IWord)
  /-- IMAC (R190). Integer multiply-accumulate. -/
  | imac (core : Nat) (slot : Nat) (w : IWord)
  /-- IMIN (R190). Integer minimum, signed or unsigned. -/
  | imin (core : Nat) (slot : Nat) (w : IWord)
  /-- IMAX (R190). Integer maximum, signed or unsigned. -/
  | imax (core : Nat) (slot : Nat) (w : IWord)
  /-- SHL (R190). Shift left. -/
  | shl (core : Nat) (slot : Nat) (w : IWord)
  /-- SHR (R190). Shift right, logical or arithmetic. -/
  | shr (core : Nat) (slot : Nat) (w : IWord)
  /-- AND (R190). Bitwise AND. -/
  | andI (core : Nat) (slot : Nat) (w : IWord)
  /-- OR (R190). Bitwise OR. -/
  | orI (core : Nat) (slot : Nat) (w : IWord)
  /-- XOR (R190). Bitwise XOR. -/
  | xorI (core : Nat) (slot : Nat) (w : IWord)
  /-- PCNT (R190). Population count. -/
  | pcnt (core : Nat) (slot : Nat) (w : IWord)
  /-- CLZ (R190). Count leading zeros. -/
  | clz (core : Nat) (slot : Nat) (w : IWord)
  /-- BEXT (R190). Bit-field extract. -/
  | bext (core : Nat) (slot : Nat) (w : IWord)
  /-- BINS (R190). Bit-field insert. -/
  | bins (core : Nat) (slot : Nat) (w : IWord)
  /-- MOV (R190). Register move. -/
  | mov (core : Nat) (slot : Nat) (w : IWord)
  /-- MOVI (R191). Move of a 32-bit immediate. -/
  | movi (core : Nat) (slot : Nat) (w : IWord)
  /-- SEL (R190). Select by predicate. -/
  | sel (core : Nat) (slot : Nat) (w : IWord)
  /-- BSEL (R190). Byte select from a 64-bit pair. -/
  | bsel (core : Nat) (slot : Nat) (w : IWord)
  /-- XLANE (R193). Cross-thread value exchange. -/
  | xlane (core : Nat) (slot : Nat) (w : IWord)
  /-- RDSP (R194). Reads a special register into a v register. -/
  | rdsp (core : Nat) (slot : Nat) (w : IWord)
  /-- IADD64 (R190). 64-bit integer add on register pairs. -/
  | iadd64 (core : Nat) (slot : Nat) (w : IWord)
  /-- FADD (R195). FP32 add. -/
  | fadd (core : Nat) (slot : Nat) (w : IWord)
  /-- FMUL (R195). FP32 multiply. -/
  | fmul (core : Nat) (slot : Nat) (w : IWord)
  /-- FMAC (R195). FP32 fused multiply-add. -/
  | fmac (core : Nat) (slot : Nat) (w : IWord)
  /-- FMIN (R200). FP32 minimum. -/
  | fmin (core : Nat) (slot : Nat) (w : IWord)
  /-- FMAX (R200). FP32 maximum. -/
  | fmax (core : Nat) (slot : Nat) (w : IWord)
  /-- PKADD (R201). Packed 16-bit float add. -/
  | pkadd (core : Nat) (slot : Nat) (w : IWord)
  /-- PKMUL (R201). Packed 16-bit float multiply. -/
  | pkmul (core : Nat) (slot : Nat) (w : IWord)
  /-- PKMAC (R201). Packed 16-bit float multiply-add. -/
  | pkmac (core : Nat) (slot : Nat) (w : IWord)
  /-- PKMIN (R201). Packed 16-bit float minimum. -/
  | pkmin (core : Nat) (slot : Nat) (w : IWord)
  /-- PKMAX (R201). Packed 16-bit float maximum. -/
  | pkmax (core : Nat) (slot : Nat) (w : IWord)
  /-- CVT (R203). Converts one element between formats. -/
  | cvt (core : Nat) (slot : Nat) (w : IWord)
  /-- RCP (R202). Reciprocal. -/
  | rcp (core : Nat) (slot : Nat) (w : IWord)
  /-- RSQ (R202). Reciprocal square root. -/
  | rsq (core : Nat) (slot : Nat) (w : IWord)
  /-- SQRT (R202). Square root. -/
  | sqrt (core : Nat) (slot : Nat) (w : IWord)
  /-- EXP2 (R202). Base-2 exponential. -/
  | exp2 (core : Nat) (slot : Nat) (w : IWord)
  /-- LOG2 (R202). Base-2 logarithm. -/
  | log2 (core : Nat) (slot : Nat) (w : IWord)
  /-- TANH (R202). Hyperbolic tangent. -/
  | tanh (core : Nat) (slot : Nat) (w : IWord)
  /-- ICMP (R207). Integer compare setting a predicate. -/
  | icmp (core : Nat) (slot : Nat) (w : IWord)
  /-- FCMP (R207). Float compare setting a predicate. -/
  | fcmp (core : Nat) (slot : Nat) (w : IWord)
  /-- PCOMB (R208). Combines two predicates. -/
  | pcomb (core : Nat) (slot : Nat) (w : IWord)
  /-- PGRP (R209). Gathers a predicate over the acting threads. -/
  | pgrp (core : Nat) (slot : Nat) (w : IWord)
  /-- P2V (R210). Copies predicates to a register. -/
  | p2v (core : Nat) (slot : Nat) (w : IWord)
  /-- V2P (R210). Sets predicates from a register. -/
  | v2p (core : Nat) (slot : Nat) (w : IWord)
  /-- UADD (R188). Uniform add. -/
  | uadd (core : Nat) (slot : Nat) (w : IWord)
  /-- USUB (R188). Uniform subtract. -/
  | usub (core : Nat) (slot : Nat) (w : IWord)
  /-- UMUL (R188). Uniform multiply. -/
  | umul (core : Nat) (slot : Nat) (w : IWord)
  /-- UAND (R188). Uniform AND. -/
  | uand (core : Nat) (slot : Nat) (w : IWord)
  /-- UOR (R188). Uniform OR. -/
  | uor (core : Nat) (slot : Nat) (w : IWord)
  /-- UXOR (R188). Uniform XOR. -/
  | uxor (core : Nat) (slot : Nat) (w : IWord)
  /-- USHL (R188). Uniform shift left. -/
  | ushl (core : Nat) (slot : Nat) (w : IWord)
  /-- USHR (R188). Uniform shift right. -/
  | ushr (core : Nat) (slot : Nat) (w : IWord)
  /-- UMOV (R188). Uniform move. -/
  | umov (core : Nat) (slot : Nat) (w : IWord)
  /-- UMOVI (R188). Uniform move of an immediate. -/
  | umovi (core : Nat) (slot : Nat) (w : IWord)
  /-- UADD64 (R188). Uniform 64-bit add. -/
  | uadd64 (core : Nat) (slot : Nat) (w : IWord)
  /-- UCMP (R207). Uniform compare writing every live thread's predicate. -/
  | ucmp (core : Nat) (slot : Nat) (w : IWord)
  /-- URDSP (R194). Reads a special register into a u register. -/
  | urdsp (core : Nat) (slot : Nat) (w : IWord)
  /-- LD (R215). Load per thread. -/
  | ld (core : Nat) (slot : Nat) (w : IWord)
  /-- ST (R215). Store per thread. -/
  | st (core : Nat) (slot : Nat) (w : IWord)
  /-- FENCE (R222). Fence at a scope. -/
  | fence (core : Nat) (slot : Nat) (w : IWord)
  /-- L0INV (R222). Invalidate-all of the core's L0. -/
  | l0inv (core : Nat) (slot : Nat) (w : IWord)
  /-- ULD (R221). Uniform load into u registers. -/
  | uld (core : Nat) (slot : Nat) (w : IWord)
  /-- UWAIT (R223). Suspends the group until a buffer word reaches a value. -/
  | uwait (core : Nat) (slot : Nat) (w : IWord)
  /-- ATOM_ADD (R225). Atomic integer add. -/
  | atomAdd (core : Nat) (slot : Nat) (w : IWord)
  /-- ATOM_FADD (R225). Atomic FP32 add. -/
  | atomFadd (core : Nat) (slot : Nat) (w : IWord)
  /-- ATOM_SMIN (R225). Atomic signed minimum. -/
  | atomSmin (core : Nat) (slot : Nat) (w : IWord)
  /-- ATOM_SMAX (R225). Atomic signed maximum. -/
  | atomSmax (core : Nat) (slot : Nat) (w : IWord)
  /-- ATOM_UMIN (R225). Atomic unsigned minimum. -/
  | atomUmin (core : Nat) (slot : Nat) (w : IWord)
  /-- ATOM_UMAX (R225). Atomic unsigned maximum. -/
  | atomUmax (core : Nat) (slot : Nat) (w : IWord)
  /-- ATOM_AND (R225). Atomic AND. -/
  | atomAnd (core : Nat) (slot : Nat) (w : IWord)
  /-- ATOM_OR (R225). Atomic OR. -/
  | atomOr (core : Nat) (slot : Nat) (w : IWord)
  /-- ATOM_XOR (R225). Atomic XOR. -/
  | atomXor (core : Nat) (slot : Nat) (w : IWord)
  /-- ATOM_EXCH (R225). Atomic exchange. -/
  | atomExch (core : Nat) (slot : Nat) (w : IWord)
  /-- ATOM_CAS (R225). Atomic compare-and-swap. -/
  | atomCas (core : Nat) (slot : Nat) (w : IWord)
  /-- SIG (R227). Group atomic on a signal word with release that wakes the evaluator. -/
  | sig (core : Nat) (slot : Nat) (w : IWord)
  /-- MMA (R241). Matrix multiply-accumulate into an accumulator tile. -/
  | mma (core : Nat) (slot : Nat) (w : IWord)
  /-- TZERO (R231). Sets a tile to zero. -/
  | tzero (core : Nat) (slot : Nat) (w : IWord)
  /-- TRD (R231). Copies a tile into 16 registers. -/
  | trd (core : Nat) (slot : Nat) (w : IWord)
  /-- TWR (R231). Copies 16 registers into a tile. -/
  | twr (core : Nat) (slot : Nat) (w : IWord)
  /-- TST (R232). Stores a tile to memory. -/
  | tst (core : Nat) (slot : Nat) (w : IWord)
  /-- SLICE_READ (R280). A slice serves a line read, correcting and delivering it. -/
  | sliceRead (g : Nat)
  /-- SLICE_WRITE (R282). A slice performs a full-line write and acknowledges it. -/
  | sliceWrite (g : Nat)
  /-- SLICE_PARTIAL_WRITE (R317). A slice merges a partial write by locked read-modify-write. -/
  | slicePartialWrite (g : Nat)
  /-- COLLECT_ATOMIC (R308). A Collect unit performs an atomic as a locked read-modify-write. -/
  | collectAtomic (g : Nat)
  /-- COLLECT_REDUCE (R310). A Collect unit combines an arriving line into the stored line. -/
  | collectReduce (g : Nat)
  /-- SLICE_CLASS_D_PROMOTE (R279). A class D request that has waited long enough is served as class C. -/
  | sliceClassDPromote (g : Nat) (id : Nat)
  /-- CACHE_FILL_RETURN (R293). A cache-region fill returns from HBM and is allocated or fails the request. -/
  | cacheFillReturn (id : Nat)
  /-- EVICTION_WRITEBACK (R294). The eviction buffer writes a dirty line back to HBM. -/
  | evictionWriteback (half : Nat)
  /-- EVICTION_ROOM_RESUME (R295). A fill waiting for eviction-buffer room proceeds. -/
  | evictionRoomResume (half : Nat)
  /-- SIDING_DRAIN (R305). Parked lines drain to their home once its path accepts writes. -/
  | sidingDrain (half : Nat)
  /-- SIDING_ROOM_RESUME (R306). A writer waiting on a full siding proceeds. -/
  | sidingRoomResume (half : Nat)
  /-- BUF_SCRUB_LINE (R322). A running buffer scrub reads and corrects its next line. -/
  | bufScrubLine (half : Nat)
  /-- BUF_CTRL_FLUSH (R326). Writing BUF_CTRL.FLUSH starts a flush of a region slot. -/
  | bufCtrlFlush (val : Word)
  /-- BUF_REGION (R301). Command creating or removing a cache region. -/
  | bufRegion (m : Nat)
  /-- BUF_FLUSH (R663). Command writing back a region's dirty lines. -/
  | bufFlush (m : Nat)
  /-- BUF_SCRUB (R324). Command scrubbing a buffer range. -/
  | bufScrub (m : Nat)
  /-- BUF_CLEAR (R663). Command writing zero to a buffer range. -/
  | bufClear (m : Nat)
  /-- BUF_FLIP (R321). Command injecting a flip into a buffer line. -/
  | bufFlip (m : Nat)
  /-- CON_DESCRIPTOR_ACCEPT (R336). The consist accepts and checks a ring descriptor. -/
  | conDescriptorAccept (ring : Nat)
  /-- CON_WAIT_POLL (R337). Fetch reads a descriptor's wait word and starts it when the condition holds. -/
  | conWaitPoll (die : Nat) (id : Nat)
  /-- CON_WAIT_TIMEOUT (R338). A descriptor's wait limit expires and it completes with CON_TIMEOUT. -/
  | conWaitTimeout (die : Nat) (id : Nat)
  /-- FETCH_WAGON_START (R348). Fetch creates a wagon and issues its source reads under tablets. -/
  | fetchWagonStart (die : Nat)
  /-- FETCH_LINE_RETURN (R350). A source line returns to Fetch and is checked. -/
  | fetchLineReturn (die : Nat) (id : Nat)
  /-- EXPAND_WAGON (R360). An Expand engine parses and expands a wagon's record. -/
  | expandWagon (die : Nat) (engine : Nat)
  /-- EXPAND_HAND (R366). Stage grants an Expand-to-Stage tablet and the engine hands its wagon on. -/
  | expandHand (die : Nat) (engine : Nat)
  /-- STAGE_WAGON_WRITE (R367). Stage writes a wagon's lines, ORs and reduce operations to the slices. -/
  | stageWagonWrite (die : Nat) (wagon : Nat)
  /-- STAGE_WAGON_RETIRE (R372). Every write of a wagon is acknowledged and Stage retires it. -/
  | stageWagonRetire (die : Nat) (wagon : Nat)
  /-- DESPATCH_WAGON (R375). Despatch reads and sends one 32-line wagon of a window over its ports. -/
  | despatchWagon (row : Nat) (die : Nat)
  /-- CONSIST_RECLAIM_DONE (R382). In-flight units drain and a hand-off's tablets are reset to their total. -/
  | consistReclaimDone (die : Nat) (handoff : Nat)
  /-- REGULATOR_REFILL (R385). Every 1,024 BCLK a regulator gains credits and held requests may proceed. -/
  | regulatorRefill (k : Nat)
  /-- CON_RESET_WRITE (R389). Writing a CON_RESET stage bit resets that stage and reclaims. -/
  | conResetWrite (val : Word)
  /-- CON_RUN (R347). Command submitting one consist descriptor and returning its record. -/
  | conRun (m : Nat)
  /-- CON_REGULATE (R388). Command binding a regulator to a master. -/
  | conRegulate (m : Nat)
  /-- CON_RESET (R663). Command resetting a consist stage of a base die. -/
  | conReset (m : Nat)
  /-- PTS_JOB_ACCEPT (R397). A points engine takes and checks a job from its ring. -/
  | ptsJobAccept (engine : Nat)
  /-- PTS_WAIT_POLL (R398). A points engine reads a job's wait word and starts it when it holds. -/
  | ptsWaitPoll (engine : Nat)
  /-- PTS_WAIT_TIMEOUT (R398). A job's wait limit expires and it completes with PTS_TIMEOUT. -/
  | ptsWaitTimeout (engine : Nat)
  /-- ROUTE_JOB_RUN (R400). A route job fills capacity slots and queues from selection records. -/
  | routeJobRun (engine : Nat)
  /-- TALLY_JOB_RUN (R413). A tally job sums the FILL of fresh headers per local expert. -/
  | tallyJobRun (engine : Nat)
  /-- PTS_JOB_COMPLETE (R407). All writes of a job are acknowledged; done word and record are written. -/
  | ptsJobComplete (engine : Nat)
  /-- GATE_POLL (R417). The evaluator reads a waiting gate's word and releases the launch when it holds. -/
  | gatePoll (id : Nat)
  /-- GATE_TIMEOUT (R420). A gate's limit expires and the launch completes GATE_TIMEOUT. -/
  | gateTimeout (id : Nat)
  /-- PTS_TBL_DATA_WRITE (R426). A write to PTS_TBL_DATA stores an entry in both engines and increments INDEX. -/
  | ptsTblDataWrite (val : Word)
  /-- PTS_RESET_WRITE (R425). Writing a PTS_RESET bit resets that engine. -/
  | ptsResetWrite (val : Word)
  /-- PTS_TABLE (R394). Command writing a run of expert-table entries. -/
  | ptsTable (m : Nat)
  /-- PTS_ROUTE (R399). Command submitting a route job. -/
  | ptsRoute (m : Nat)
  /-- PTS_TALLY (R398). Command submitting a tally job. -/
  | ptsTally (m : Nat)
  /-- PTS_RESET (R425). Command aborting an engine's job and clearing its counts. -/
  | ptsReset (m : Nat)
  /-- HBM_READ (R439). A stack controller reads and decodes a line. -/
  | hbmRead (stack : Nat)
  /-- HBM_WRITE (R434). A stack controller accepts a full-line write into its write queue. -/
  | hbmWrite (stack : Nat)
  /-- HBM_PARTIAL_WRITE (R436). A stack controller merges a partial write by locked read-modify-write. -/
  | hbmPartialWrite (stack : Nat)
  /-- HBM_CLASS_D_PROMOTE (R431). A class D stack request that has waited long enough is served as class C. -/
  | hbmClassDPromote (stack : Nat) (id : Nat)
  /-- REFRESH_TIMER (R447). Without a REFRESH occurrence the controller refreshes on its own timer. -/
  | refreshTimer (stack : Nat)
  /-- HBM_TRAINING_FINISH (R450). A pseudo-channel's training finishes and its new timing takes effect. -/
  | hbmTrainingFinish (stack : Nat) (pass : Bool) (setting : Nat)
  /-- HBM_TEMP_READ (R451). Each 16,384 lt the controller reads its stack temperature. -/
  | hbmTempRead (stack : Nat) (temp : Nat)
  /-- HBM_SCRUB_LINE (R457). A running HBM scrub reads and corrects its next line. -/
  | hbmScrubLine (stack : Nat)
  /-- HBM_OOS_WRITE (R463). Writing HBMs_CTRL.OOS takes a stack out of service or returns it. -/
  | hbmOosWrite (stack : Nat) (val : Word)
  /-- HBM_DRAIN_DONE (R463). A stack leaving service has drained and enters self-refresh. -/
  | hbmDrainDone (stack : Nat)
  /-- HBM_SERVICE (R462). Command taking a stack out of service or into service. -/
  | hbmService (m : Nat)
  /-- HBM_THROTTLE (R456). Command setting a stack's FORCE_LEVEL. -/
  | hbmThrottle (m : Nat)
  /-- HBM_SCRUB (R458). Command scrubbing a range of one stack. -/
  | hbmScrub (m : Nat)
  /-- HBM_FLIP (R469). Command injecting a flip into an HBM line. -/
  | hbmFlip (m : Nat)
  /-- HBM_STATUS (R470). Command returning a stack's status snapshot. -/
  | hbmStatus (m : Nat)
  /-- DIAG_HBM (R467). Command running an array test on an out-of-service stack. -/
  | diagHbm (m : Nat)
  /-- LANE_SIGNAL_DETECT (R484). Signal energy for 1,000 lt moves a lane from SIGNAL to CDR. -/
  | laneSignalDetect (port : Nat) (lane : Nat)
  /-- LANE_CDR_LOCK (R484). A lane's clock recovery locks and it enters FRAME. -/
  | laneCdrLock (port : Nat) (lane : Nat)
  /-- LANE_FRAME_LOCK (R476). A lane finds four spaced commas and aligns, entering ADAPT. -/
  | laneFrameLock (port : Nat) (lane : Nat) (skew : Nat) (field : Nat)
  /-- LANE_ADAPT_PASS (R485). A lane passes adaptation at its rate and becomes READY. -/
  | laneAdaptPass (port : Nat) (lane : Nat) (corrected : Nat) (uncorr : Nat)
  /-- LANE_ADAPT_TIMEOUT (R486). The rate's bring-up limit expires and the lane is FAILED at that rate. -/
  | laneAdaptTimeout (port : Nat) (lane : Nat)
  /-- LANE_RATE_STEP (R489). After 16 frames of RATE_REQ both ends step rate or settle the final rate. -/
  | laneRateStep (port : Nat) (farOk : Nat) (farReq : Nat) (farMax : Nat)
  /-- PORT_BRINGUP_TIMEOUT (R490). No lane passes at 28 Gb/s within 100 ms and the port stays down. -/
  | portBringupTimeout (port : Nat)
  /-- LANE_FRAME_RECEIVE (R482). A lane receives a frame, checks its header and decodes its codewords. -/
  | laneFrameReceive (port : Nat) (lane : Nat) (hdr : Word) (errs : List Nat) (msg : List Byte)
  /-- LANE_FAIL (R500). A lane in use fails and the port narrows. -/
  | laneFail (port : Nat) (lane : Nat) (cause : Nat)
  /-- EYE_START_WRITE (R495). Writing LNKp_EYE_CTRL.START measures one eye point or is refused. -/
  | eyeStartWrite (port : Nat) (val : Word)
  /-- EYE_POINT_DONE (R495). An eye point's measurement completes and DONE is set. -/
  | eyePointDone (port : Nat) (errs : List Nat)
  /-- FAR_LOOP_EXIT (R497). A far end leaves its loop after 16 frame times without LOOP_REQ. -/
  | farLoopExit (port : Nat)
  /-- LANE_EN_WRITE (R505). Writing LANE_EN drops or restores lanes. -/
  | laneEnWrite (port : Nat) (val : Word)
  /-- LOOP_SELECT_WRITE (R499). Writing LNKp_CFG.LOOP selects a loop test on a port. -/
  | loopSelectWrite (port : Nat) (val : Word)
  /-- LNK_OOS_WRITE (R508). Writing LNKp_CFG.OOS takes a port out of service or brings it up. -/
  | lnkOosWrite (port : Nat) (val : Word)
  /-- LNK_EYE (R493). Command scanning the eyes of a port's lanes. -/
  | lnkEye (m : Nat)
  /-- LNK_LOOP (R499). Command running a loop test on an out-of-service port. -/
  | lnkLoop (m : Nat)
  /-- LNK_LANE (R505). Command restoring dropped lanes of a port. -/
  | lnkLane (m : Nat)
  /-- LNK_SERVICE (R507). Command taking a port out of service or into service. -/
  | lnkService (m : Nat)
  /-- LNK_STATUS (R506). Command returning a port's status snapshot. -/
  | lnkStatus (m : Nat)
  /-- LNK_TOPO (R553). Command setting the topology and station number. -/
  | lnkTopo (m : Nat)
  /-- FLIT_DATA_WRITE_RX (R543). A DATA write flit arrives and its lines are written into an open RECV window. -/
  | flitDataWriteRx (port : Nat) (f : Flit)
  /-- FLIT_DATA_REDUCE_RX (R543). A DATA reduce flit arrives and its lines are reduced at the slices. -/
  | flitDataReduceRx (port : Nat) (f : Flit)
  /-- VOID_MARKER_RX (R543). A void marker arrives and is recorded by the RECV window holding its address. -/
  | voidMarkerRx (port : Nat) (f : Flit)
  /-- REQ_READ_RX (R536). A peer read request arrives and is served at its home. -/
  | reqReadRx (port : Nat) (f : Flit)
  /-- REQ_WRITE_RX (R538). A peer write request arrives and is acknowledged after its home. -/
  | reqWriteRx (port : Nat) (f : Flit)
  /-- REQ_MASKED_WRITE_RX (R518). A peer masked-write request arrives and is merged at its home. -/
  | reqMaskedWriteRx (port : Nat) (f : Flit)
  /-- REQ_ATOMIC_RX (R538). A peer atomic request arrives and is performed by Collect. -/
  | reqAtomicRx (port : Nat) (f : Flit)
  /-- RESP_READ_DATA_RX (R539). Read data returns from a station peer to its requester. -/
  | respReadDataRx (port : Nat) (f : Flit)
  /-- RESP_WRITE_ACK_RX (R538). A write acknowledgement returns from a peer. -/
  | respWriteAckRx (port : Nat) (f : Flit)
  /-- RESP_ATOMIC_RESULT_RX (R538). An atomic result returns from a peer. -/
  | respAtomicResultRx (port : Nat) (f : Flit)
  /-- RESP_ERROR_RX (R539). An error response returns and the requester reports MEMORY_ERROR. -/
  | respErrorRx (port : Nat) (f : Flit)
  /-- IDLE_RX (R522). An IDLE flit arrives carrying tablet returns and acknowledgements. -/
  | idleRx (port : Nat) (f : Flit)
  /-- NAK_RX (R527). A NAK arrives and the sender replays from the expected SEQ. -/
  | nakRx (port : Nat) (f : Flit)
  /-- AUDIT_RX (R533). An AUDIT flit arrives and the receiver checks the tablet counts. -/
  | auditRx (port : Nat) (f : Flit)
  /-- RECLAIM_REQ_RX (R535). A RECLAIM_REQ arrives and is answered with free entries per VC. -/
  | reclaimReqRx (port : Nat) (f : Flit)
  /-- RECLAIM_REP_RX (R535). A RECLAIM_REP arrives and the link's tablets are reset. -/
  | reclaimRepRx (port : Nat) (f : Flit)
  /-- IDENT_RX (R530). An IDENT arrives in EXCHANGE and the wiring is checked. -/
  | identRx (port : Nat) (f : Flit)
  /-- DEPART_RX (R532). A DEPART arrives and the link enters DRAIN. -/
  | departRx (port : Nat) (f : Flit)
  /-- ROUTED_RX (R540). A ROUTED flit arrives and is delivered or forwarded. -/
  | routedRx (port : Nat) (f : Flit)
  /-- REPLAY_TIMEOUT (R527). No ACK advance for 64 frame times triggers resend from the oldest flit. -/
  | replayTimeout (port : Nat)
  /-- NAK_REPEAT (R527). Every 4 frame times a NAK is repeated until the SEQ arrives. -/
  | nakRepeat (port : Nat)
  /-- LINK_LOCK_TIMEOUT (R529). A link in LOCK for 1 ms without 16 good frames goes DOWN. -/
  | linkLockTimeout (port : Nat)
  /-- LINK_DRAIN_END (R529). A draining link finishes or times out and goes DOWN. -/
  | linkDrainEnd (port : Nat)
  /-- LINK_RECLAIM_WRITE (R535). Writing LNKp_LINK_CTRL.RECLAIM reclaims the link's tablets. -/
  | linkReclaimWrite (port : Nat) (val : Word)
  /-- LINK_RETRAIN_WRITE (R531). Writing LNKp_LINK_CTRL.RETRAIN returns an ACTIVE link to TRAIN. -/
  | linkRetrainWrite (port : Nat) (val : Word)
  /-- D2D_RECLAIM_DONE (R559). A die-link or coupler channel's tablets are reclaimed after draining. -/
  | d2dReclaimDone (unit : Nat)
  /-- LANE_CHECK_TURN (R571). A lane-check possession switches to its next turn. -/
  | laneCheckTurn (unit : Nat) (fails : List (Nat × Nat × Nat))
  /-- CLOCK_LOSS (R577). A monitored clock is found absent or off frequency. -/
  | clockLoss (clock : Nat)
  /-- COMPUTE_DIE_LOST (R578). A compute die is lost and its base die fences its channels. -/
  | computeDieLost (die : Nat) (cause : Nat)
  /-- DIE_FENCE_COMPLETE (R578). The lost die's tablets are reclaimed and the siding drains. -/
  | dieFenceComplete (die : Nat)
  /-- ROLE_FATAL (R579). A base-die reset or clock loss stops every transmitter. -/
  | roleFatal (base : Nat) (kind : Nat)
  /-- D2D_MAP_DATA_ACCESS (R583). Reading or writing D2D_MAP_DATA accesses a saved entry and increments INDEX. -/
  | d2dMapDataAccess (write : Bool) (val : Word)
  /-- D2D_DIE (R581). Command taking a compute die out of or into service. -/
  | d2dDie (m : Nat)
  /-- D2D_CHECK (R581). Command running a one-shot lane check of a die or the coupler. -/
  | d2dCheck (m : Nat)
  /-- D2D_MAP (R581). Command reading lane-map entries. -/
  | d2dMap (m : Nat)
  /-- D2D_STATUS (R581). Command returning the die-link status registers. -/
  | d2dStatus (m : Nat)
  /-- DIAG_D2D (R582). Command testing every lane of an out-of-service die's links. -/
  | diagD2d (m : Nat)
  /-- HOST_MEM_READ (R591). A CXL.mem read through the window. -/
  | hostMemRead (off : Nat)
  /-- HOST_MEM_WRITE (R611). A CXL.mem write through the window, completed after its home. -/
  | hostMemWrite (off : Nat) (data : List Byte) (mask : List Bool)
  /-- HOST_IO_READ (R610). A CXL.io BAR2 read through the window. -/
  | hostIoRead (path : Nat) (off : Nat) (len : Nat)
  /-- HOST_IO_WRITE (R609). A posted CXL.io BAR2 write through the window. -/
  | hostIoWrite (path : Nat) (off : Nat) (data : List Byte) (relaxed : Bool)
  /-- HOST_ATOMICOP (R596). A host AtomicOp performed by Collect or refused. -/
  | hostAtomicop (path : Nat) (off : Nat) (op : Nat) (size : Nat) (val : BitVec 64) (cmp : BitVec 64)
  /-- BIAS_RECALL_RESPONSE (R598). The host answers a recall; a flip to DEVICE completes when all are answered. -/
  | biasRecallResponse (granule : Nat) (line : Nat) (dirty : Bool) (data : List Byte)
  /-- BIAS_FLIP_HOST_COMPLETE (R599). Device writes to a granule are acknowledged and it flips to HOST bias. -/
  | biasFlipHostComplete (granule : Nat)
  /-- BIAS_DWELL_EXPIRE (R601). The dwell after a flip ends and a waiting opposite flip proceeds. -/
  | biasDwellExpire (granule : Nat)
  /-- READAHEAD_EXPIRE (R604). A read-ahead entry reaches 2,048 lt and is removed. -/
  | readaheadExpire (path : Nat) (line : Nat)
  /-- HOST_READAHEAD_WRITE (R604). Writing HOST_CTRL.READAHEAD 0 empties both read-ahead buffers. -/
  | hostReadaheadWrite (val : Word)
  /-- HOST_BIAS_DATA_ACCESS (R621). Accessing HOST_BIAS_DATA sets bias without recall and increments WORD. -/
  | hostBiasDataAccess (write : Bool) (val : Word)
  /-- HOST_DOORBELL_WRITE (R613). A doorbell write sets a new target for a submission ring's reader. -/
  | hostDoorbellWrite (n : Nat) (val : Word)
  /-- EVENT_RING_DOORBELL (R642). A doorbell write to an event ring moves its consumed mark. -/
  | eventRingDoorbell (n : Nat) (val : Word)
  /-- RING_ENTRY_REREAD (R614). The ring reader re-reads a stale entry and accepts it when valid. -/
  | ringEntryReread (n : Nat)
  /-- DOORBELL_AHEAD (R614). An entry stale for 64,000 lt posts DOORBELL_AHEAD and reading stops. -/
  | doorbellAhead (n : Nat)
  /-- H0_LINK_DOWN (R617). H0's data link leaves the active state and the hold-off starts. -/
  | h0LinkDown
  /-- H0_HOLDOFF_EXPIRE (R618). The hold-off ends without the link; the module departs and warm-starts. -/
  | h0HoldoffExpire
  /-- H0_HOT_RESET (R619). A hot reset on H0 departs and warm-starts the module. -/
  | h0HotReset
  /-- H1_LINK_LOSS (R620). Loss or hot reset of H1 ends its requests and sets H1_LOST. -/
  | h1LinkLoss
  /-- H0_PERST_RELEASE (R808). Release of H0_PERST_N starts a warm start. -/
  | h0PerstRelease
  /-- H1_PERST (R808). H1_PERST_N resets H1's function only. -/
  | h1Perst
  /-- MSIX_GAP_EXPIRE (R658). A vector's message gap ends and a pending message is sent. -/
  | msixGapExpire (vector : Nat)
  /-- HOST_WINDOW (R595). Command mapping or unmapping a window segment. -/
  | hostWindow (m : Nat)
  /-- HOST_BIAS (R603). Command setting the bias of a run of granules. -/
  | hostBias (m : Nat)
  /-- HOST_POLICY (R621). Command writing the HOST_CTRL image. -/
  | hostPolicy (m : Nat)
  /-- MAILBOX_GO (R623). Writing MBm_CTRL.GO issues the command in the request area. -/
  | mailboxGo (m : Nat) (val : Word)
  /-- COMMAND_WAIT_RESUME (R632). A command waiting on a conflicting one starts and makes its checks. -/
  | commandWaitResume (m : Nat)
  /-- LAUNCH_ACCEPT (R648). Mioto accepts and checks a launch descriptor. -/
  | launchAccept (ring : Nat)
  /-- SYS_SIZE (R43). Command returning the size table. -/
  | sysSize (m : Nat)
  /-- SYS_IDENT (R660). Command returning identity. -/
  | sysIdent (m : Nat)
  /-- SYS_STATE (R660). Command returning module state. -/
  | sysState (m : Nat)
  /-- SYS_RING (R646). Command creating or freeing a ring. -/
  | sysRing (m : Nat)
  /-- SYS_ABORT (R655). Command ending active launches of a ring. -/
  | sysAbort (m : Nat)
  /-- SYS_RESET (R660). Command starting a warm or cold start. -/
  | sysReset (m : Nat)
  /-- VIN48_RISE (R665). VIN48 rises into range and power-good starts a cold start. -/
  | vin48Rise (mv : Nat)
  /-- MOD_RST_RELEASE (R807). Release of MOD_RST_N after at least 10 µs starts a cold start. -/
  | modRstRelease
  /-- MIOTO_WATCHDOG_EXPIRE (R669). The Mioto watchdog expires and a warm start begins. -/
  | miotoWatchdogExpire
  /-- START_READY (R679). Steps 10 to 14 end and Mioto sets STATE READY. -/
  | startReady (stk : Nat) (ports : Nat) (dies : Nat)
  /-- BOOT_THERMAL_RECHECK (R783). The boot ROM re-reads sensors every 1 ms until estimates allow proceeding. -/
  | bootThermalRecheck (temps : List Nat) (powers : List Nat)
  /-- SEC_MEASURE (R692). Command returning the boot measurement state. -/
  | secMeasure (m : Nat)
  /-- SEC_ATTEST (R694). Command returning a signed report or certificate piece. -/
  | secAttest (m : Nat)
  /-- SEC_UPDATE (R697). Command writing, committing or reverting a firmware bank. -/
  | secUpdate (m : Nat)
  /-- HEARTBEAT_RX (R720). A twin HEARTBEAT arrives on a twin port. -/
  | heartbeatRx (port : Nat) (f : Flit)
  /-- JEND_RX (R712). A JEND arrives and the keeper answers JACK once lines are acknowledged. -/
  | jendRx (port : Nat) (f : Flit)
  /-- JACK_RX (R712). A JACK for a complete occurrence advances J. -/
  | jackRx (port : Nat) (f : Flit)
  /-- PAIR_RX (R729). A PAIR message arrives during pairing. -/
  | pairRx (port : Nat) (f : Flit)
  /-- UNPAIR_RX (R730). An UNPAIR arrives and the module becomes UNPAIRED. -/
  | unpairRx (port : Nat) (f : Flit)
  /-- REGION_RX (R718). A REGION exchange message arrives and is accepted or refused. -/
  | regionRx (port : Nat) (f : Flit)
  /-- TWIN_HB_RX (R717). A routed TWIN_HB arrives from the twin. -/
  | twinHbRx (port : Nat) (f : Flit)
  /-- TWIN_TAKE_RX (R726). A TWIN_TAKE arrives and the alias table records the holder. -/
  | twinTakeRx (port : Nat) (f : Flit)
  /-- TWIN_RELEASE_RX (R732). A TWIN_RELEASE arrives and the alias entry clears. -/
  | twinReleaseRx (port : Nat) (f : Flit)
  /-- TWIN_HANDOVER_PROCEED (R731). Work drains and a JACK arrives, so the handover sends DEPART and releases. -/
  | twinHandoverProceed
  /-- TWIN_ALIAS_DATA_READ (R739). Reading TWIN_ALIAS_DATA returns an alias entry and increments ROLE. -/
  | twinAliasDataRead
  /-- TWIN_PAIR (R729). Command pairing with the twin. -/
  | twinPair (m : Nat)
  /-- TWIN_DETACH (R730). Command unpairing, handing over, returning or taking a role. -/
  | twinDetach (m : Nat)
  /-- TWIN_PROTECT (R708). Command setting or clearing a protected region. -/
  | twinProtect (m : Nat)
  /-- TWIN_STATUS (R736). Command returning the twinning snapshot. -/
  | twinStatus (m : Nat)
  /-- TWIN_POLICY (R829). Command writing the TWIN_CTRL image. -/
  | twinPolicy (m : Nat)
  /-- POWER_SAMPLE (R777). Every 1,024 lt VIN48 voltage and current are sampled. -/
  | powerSample (mv : Nat) (ma : Nat)
  /-- THERMAL_SAMPLE (R778). Every 16,384 lt the thermal model computes junction estimates. -/
  | thermalSample (temps : List Nat) (powers : List Nat)
  /-- THROTTLE_TIMER (R793). Without a THROTTLE occurrence the power controller steps on its own timer. -/
  | throttleTimer
  /-- RAIL_FAULT (R775). A rail leaves ±5 % for 1 µs. -/
  | railFault (rail : Nat)
  /-- CONVERTER_FAIL (R776). A VBUS converter fails and the limit is capped. -/
  | converterFail (n : Nat)
  /-- VIN48_UNDERVOLT (R773). VIN48 below 38 V for 10 µs sends DEPART and turns rails off. -/
  | vin48Undervolt
  /-- VIN48_OVERVOLT (R773). VIN48 above 62 V turns the converters off at once. -/
  | vin48Overvolt
  /-- PWR_LIMIT (R796). Command setting the power target, floor and force. -/
  | pwrLimit (m : Nat)
  /-- PWR_STATUS (R796). Command returning the power status snapshot. -/
  | pwrStatus (m : Nat)
  /-- SMB_READ (R811). A management-bus Read Byte or Read Word returns a responder register. -/
  | smbRead (addr : Nat) (off : Nat) (word : Bool)
  /-- SMB_WRITE (R811). A management-bus write is acknowledged and ignored. -/
  | smbWrite (addr : Nat) (off : Nat) (val : Nat)
  /-- SMB_ALERT_RESPONSE (R813). The responder answers the alert response address. -/
  | smbAlertResponse
  /-- JTAG_BYPASS (R814). Test-port BYPASS instruction. -/
  | jtagBypass (bits : List Bool)
  /-- JTAG_IDCODE (R814). Test-port IDCODE instruction. -/
  | jtagIdcode
  /-- JTAG_SAMPLE (R814). Test-port SAMPLE instruction. -/
  | jtagSample (pins : List Bool)
  /-- JTAG_EXTEST (R814). Test-port EXTEST instruction while MOD_RST_N is low. -/
  | jtagExtest (pins : List Bool)
  /-- JTAG_FLASH_PROG (R815). Test-port FLASH_PROG writes an image bank while READY is 0. -/
  | jtagFlashProg (bank : Nat) (off : Nat) (data : List Byte)
  /-- H0_LINK_UP (R617). H0's data link reaches the active state, after training or by returning within the hold-off, which sets H0_LOST and posts a HOST_LINK notice. -/
  | h0LinkUp (speed : Nat) (width : Nat)
  /-- H0_PERST_ASSERT (R808). H0_PERST_N goes low and H0 is held in reset until its release. -/
  | h0PerstAssert
  /-- MOD_RST_ASSERT (R807). MOD_RST_N is held low for 10 µs and the module is held in reset, or a running cold start restarts. -/
  | modRstAssert (dur : Nat)
  /-- LTEPOCH_LOSS (R688). An expected LTEPOCH pulse does not arrive, LTEPOCH_OK falls to 0, and R60 then governs HOLDOVER. -/
  | ltepochLoss
  /-- PORT_FRAME_SEND (R523). At each frame time a port transmits a frame, choosing the next flits by priority, carrying RET_COUNT and ACK, sending IDLE, and sending IDENT every 16 frame times in EXCHANGE. -/
  | portFrameSend (port : Nat)
  /-- CXL_CACHE_SNOOP (R584). A CXL.cache snoop from the host on H0 is answered as a miss. -/
  | cxlCacheSnoop (line : Nat)
  /-- TWIN_PAIR_TIMEOUT (R729). No PAIR naming this module arrives within 10 s and TWIN.PAIR completes with TWIN_NOFAR. -/
  | twinPairTimeout
  /-- LOOP_TEST_END (R498). A loop test's time 2^TIME_LOG2 lt, or its 1 ms lock limit for LOOP 3, expires and LNK.LOOP completes with its counts or LNK_NOFAR. -/
  | loopTestEnd (port : Nat) (locked : Nat) (errs : List Nat) (compared : Nat) (uncorr : Nat)
  /-- CODE_CACHE_FILL (R173). An instruction fetch that missed in the die's code cache returns its line, and the line is checked and delivered or the group raises INSTR_FETCH. -/
  | codeCacheFill (core : Nat) (slot : Nat)
  /-- HBM_ARRAY_TEST_END (R467). A DIAG.HBM march, pin-pattern or retention test finishes, TEST_BUSY clears and the command returns its result. -/
  | hbmArrayTestEnd (stack : Nat) (banks : Nat) (pcs : Nat) (first : Nat)
  /-- CORE_TEST_END (R167). A DIAG.CORE test of a die's register files, L0 and accumulators finishes and the command returns its result. -/
  | coreTestEnd (die : Nat) (units : Nat) (failed : Nat) (first : Nat)
  /-- D2D_TEST_END (R582). A DIAG.D2D loop test of a die's links finishes and returns its failing lanes. -/
  | d2dTestEnd (die : Nat) (fails : List (Nat × Nat × Nat))
  /-- HBM_RETURN_DONE (R464). A stack returning to service finishes its full training and any clearing, and its rows and HS_IN_SERVICE bit are set or HBM_TRAIN is reported. -/
  | hbmReturnDone (stack : Nat) (pass : Bool)
  /-- BUF_CLEAR_DONE (R663). The zero writes of BUF.CLEAR over its range finish and the command completes with ELAPSED. -/
  | bufClearDone (half : Nat)
  /-- FLASH_PROGRAM_DONE (R697). Flash erase, programming and read-back of a SEC.UPDATE WRITE finish, the measurement is compared and PENDING is set or SEC_FLASH is reported. -/
  | flashProgramDone (ok : Bool)
  deriving DecidableEq, Repr

end Sys2Proof
end

