-- ==== Sys2Proof/Machine/State.lean ====
section
/-! DEFINITION. The state of the SY9240: everything the spec gives the module, as plain data, and the queue of waiting commands. -/

namespace Sys2Proof.Machine

/-! ### Memory -/

/-- Device memory as bytes: HBM and the shared buffer at their device addresses (R19), in canonical form. -/
abbrev Memory := List Host.Cell

/-- What a memory line holds beside its data bytes: how its stored waybill differs from the waybill of its data (R437, R314),
its poison (R314, R440), the wrong bits of its stored word or symbol code, and whether it was written since a destructive
array test (R468). -/
structure LineMeta where
  wbx : Nat := 0
  poison : Bool := false
  errs : List (Nat × Nat) := []
  known : Bool := false
  deriving DecidableEq, Repr

/-- A line as stored or carried: 128 bytes, its waybill, its poison, and the wrong bits of its stored code. -/
structure Line where
  data : List Byte
  wb : Nat
  poison : Bool := false
  errs : List (Nat × Nat) := []
  deriving DecidableEq, Repr

/-- A line of a cache region: its way in its set and whether it is dirty (R291, R294). -/
structure CLine where
  way : Nat := 0
  dirty : Bool := false
  ln : Line := ⟨[], 0, false, []⟩
  deriving DecidableEq, Repr

/-- A line on its way to its home: in an eviction buffer (R294) or parked in the siding (R304). line is DA[47:7]. -/
structure Parked where
  line : Nat
  ln : Line
  deriving DecidableEq, Repr

/-- Who made a memory request, and so who takes its answer. -/
inductive Who where
  /-- L0 line fill number i of a core. -/
  | coreFill (core i : Nat)
  /-- A store of a block of a core: its group slot, and the thread and address that a failure names (R236). -/
  | coreStore (core blk slot thread addr : Nat)
  /-- The atomic of one thread of a group slot of a block: its destination register field, or none, and the thread and address that a failure
  names (R236). -/
  | coreAtom (core blk slot thread : Nat) (rd : Option Nat) (low addr : Nat)
  /-- A source line of a wagon at Fetch: base die, wagon handle, line position. -/
  | fetch (die wagon pos : Nat)
  /-- A write of a wagon at Stage: base die, wagon handle. -/
  | stage (die wagon : Nat)
  /-- A line arriving for an open receive window: row, source module. -/
  | window (row src : Nat)
  /-- A request of a peer module: port, return virtual channel, tag, source module. -/
  | peer (port vc tag src : Nat)
  /-- A journal line at the keeper: twin port. -/
  | journal (port : Nat)
  /-- A correction write-back. -/
  | fix
  deriving DecidableEq, Repr

/-- What a memory request asks. -/
inductive ReqKind where
  | read | write | partialWrite | atomic | reduce
  deriving DecidableEq, Repr

/-- A memory request waiting at a slice or a stack controller. line is DA[47:7]; mask has one bit a byte; op, size, at, a
and b are an atomic's operation, operand size, offset in the line, operand and comparand; for a reduction op and size are
the operation and the type; cls is the class of R278 (0 A to 3 D) and ing the ingress of R277 or R430; since is the clock
at arrival; st is 0 waiting to be served, 1 waiting for a cache fill, 2 for eviction-buffer room, 3 for siding room,
4 held at its master by regulator reg (R385). -/
structure Req where
  id : Nat
  kind : ReqKind
  line : Nat
  ln : Line := ⟨[], 0, false, []⟩
  mask : Nat := 0
  op : Nat := 0
  size : Nat := 4
  at_ : Nat := 0
  a : Nat := 0
  b : Nat := 0
  cls : Nat := 2
  ing : Nat := 0
  since : Nat := 0
  st : Nat := 0
  reg : Nat := 0
  who : Who
  deriving DecidableEq, Repr

/-- How a memory access ended: good, uncorrectable, poisoned, waybill mismatch, or an error of its address (R20, R39, R290). -/
inductive Fate where
  | good | uncorrectable | poisoned | waybill | partialWaybill | address | parity
  deriving DecidableEq, Repr

/-- The answer to a memory request, waiting for its requester. -/
structure Resp where
  id : Nat
  who : Who
  line : Nat
  ln : Line := ⟨[], 0, false, []⟩
  fate : Fate := .good
  deriving DecidableEq, Repr

/-- A scrub in progress in a buffer half or on a stack (R322, R324, R457): the mailbox, the next line DA[47:7], lines left,
the counts of the response, the start time and NO_FIX. -/
structure Scrub where
  m : Nat
  next : Nat
  left : Nat
  done : Nat := 0
  corr : Nat := 0
  unc : Nat := 0
  wb : Nat := 0
  poi : Nat := 0
  firstBad : Option Nat := none
  t0 : Nat := 0
  noFix : Bool := false
  deriving DecidableEq, Repr

/-- The shared buffer beside its registers and its cells: cached lines keyed by region * 2^40 + DA[47:7], the pseudo-LRU
trees keyed by (region * 128 + slice) * 2^15 + set, the eviction buffers and sidings of the halves (0 BD-N, 1 BD-S), the
scrubs in progress, and for each region slot the lines a flush has still to write back and its mailbox. -/
structure BufState where
  cache : Tab CLine := []
  plru : Tab Nat := []
  ev : List (List Parked) := [[], []]
  siding : List (List Parked) := [[], []]
  scrub : List (Option Scrub) := [none, none]
  flush : Tab (List Nat) := []
  flushMb : Tab Nat := []
  pathShut : Tab Bool := []
  deriving DecidableEq, Repr

/-- One stack and its controller beside its registers: service (0 in, 1 draining, 2 out, 3 returning), out by command,
the level its readings give, the next pseudo-channel to train, the timing setting of each pseudo-channel and the saved
one, the passes of the running refresh, the start of the last refresh, whether a destructive test has run, the
pseudo-channels it left undefined and the count of such tests, the scrub, and the mailbox of a service change and of an array
test with its parameters. -/
structure Stack where
  svc : Nat := 2
  byCmd : Bool := false
  byReg : Bool := false
  level : Nat := 0
  trainPc : Nat := 0
  setting : Tab Nat := []
  saved : Bool := false
  refresh : Nat := 0
  lastRefresh : Nat := 0
  destroyed : Bool := false
  lostPc : Nat := 0
  tests : Nat := 0
  scrub : Option Scrub := none
  svcMb : Option Nat := none
  noClear : Bool := false
  test : Option (Nat × Nat × Nat × Nat) := none
  rowsDue : Bool := false
  deriving DecidableEq, Repr

/-! ### Line time and the timetable -/

/-- A TT.LOCK in progress: its mailbox, the root named, the root's first epoch number, the epoch boundaries left. -/
structure LockReq where
  m : Nat
  root : Nat
  epoch : Nat
  left : Nat
  deriving DecidableEq, Repr

/-- The line time counter and its lock logic (R48 to R64). filtered is in 1/16 lt; epochAt is the epoch in which EPOCH was entered (R56); sent holds the departure time of
the last MARK_REQ on a port; heard holds the HOPS and STATE last reported on a port in this epoch. -/
structure LtState where
  lt : Nat := 0
  pause : Nat := 0
  filtered : Int := 0
  fresh : Bool := true
  parent : Option Nat := none
  marked : Bool := false
  good : Nat := 0
  bad : Nat := 0
  epochAt : Nat := 0
  sent : Tab Nat := []
  heard : Tab (Nat × Nat) := []
  held : Nat := 0
  hopsBefore : Nat := 0
  lastPulse : Option Nat := none
  rootEpoch : Nat := 0
  lock : Option LockReq := none
  wanted : Bool := false
  hkEpoch : Nat := 0
  armDue : Bool := true
  posted : Bool := false
  extRef : Bool := false
  deriving DecidableEq, Repr

/-- The states of a timetable row but FREE, which a row not in the table has (R76). -/
inductive RowSt where
  | pending | armed | active
  deriving DecidableEq, Repr

/-- A source of a receive window (R544, R545): module, bytes received, whether it sent a void marker or a bad line, the lines
its data was reduced into (R547), and whether its one record has been made (R756). -/
structure Source where
  module : Nat
  bytes : Nat := 0
  void : Bool := false
  bad : Bool := false
  das : List Nat := []
  recorded : Bool := false
  deriving DecidableEq, Repr

/-- A timetable row (R70) and its occurrence: the eight words, the owner, the start of the current or next occurrence and
the start it has when it is not moved (R68), occurrences run and skipped, the parameter block loaded when it armed and
whether that failed its check (R75), whether the contribution was void and was counted late (R93, R96), how much a slot
has sent on each base die, the bytes that make a source whole where that is less than the window, whether a bad ready word was
recorded (R825), the sources of a receive window, whether this module left its own part out (R95), whether it carries or takes a late contribution (R94), whether
it is a template's spill row, which carries nothing else, the own part that a template adds at the close (source, destination,
bytes), and the rounds of placements that a template's all-to-all makes there. -/
structure TtRow where
  w : List Nat
  st : RowSt := .pending
  mioto : Bool := false
  start : Nat := 0
  base : Nat := 0
  run : Nat := 0
  skipped : Nat := 0
  cancelled : Bool := false
  par : List Nat := []
  list : List (List Nat) := []
  bad : Bool := false
  void : Bool := false
  counted : Bool := false
  sent : List Nat := [0, 0]
  share : Nat := 0
  polled : Bool := false
  srcs : List Source := []
  selfOut : Bool := false
  late : Bool := false
  lateOnly : Bool := false
  own : Option (Nat × Nat × Nat) := none
  moves : List (List (Nat × Nat × Nat)) := []
  deriving DecidableEq, Repr

/-! ### Mailboxes, rings and notices -/

/-- A mailbox command that has not completed: its code, payload, whether it is the expert form, the units it names
(kind, number), the order of its GO, whether it waits (R632) or is ready to run or runs on, its start time and numbers
that it keeps. -/
structure MbRun where
  code : Nat
  pay : List Nat
  expert : Bool := false
  units : List (Nat × Nat) := []
  order : Nat := 0
  phase : Nat := 0
  t0 : Nat := 0
  aux : List Nat := []
  deriving DecidableEq, Repr

/-- A ring beside its registers (R635, R645): areas, the doorbell target of a submission ring, whether its next entry was found stale (since t0),
whether reading has stopped (R614) and a bad read of it has been recorded, the SEQ of an event ring's next record, its LOST field, the entries accepted and not
completed, and the counts of its status slot (R641). -/
structure Ring where
  base : Nat
  compl : Nat
  target : Option Nat := none
  waiting : Bool := false
  t0 : Nat := 0
  stopped : Bool := false
  badSeen : Bool := false
  next : Nat := 0
  lost : Nat := 0
  live : Nat := 0
  ahead : Nat := 0
  update : Nat := 0
  deriving DecidableEq, Repr

/-- Error records (R752 to R759): the suppression state of each (SOURCE, UNIT, KIND) triple, whose value is 2 * COUNT plus 1 when the
triple has had its record of the epoch, and the counters whose OVF has risen and whose record is due (R762), runs of audit failures by hand-off
(R770), and the notices, records and timetable events of the step that the rings have still to take, in order. -/
structure ErrState where
  ce : Tab Nat := []
  ovf : List Nat := []
  audits : Tab Nat := []
  due : List (Nat × List Nat) := []
  deriving DecidableEq, Repr

/-! ### Power -/

/-- A temperature sensor (R778, R779): its estimate E_s in 1/256 °C, suspect, and the length of the run that leads to a change. -/
structure Sensor where
  est : Nat := 0
  suspect : Bool := false
  run : Nat := 0
  deriving DecidableEq, Repr

/-- Power and thermal state beside its registers: sensors keyed by die * 64 + sensor (dies 0-7 compute, 8 BD-N, 9 BD-S), the thermal state of each
die, dies that met the shutdown condition in the last sample, the low run of R788, S_thermal held at 11 (R780), converters failed (R776), the sum of the
epoch's samples in µW, the input energy below 1 mJ in 10^-15 J, the surge clamp (R791), and the epoch whose THROTTLE action has been taken, plus 1. -/
structure PwrState where
  sens : Tab Sensor := []
  dieState : Tab Nat := []
  hotDies : List Nat := []
  lowRun : Nat := 0
  stuck : Bool := false
  convFail : List Nat := []
  epochUw : Nat := 0
  remFj : Nat := 0
  surge : Bool := false
  thrEpoch : Nat := 0
  deriving DecidableEq, Repr

/-! ### Twinning, start-up and the board -/

/-- A protected region (R705): source and keeper DA, size in 64 KiB units. -/
structure Region where
  src : Nat
  keep : Nat
  units : Nat
  deriving DecidableEq, Repr

/-- Twinning beside its registers (R704 to R732): the twin and KEEP_CTL, the region table keyed 0 to 31, the keeper ranges of the twin's regions by
INDEX (keep and units), dirty pages keyed region * 2^20 + page, and the cursor. The running journal occurrence: its start, the keys of the pages still to
send, the pages of the control image still to send, the image as captured, the pages sent; and what waits for its JACK: start, completeness, image; the
image last acknowledged, captures made, J set. The keeper's side: journal lines received since the opening, and the JEND that waits (port, pages, start). The
last heartbeat and whether one came on a twin port or the routed path in this epoch, the twin's STATE last heard, epochs without a twin port, the alias
table (holder plus 1), the state before a fence, epochs without quorum, the epochs of a waiting declaration, whether the twin holds this role. The mailbox of a
command that waits with its start; handover (0 none, 1 work drains, 2 the journal, 3 done) and the time from which an occurrence counts for it or for a
return, and whether it has come; the PAIR received (TWIN named, held role, HELD_VALID, UNITS), the regions whose answer is awaited, a refusal, and the last TT.LOCK
request. -/
structure TwinState where
  twin : Nat := 0
  keepCtl : Nat := 0
  regions : Tab (Option Region) := []
  keepers : Tab (Option (Nat × Nat)) := []
  dirty : Tab Bool := []
  cursor : Nat := 0
  occ : Option Nat := none
  snap : List Nat := []
  imgLeft : List Nat := []
  img : List Byte := []
  pagesSent : Nat := 0
  wait : Option (Nat × Bool × List Byte) := none
  imgAck : List Byte := []
  captures : Nat := 0
  jSet : Bool := false
  rxLines : Nat := 0
  rxEnd : Option (Nat × Nat × Nat) := none
  lastHb : Nat := 0
  hbSeen : Bool := false
  routedSeen : Bool := false
  peerState : Nat := 0
  portMiss : Nat := 0
  alias_ : Tab Nat := []
  former : Nat := 0
  noQuorum : Nat := 0
  waitWarm : Option Nat := none
  twinHolds : Bool := false
  mb : Option Nat := none
  mbT0 : Nat := 0
  handover : Nat := 0
  jFrom : Option Nat := none
  jCame : Bool := false
  pairSeen : Option (Nat × Nat × Bool × Nat) := none
  regionWait : List Nat := []
  refused : Bool := false
  lockWords : List Nat := []
  deriving DecidableEq, Repr

/-- The start logic (R665 to R701): phase (0 held in reset, 2 boot failed, 3 waiting at the thermal check of R783, 4 starting, 5 ready, 6 work being ended
for a start, 7 role-fatal); whether the last start is warm; whether a start has completed since VIN48 rose;
the last verified measurement in BD-N's control memory (R676); the running bank, its header's SVN, KEY and MIOTO_VERSION, its measurement, whether check 4 was
skipped; the alias key and the alias certificate (R690); the time of the start's cause; a SEC.UPDATE WRITE under way: mailbox and
bank, and its image; whether the fatal record has been posted as a notice; and the ring entries that a warm start completes at its end: ring, and SEQ with the
completion's words, or none for the entry's release (R644); and whether the start record is due (R682). -/
structure StartState where
  phase : Nat := 0
  warm : Bool := false
  completed : Bool := false
  lastMeas : List Byte := []
  running : Nat := 0
  svn : Nat := 0
  key : Nat := 0
  version : Nat := 0
  meas : List Byte := []
  skipped : Bool := false
  aliasKey : List Byte := []
  aliasCert : List Byte := []
  t0 : Nat := 0
  update : Option (Nat × Nat) := none
  updImage : List Byte := []
  fatalPosted : Bool := true
  owed : List (Nat × Option (Nat × List Nat)) := []
  recDue : Bool := false
  deriving DecidableEq, Repr

/-- The non-volatile stores and the pins of the board (R673, R675, R804 to R815): VIN48 in range, fallen below it, VSB up, the rails but VSB, the last VIN48 sample in mV, the trip
latch, MOD_RST_N low, H0_PERST_N low, the slot straps and SLOT as sampled; the fuses; the flash's banks (by offset, each byte as its difference from an erased 0xFF), boot record, device
certificate and start log (the warm bit of each start); the management registers as they stood when the rails went off, the last answer on the management bus and on
TDO, the signal lands as SAMPLE or EXTEST saw them last and the levels that EXTEST drives; the DEPART sent last: ports and REASON; and, the model's own, whether the dies are still too hot for R783; and
the fused spares of each unit's links (R564). -/
structure Board where
  vin : Bool := false
  fell : Bool := false
  vsb : Bool := false
  rails : Bool := false
  vinMv : Nat := 0
  trip : Bool := false
  modRst : Bool := false
  h0Perst : Bool := false
  straps : Nat := 0
  slot : Nat := 0
  key0 : List Byte := (List.range 32).map (Config.fuseByte 0)
  key1 : List Byte := (List.range 32).map (Config.fuseByte 1)
  key0Revoked : Bool := false
  fuseSvn : Nat := 0
  serial : List Byte := (List.range 16).map (Config.fuseByte 2)
  secret : List Byte := (List.range 32).map (Config.fuseByte 3)
  bankA : Tab Byte := []
  bankB : Tab Byte := []
  selected : Nat := 0
  bankPending : Option Nat := none
  trial : Option Nat := none
  deviceCert : List Byte := []
  startLog : List Nat := []
  mgmt : List Nat := [0, 0, 0, 0, 0x40, 0x92]
  smbOut : Option Nat := none
  tdo : List Bool := []
  jtagPins : List Bool := []
  depart : List Nat × Nat := ([], 0)
  hot : Bool := false
  fusedSpares : List (Tab Nat) := []
  deriving DecidableEq, Repr

/-! ### Fervin ports -/

/-- A lane of a port beside its state code in LNKp_LSTATE: when it entered CDR, and the uncorrectable codewords of the epoch. -/
structure Lane where
  t0 : Nat := 0
  ueEpoch : Nat := 0
  deriving DecidableEq, Repr

/-- A request sent to a peer and not answered (R536): its tag, who waits for it, its kind, its line, and the peer. -/
structure OutReq where
  tag : Nat
  who : Who
  kind : ReqKind
  line : Nat
  peer : Nat
  deriving DecidableEq, Repr

/-- An eye scan under LNK.EYE (R492): mailbox, the lanes scanned, the edge in turn (4 * eye + 0 left, 1 right, 2 bottom, 3 top), the
points of that edge measured, the furthest good offset of each lane so far, and the edges found, keyed 16 * lane + edge. -/
structure EyeScan where
  m : Nat
  lanes : Nat
  edge : Nat := 0
  step : Nat := 0
  at_ : List Nat := [0, 0, 0, 0]
  found : Tab Nat := []
  deriving DecidableEq, Repr

/-- A port beside its registers: the lanes; bring-up (the lanes that passed at each rate plus 1 when it was tried, the rate under way, the verification
of R489, start time, the return to TRAIN of R531); the far end's RX_OK, MODULE_VALID and tablet totals; the messages of the port frame that is
arriving (lane, good, message) and its SEQ, the flit stream under reassembly; SEQ last sent and last accepted, the flits unacknowledged, the one from
which a replay is due, when an ACK last advanced, when a NAK was sent; the flits to send for each virtual channel, the link-local flits, and the ingress
port of each ROUTED flit passed on; the tablet counts of R533 and the tablets freed and not yet returned; reclaim; requests outstanding; LOCK, EXCHANGE and
DRAIN; the frame number, the last channel served, what is left of a flit that spans frames, and the frame last sent (header bits, messages, flits
started in it); loops and the commands that run. -/
structure Port where
  lanes : List Lane := List.replicate 4 {}
  passed : List Nat := [0, 0, 0, 0]
  tryRate : Nat := 0
  verify : Bool := false
  bringT0 : Nat := 0
  retrained : Bool := false
  farOk : Nat := 0
  farMv : Bool := false
  totals : List Nat := [1024, 256, 256, 32]
  rx : List (Nat × Bool × List Byte) := []
  rxNo : Nat := 0
  stream : List Byte := []
  synced : Bool := false
  txSeq : Nat := 0
  rxSeq : Nat := 0
  replay : List Flit := []
  replayDue : Option Nat := none
  lastAck : Nat := 0
  nakAt : Option Nat := none
  vcq : List (List Flit) := [[], [], [], []]
  ctl : List Flit := []
  held : List (Option Nat) := []
  avail : List Nat := [0, 0, 0, 0]
  sent : List Nat := [0, 0, 0, 0]
  ret : List Nat := [0, 0, 0, 0]
  recvd : List Nat := [0, 0, 0, 0]
  freed : List Nat := [0, 0, 0, 0]
  owed : List Nat := [0, 0, 0, 0]
  reclaim : Bool := false
  reclaimSent : Bool := false
  out : List OutReq := []
  nextTag : Nat := 0
  goodFrames : Nat := 0
  lockT0 : Nat := 0
  marked : Bool := false
  exFrames : Nat := 0
  drainT0 : Nat := 0
  frameSeq : Nat := 0
  rrCh : Nat := 0
  txRest : List Byte := []
  txHdr : Nat := 0
  txMsgs : List (List Byte) := []
  txOut : List Flit := []
  loopT0 : Nat := 0
  farLoop : Bool := false
  loop : Option (Nat × Nat × Nat × Nat) := none
  svcMb : Option Nat := none
  oos : Bool := false
  restore : Nat := 0
  laneMb : Option Nat := none
  eye : Option EyeScan := none
  deriving DecidableEq, Repr

/-! ### Die-to-die links -/

/-- The links of a unit (0 to 7 a compute die, 8 the coupler), beside its registers: the lane map in force and the saved one, keyed direction * 512 + entry,
as their difference from the plain entry (exclusive OR); the fused spares (R564) likewise; the spare lanes found bad; the turns of the lane check that have
ended, the failing lanes found in them (direction, entry, lane), and what the last check repaired and narrowed; out of service by command; disagreements of
the epoch (R570); a fence under way and its cause; the mailboxes of D2D.CHECK, DIAG.D2D and D2D.DIE; and the
tablets taken (R558, R767), keyed hand-off * 32 + channel (0 tags, 1 data, 2 returns), for the coupler direction * 64 + module (0 to 47 data, 48 to 53 tag), and
whether they are being reclaimed. -/
structure D2dUnit where
  map : Tab Nat := []
  saved : Tab Nat := []
  fused : Tab Nat := []
  badSpare : Tab Bool := []
  turn : Nat := 0
  fails : List (Nat × Nat × Nat) := []
  repaired : Nat := 0
  narrowed : Nat := 0
  byCmd : Bool := false
  parity : Nat := 0
  fencing : Bool := false
  cause : Nat := 0
  checkMb : Option Nat := none
  testMb : Option Nat := none
  dieMb : Option Nat := none
  taken : Tab Nat := []
  reclaim : Bool := false
  deriving DecidableEq, Repr

/-! ### The host port -/

/-- A bias flip in progress (R598 to R600): the granule, the direction, and the lines whose recall is unanswered. -/
structure Flip where
  granule : Nat
  toDevice : Bool
  lines : List Nat := []
  deriving DecidableEq, Repr

/-- What a host path carries back: a completion with data, a poisoned one, Unsupported Request, a write completion, nothing for a discarded request, the old value
of an AtomicOp, or the answer to a snoop. -/
inductive HostAns where
  | data (bytes : List Byte)
  | poison (bytes : List Byte)
  | unsupported
  | done
  | discarded
  | value (v : Nat)
  | miss
  deriving DecidableEq, Repr

/-- A store of Mioto, or an atomic add of a done word, that waits for a flip of its granule (R598): its DA, its bytes, and the owner of its error (R748). -/
structure Deferred where
  da : Nat
  bytes : List Byte
  atom : Bool
  own : Option (Nat × Nat × Nat)
  deriving DecidableEq, Repr

/-- The host ports beside their registers: granules in HOST bias (listed true), flips in progress and waiting, the last flip of a granule,
read-ahead buffers of the two CXL.io paths keyed by line (time filled, data), the last answer on each path (0 H0 CXL.mem, 1 H0 CXL.io, 2 H1 CXL.io), MSI-X state of
each vector (mask, pending, last sent, gap pending, sent), the loss of H0, the commands that flip, and the writes of Mioto and of done words that wait for a
flip (R598). -/
structure HostState where
  hostBias : Tab Bool := []
  flips : List Flip := []
  waitFlips : List (Nat × Bool) := []
  lastFlip : Tab Nat := []
  ra : List (Tab (Option (Nat × List Byte))) := [[], []]
  ans : List (Option HostAns) := [none, none, none]
  msiMask : Tab Bool := []
  msiPend : Tab Bool := []
  msiLast : Tab (Option Nat) := []
  msiGap : Tab Bool := []
  msiSent : Tab Nat := []
  downAt : Option Nat := none
  biasCmd : Option (Nat × Nat × Nat × Bool) := none
  winCmd : Option (Nat × Nat × Nat × Nat) := none
  deferred : List Deferred := []
  deriving DecidableEq, Repr

/-! ### Cores and launches -/

/-- Why a group does not issue: it runs, every live thread waits at a barrier, or it is suspended in a UWAIT (address, value, result
predicate, the time its time-out passes, and whether a bad read of its word has been recorded). -/
inductive GWait where
  | run
  | bar (b : Nat)
  | uwait (da val psel limit : Nat) (polled : Bool)
  deriving DecidableEq, Repr

/-- A load or atomic of a group that has not returned: its PC, its first destination as a register field (R177) and the registers it takes,
its access size in bytes, sign extension, the acting lanes (thread, 128 * line key + byte), the fills not yet arrived and the lines that have, the
threads whose atomic has not returned, the scope of an acquire plus 1 (0: relaxed), and a load's FORM. -/
structure Pend where
  pc : Nat
  dst : Nat
  n : Nat := 1
  size : Nat := 4
  sext : Bool := false
  lanes : List (Nat × Nat) := []
  need : List Nat := []
  got : List (Nat × List Byte) := []
  threads : List Nat := []
  acq : Nat := 0
  form : Nat := 0
  deriving DecidableEq, Repr

/-- A resident group (R100, R651): its block and index, PC, the live and active masks, the reconvergence stack (PC, mask, reconvergence
entry), the threads that wait at barriers (PC, mask, barrier), why it does not issue, v registers keyed 64 * register + thread, u registers,
predicates as masks over the threads, tiles keyed 1024 * tile + 32 * row + column, and its accesses under way. -/
structure Grp where
  blk : Nat
  idx : Nat
  pc : Nat
  live : Nat := 0xFFFFFFFFFFFFFFFF
  active : Nat := 0xFFFFFFFFFFFFFFFF
  stack : List (Nat × Nat × Bool) := []
  parked : List (Nat × Nat × Nat) := []
  wait : GWait := .run
  v : Tab Nat := []
  u : Tab Nat := []
  p : Tab Nat := []
  tiles : Tab Nat := []
  pend : List Pend := []
  deriving DecidableEq, Repr

/-- A resident block: launch, number, registers per thread, groups of the block and those not ended, its scratch units, whether masked-zero mode is
on, lines to prefetch (0: off), its barrier limit (0: the default), stores and atomics not acknowledged, the bytes its stores targeted as
masks keyed by line, and the barriers' watchdogs (barrier, start, limit in lt, PC, group and thread of the first arrival). -/
structure Blk where
  launch : Nat
  num : Nat
  regs : Nat
  groups : Nat
  left : Nat
  units : List Nat := []
  masked : Bool := false
  pf : Nat := 0
  barLog2 : Nat := 0
  outst : Nat := 0
  wrote : Tab Nat := []
  wd : List (Nat × Nat × Nat × Nat × Nat × Nat) := []
  deriving DecidableEq, Repr

/-- An L0 entry: its line DA[47:7], valid bit, data, and the words whose parity is wrong (R100, R146). -/
structure L0e where
  line : Nat := 0
  valid : Bool := false
  data : List Byte := []
  bad : Nat := 0
  deriving DecidableEq, Repr

/-- A stride detector (R138): block and PC, the last missing line, the stride in lines, the confidence and when it was last trained. -/
structure Det where
  blk : Nat
  pc : Nat
  last : Nat
  stride : Int := 0
  conf : Nat := 0
  used : Nat := 0
  deriving DecidableEq, Repr

/-- A line fill in flight: its request, its line, whether it is kept in the L0 (R149). -/
structure Fill where
  id : Nat
  line : Nat
  keep : Bool := true
  deriving DecidableEq, Repr

/-- An MMA in the matrix unit: its group slot, word, operands as byte arrays (R245), acting mask, masked-zero mode, and the blocks it skips. -/
structure MmaOp where
  slot : Nat
  word : Nat
  a : List Byte
  b : List Byte
  meta_ : List Byte
  scale : List Byte
  act : Nat
  masked : Bool
  skip : List Nat := []
  deriving DecidableEq, Repr

/-- A core (R100): group slots, resident blocks by block id, L0 entries 0 to 47, the banks' trees and their order from the most recent, the block that owns
each scratch unit, stride detectors and their clock, fills in flight, and the matrix unit's MMAs, the first in the array. -/
structure Core where
  groups : Tab (Option Grp) := []
  blocks : Tab (Option Blk) := []
  l0 : Tab L0e := []
  trees : List Nat := [0, 0, 0]
  banks : List Nat := [0, 1, 2]
  units : List (Option Nat) := [none, none, none, none]
  dets : List Det := []
  clock : Nat := 0
  fills : List Fill := []
  mmas : List MmaOp := []
  deriving DecidableEq, Repr

/-- A fault as a completion record gives it (R234, R654): code, group, thread, core, block, PC, address, TRAP code. -/
structure FaultRec where
  code : Nat
  group : Nat := 0
  thread : Nat := 0
  core : Nat := 0
  block : Nat := 0
  pc : Nat := 0
  addr : Nat := 0
  trap : Nat := 0
  deriving DecidableEq, Repr

/-- An active launch (R649 to R654): ring, SEQ, descriptor, start time, whether it waits at its gate, whether its wait condition has been met, the
order of its arrival in the placement queue; whether a bad read of a gate word was recorded; the next block, blocks resident, ended, faulted and lost; the first fault; and whether the code
caches have been invalidated for it. -/
structure Launch where
  ring : Nat
  seq : Nat
  w : List Nat
  t0 : Nat
  atGate : Bool := false
  met : Bool := false
  order : Nat := 0
  polled : Bool := false
  next : Nat := 0
  live : Nat := 0
  done : Nat := 0
  faulted : Nat := 0
  lost : Nat := 0
  fault : Option FaultRec := none
  inv : Bool := false
  deriving DecidableEq, Repr


/-! ### The consist and the points unit -/

/-- An active consist descriptor (R333, R334, R352): ring and SEQ, or for a CON.RUN the mailbox; its words; the clock at acceptance; whether it runs
(else it waits); whether a bad read of its wait word was recorded (R825); wagons created; for an EXPAND the byte of the stream at which the next record
starts and whether that is known yet; wagons retired. -/
structure Desc where
  ring : Option Nat
  seq : Nat
  w : List Nat
  t0 : Nat
  run : Bool := false
  polled : Bool := false
  next : Nat := 0
  pos : Nat := 0
  known : Bool := true
  retired : Nat := 0
  deriving DecidableEq, Repr

/-- A write that Stage makes: its line DA[47:7], what it is (0 a line, 1 a reduce operation, 2 a bitmap OR) and the line written or combined. -/
structure StageOp where
  line : Nat
  kind : Nat
  ln : Line
  deriving DecidableEq, Repr

/-- A wagon (R329): its handle, descriptor and index; where it is (0 Fetch, 1 the Expand input store, 2 an engine that has expanded it, 3 Stage); the first
source line, the lines it takes, those requested and those that have come; for an EXPAND the byte of the first line at which its record starts; its
engine; what Stage has still to issue, what it has issued, and the acknowledgements to come. -/
structure Wagon where
  id : Nat
  desc : Nat
  idx : Nat
  st : Nat := 0
  src : Nat
  want : Nat
  asked : Nat := 0
  got : List (Nat × List Byte × Nat) := []
  off : Nat := 0
  engine : Nat := 0
  todo : List StageOp := []
  issued : List StageOp := []
  acks : Nat := 0
  failed : Bool := false
  deriving DecidableEq, Repr

/-- The consist of one base die: active descriptors, wagons in order of creation, the descriptor last given a wagon (R348), the next handles, the tablets
available at Ring, Fetch and Expand (R378), those out at each slice, wagons created, retired and abandoned (R380), and the hand-offs being reclaimed. -/
structure ConDie where
  descs : Tab (Option Desc) := []
  wagons : List Wagon := []
  last : Nat := 0
  nextDesc : Nat := 1
  nextWagon : Nat := 0
  avail : List Nat := [64, 8192, 256]
  sliceOut : Tab Nat := []
  created : Nat := 0
  retired : Nat := 0
  abandoned : Nat := 0
  reclaim : List Nat := []
  deriving DecidableEq, Repr

/-- A points engine's active job (R390 to R407): ring and SEQ, or for a command the mailbox; its words; the clock when it was taken and when it started;
whether it runs, and whether a bad read of its wait word was recorded; the tokens decided, or the blocks or headers done; the fill of each position; the metadata of
slots filled (position, token, rank, demoted, weight, expert) in order; the records in each queue; IN, ROUTED, DEMOTED, OVERFLOW, FALLBACK and
UNRECORDED; the tally words so far; the bytes written, as masks by line; and the status with which it ends, 0 while none has been decided. -/
structure Job where
  ring : Option Nat
  seq : Nat
  w : List Nat
  t0 : Nat
  start : Nat := 0
  run : Bool := false
  polled : Bool := false
  tok : Nat := 0
  blk : Nat := 0
  fill : Tab Nat := []
  meta_ : List (List Nat) := []
  queued : List Nat := [0, 0]
  counts : List Nat := [0, 0, 0, 0, 0, 0]
  tally : List Nat := []
  wrote : Tab Nat := []
  fin : Bool := false
  deriving DecidableEq, Repr

/-- The points unit: the job of each engine and the expert table (R391), both engines alike. -/
structure Points where
  jobs : List (Option Job) := [none, none]
  table : Tab Nat := []
  deriving DecidableEq, Repr


/-! ### The whole -/

/-- The powered module: all of its volatile state. csr holds the registers of control space by offset, each that differs
from its reset value; latch and held are the _HI words of R29 and R30; freeCtr, an auxiliary field of the model, counts the free values drawn; ns is
the time since the rails came up, in ns; credits holds the line credits of the regulators (R385) and refillAt
the clock at their last gain. -/
structure Chip where
  csr : Tab Nat := []
  latch : Tab Nat := []
  hiHeld : Tab Nat := []
  out : Option Nat := none
  ns : Nat := 0
  freeCtr : Nat := 0
  mem : Memory := []
  lmeta : Tab LineMeta := []
  buf : BufState := {}
  stks : List Stack := List.replicate 24 {}
  reqs : List Req := []
  resps : List Resp := []
  reqId : Nat := 0
  lt : LtState := {}
  rows : Tab (Option TtRow) := []
  mb : List (Option MbRun) := List.replicate 4 none
  mbOrder : Nat := 0
  rings : Tab (Option Ring) := []
  err : ErrState := {}
  pwr : PwrState := {}
  twin : TwinState := {}
  start : StartState := {}
  ports : Tab Port := []
  d2d : List D2dUnit := List.replicate 9 {}
  host : HostState := {}
  cores : Tab Core := []
  code : List (List (Nat × List Byte)) := List.replicate 8 []
  launches : Tab (Option Launch) := []
  launchId : Nat := 0
  launchOrder : Nat := 0
  placeRing : Nat := 0
  con : List ConDie := [{}, {}]
  credits : Tab Nat := []
  refillAt : Tab Nat := []
  pts : Points := {}
  deriving DecidableEq, Repr

/-- The module with its rails off: no volatile state (R2). -/
def Chip.off : Chip := {}

/-- The block: the board's pins and non-volatile stores, the powered module, and the commands that wait, first in, first out. -/
structure State where
  board : Board := {}
  chip : Chip := {}
  pending : List Instr := []
  deriving DecidableEq, Repr

/-- Why a step can stop with a fault. -/
inductive Fault where
  /-- Raised by no command of this model: reserved for an outcome the spec calls undefined and gives no effect. Safe. -/
  | undefinedOutcome
  deriving DecidableEq, Repr

/-- Why a command has no meaning. -/
inductive Refusal where
  /-- Raised by a command that is not modelled yet, by its mnemonic. Safe. -/
  | notModelled (mnemonic : String)
  deriving DecidableEq, Repr

/-- The machine right after reset: VIN48 absent, every rail off, nothing waiting (R2; the registers at their tables' reset values). -/
def State.reset : State := {}

end Sys2Proof.Machine
end

