-- ==== Sys2Proof/Machine/Ops.lean ====
section
/-! DEFINITION. The named operations over registers, counters and memory that every command shares. -/

namespace Sys2Proof.Machine

/-! ### Registers and counters -/

/-- The register at a control-space offset. -/
def csr (m : Chip) (off : Nat) : Nat := tget (regReset off) off m.csr

/-- Set the register at a control-space offset to a 32-bit value. -/
def setCsr (m : Chip) (off v : Nat) : Chip := { m with csr := tput (regReset off) off (v % 2 ^ 32) m.csr }

/-- The value of a register field. -/
def fget (m : Chip) (f : Fld) : Nat := bitsN (csr m f.off) f.hi f.lo

/-- Set a register field. -/
def fset (m : Chip) (f : Fld) (v : Nat) : Chip := setCsr m f.off (setBitsN (csr m f.off) f.hi f.lo v)

/-- A one-bit field is 1. -/
def fon (m : Chip) (f : Fld) : Bool := fget m f != 0

/-- The value of the 48-bit counter whose _LO register is at off (R31). -/
def cget (m : Chip) (off : Nat) : Nat := csr m off + 2 ^ 32 * bitsN (csr m (off + 4)) 15 0

/-- Set the value of a 48-bit counter, keeping OVF. -/
def setCtr (m : Chip) (off v : Nat) : Chip :=
  setCsr (setCsr m off v) (off + 4) (setBitsN (csr m (off + 4)) 15 0 (v / 2 ^ 32))

/-- Add n to a 48-bit counter: it stops at its largest value, and the increment that would pass it sets OVF (R761). The
counter whose OVF rises is noted for its one record (R762). -/
def bump (m : Chip) (off n : Nat) : Chip :=
  if cget m off + n < 2 ^ 48 then setCtr m off (cget m off + n)
  else
    let m1 := setCtr m off (2 ^ 48 - 1)
    if tb (csr m1 (off + 4)) 31 then m1
    else { setCsr m1 (off + 4) (putBit (csr m1 (off + 4)) 31 true) with err := { m1.err with ovf := m1.err.ovf ++ [off] } }

/-- A fresh free value (Config.freeNat at the counter) and the machine with the counter advanced. -/
def draw (m : Chip) : Nat × Chip := (Config.freeNat m.freeCtr, { m with freeCtr := m.freeCtr + 1 })

/-- LT now. -/
def now (m : Chip) : Nat := m.lt.lt

/-- Elapsed lt since a time on the model's clock, saturating at 32 bits (the ELAPSED words). -/
def elapsed (m : Chip) (t0 : Nat) : Nat := sat (2 ^ 32 - 1) (m.ns - t0)

/-! ### The address map -/

/-- The DA is in HBM (R19). -/
def isHbm (da : Nat) : Bool := decide (da < 0x018000000000)

/-- The DA is in the shared buffer (R19). -/
def isBuf (da : Nat) : Bool := decide (0xE00000000000 ≤ da ∧ da < 0xE00200000000)

/-- The DA is in control space (R19). -/
def isCtrl (da : Nat) : Bool := decide (0xFF0000000000 ≤ da ∧ da < 0x1000000000000)

/-- The stack of an HBM DA: DA[40:36]. -/
def stackOf (da : Nat) : Nat := bitsN da 40 36

/-- The half of a buffer DA: DA[32]. -/
def halfOf (da : Nat) : Nat := bitN da 32

/-- The granule of a buffer DA in its half: DA[31:26]. -/
def granuleOf (da : Nat) : Nat := bitsN da 31 26

/-- The DA is in the buffer range that Mioto reserves (R38). -/
def reservedBuf (da : Nat) : Bool := isBuf da && granuleOf da == 63

/-- Region slot k is in force. -/
def rgnOn (m : Chip) (k : Nat) : Bool := fon m (BUF_RGNk_CFG_EN k)

/-- Granule g of half h belongs to region slot k: slots 0-3 serve BD-N, 4-7 BD-S. -/
def rgnHas (m : Chip) (k h g : Nat) : Bool :=
  rgnOn m k && k / 4 == h && decide (fget m (BUF_RGNk_CFG_FIRST_GRANULE k) ≤ g) &&
    decide (g < fget m (BUF_RGNk_CFG_FIRST_GRANULE k) + 2 ^ fget m (BUF_RGNk_CFG_SIZE k))

/-- The buffer DA lies in a CACHE granule (R290). -/
def inCache (m : Chip) (da : Nat) : Bool := isBuf da && (List.range 8).any (fun k => rgnHas m k (halfOf da) (granuleOf da))

/-- The region slot whose backing range holds an HBM DA (R289). -/
def backing (m : Chip) (da : Nat) : Option Nat :=
  if isHbm da then firstIdx 8 (fun k => rgnOn m k && decide (fget m (BUF_RGNk_BACK_BASE k) ≤ da / 2 ^ 30) &&
    decide (da / 2 ^ 30 < fget m (BUF_RGNk_BACK_BASE k) + fget m (BUF_RGNk_CFG_BACK_GIB k))) else none

/-- The DA lies in a SCRATCH granule of the buffer, outside the reserved range. -/
def scratch (m : Chip) (da : Nat) : Bool := isBuf da && !reservedBuf da && !inCache m da

/-- Stack s. -/
def stack (m : Chip) (s : Nat) : Stack := m.stks.getD s {}

/-- Change stack s. -/
def modStack (m : Chip) (s : Nat) (f : Stack → Stack) : Chip := { m with stks := modAt m.stks s f }

/-- Stack s is in service. -/
def stackUp (m : Chip) (s : Nat) : Bool := decide (s < 24) && (stack m s).svc == 0

/-- The DA is on a stack in service, outside every backing range. -/
def hbmFree (m : Chip) (da : Nat) : Bool := isHbm da && stackUp m (stackOf da) && (backing m da).isNone

/-- p holds at the first and last byte of a range and at every 64 MiB step between, which reaches every granule and stack it touches. -/
def rangeAll (p : Nat → Bool) (da n : Nat) : Bool :=
  decide (0 < n) && p (da + n - 1) && (List.range (n / 0x4000000 + 1)).all (fun i => p (min (da + n - 1) (da + i * 0x4000000)))

/-- The range lies in SCRATCH granules of the buffer. -/
def scratchRange (m : Chip) (da n : Nat) : Bool := rangeAll (scratch m) da n

/-- The range lies on HBM stacks in service, outside every backing range. -/
def hbmRange (m : Chip) (da n : Nat) : Bool := rangeAll (hbmFree m) da n

/-- slice_of of R276 on a DA: half, slice, line index within the slice. -/
def sliceOf (da : Nat) : Nat × Nat × Nat :=
  let l := bitsN da 31 7
  (halfOf da, (l ^^^ (l >>> 6) ^^^ (l >>> 12) ^^^ (l >>> 18) ^^^ (l >>> 24)) % 64, l / 64)

/-- The global slice number of a DA, by the half given. -/
def gSlice (half da : Nat) : Nat := half * 64 + (sliceOf da).2.1

/-- hbm_place of R429: stack, pseudo-channel, bank, row, column. -/
def hbmPlace (da : Nat) : Nat × Nat × Nat × Nat × Nat :=
  let l := bitsN da 35 7
  let pc := (l ^^^ (l >>> 6) ^^^ (l >>> 12) ^^^ (l >>> 18) ^^^ (l >>> 24)) % 64
  let r := l / 64
  (stackOf da, pc, ((r / 8) ^^^ (r / 512)) % 64, r / 512, r % 8)

/-- The GA of an address (R754): a DA is of this module, module 0 while MODULE_VALID is 0; 2^48 and above names a line of module n as
(n + 1) * 2^48 + DA. -/
def gaOf (m : Chip) (da : Nat) : Nat := if 2 ^ 48 ≤ da then da - 2 ^ 48 else bitsN (csr m 0x43C) 10 0 * 2 ^ 48 + da

/-- The module number, while it is valid (R47 word 15). -/
def moduleNum (m : Chip) : Option Nat :=
  if tb (csr m 0x43C) 11 then some (bitsN (csr m 0x43C) 10 0) else none

/-! ### Lines -/

/-- n bytes from address a as they stand in the cells. -/
def cellBytes (mem : Memory) (a n : Nat) : List Byte := (List.range n).map (fun i => tget 0#8 (a + i) mem)

/-- Store bytes from address a into the cells. -/
def putCells : Memory → Nat → List Byte → Memory
  | mem, _, [] => mem
  | mem, a, b :: bs => putCells (tput 0#8 a b mem) (a + 1) bs

/-- The canonical form of device memory: addresses strictly rising, and no cell listed that equals what an unlisted address reads as, 0. -/
def Memory.wf (mem : Memory) : Bool := twf 0#8 mem

/-- A line with a valid waybill over its bytes. -/
def goodLine (bs : List Byte) : Line := ⟨bs, crc32c bs, false, []⟩

/-- A poisoned line. -/
def poisonLine (bs : List Byte) : Line := ⟨bs, crc32c bs, true, []⟩

/-- A zero line, as clearing writes it. -/
def zeroLine : Line := goodLine (List.replicate 128 0#8)

/-- The line's waybill matches its data. -/
def wbOk (l : Line) : Bool := l.wb == crc32c l.data

/-- A line of the cells, DA[47:7] = ln. -/
def rawLine (m : Chip) (ln : Nat) : Line :=
  let d := cellBytes m.mem (ln * 128) 128
  let k := tget {} ln m.lmeta
  ⟨d, crc32c d ^^^ k.wbx, k.poison, k.errs⟩

/-- A destructive array test left the line's pseudo-channel undefined. -/
def lineLost (m : Chip) (ln : Nat) : Bool := isHbm (ln * 128) && tb (stack m (stackOf (ln * 128))).lostPc (hbmPlace (ln * 128)).2.1

/-- Store a line into the cells. -/
def setRawLine (m : Chip) (ln : Nat) (l : Line) : Chip :=
  { m with mem := putCells m.mem (ln * 128) l.data,
           lmeta := tput {} ln { wbx := l.wb ^^^ crc32c l.data, poison := l.poison, errs := l.errs, known := lineLost m ln } m.lmeta }

/-- What a read of a stored line delivers: the line, how it fared, the words or symbols corrected, and the lowest word corrected. -/
structure Got where
  ln : Line
  fate : Fate := .good
  corr : Nat := 0
  word : Nat := 0
  deriving DecidableEq, Repr

/-- Deliver a line through the word checker of a slice (R314 to R316, R824). -/
def decodeBuf (n : Nat) (l : Line) : Got :=
  let ws := (List.range 16).map (fun i => secded n i (leNat ((l.data.drop (8 * i)).take 8)) (wordErr l.errs i))
  let d := if l.errs = [] then l.data else ws.flatMap (fun w => leBytes 8 w.2)
  { ln := { l with data := d, errs := [] },
    fate := if l.errs ≠ [] ∧ ws.any (fun w => w.1 == .uncorrectable) then .uncorrectable else if l.poison then .poisoned else .good,
    corr := if l.errs = [] then 0 else (ws.filter (fun w => w.1 == .corrected 1)).length,
    word := if l.errs = [] then 0 else (ws.findIdx? (fun w => w.1 == .corrected 1)).getD 0 }

/-- Deliver a line through the symbol decoder of a stack controller (R439 to R442). -/
def decodeHbm (l : Line) : Got :=
  let f := hbmFound l.poison l.errs
  let raw := l.errs.foldl xorSymbol (l.data, l.wb)
  let p := if f.found = .uncorrectable ∨ f.poisoned then raw else f.fix.foldl xorSymbol raw
  { ln := ⟨p.1, p.2, f.poisoned, []⟩,
    fate := match f.found with
      | .uncorrectable => .uncorrectable
      | _ => if f.poisoned then .poisoned else .good,
    corr := match f.found with
      | .corrected k => k
      | _ => 0 }

/-! ### The word protection of stores: flips -/

/-- Apply an armed buffer flip to a line written at global slice g, and disarm it (R321). -/
def flipBuf (m : Chip) (g : Nat) (l : Line) : Line × Chip :=
  if fon m BUF_FLIP_CTRL_ARM && (fon m BUF_FLIP_CTRL_ANY || fget m BUF_FLIP_CTRL_SLICE == g) then
    let mask := csr m 0x30008 + 2 ^ 32 * csr m 0x3000C
    let w := fget m BUF_FLIP_CTRL_WORD
    let l' := match fget m BUF_FLIP_CTRL_TARGET with
      | 0 => { l with errs := l.errs ++ (if mask = 0 then [] else [(2 * w, mask)]) }
      | 1 => { l with errs := l.errs ++ (if mask % 256 = 0 then [] else [(2 * w + 1, mask % 256)]) }
      | _ => { l with wb := l.wb ^^^ (mask % 2 ^ 32) }
    (l', fset m BUF_FLIP_CTRL_ARM 0)
  else (l, m)

/-- Apply an armed HBM flip to a line written on stack s, and disarm it (R469). -/
def flipHbm (m : Chip) (s : Nat) (l : Line) : Line × Chip :=
  if fon m HBM_FLIP_CTRL_ARM && (fon m HBM_FLIP_CTRL_ANY || fget m HBM_FLIP_CTRL_STACK == s) then
    let mask := fget m HBM_FLIP_MASK_MASK
    let y := fget m HBM_FLIP_CTRL_SYMBOL
    let syms := (List.range (fget m HBM_FLIP_CTRL_SPAN + 1)).filter (fun i => decide (y + i ≤ 73))
    let l' := if fget m HBM_FLIP_CTRL_TARGET = 0
      then { l with errs := l.errs ++ (if mask % 65536 = 0 then [] else syms.map (fun i => (y + i, mask % 65536))) }
      else { l with wb := l.wb ^^^ mask }
    (l', fset m HBM_FLIP_CTRL_ARM 0)
  else (l, m)

/-! ### Twin tracking -/

/-- The region entries, 0 to 31, whose source range holds the DA. -/
def regionsOf (m : Chip) (da : Nat) : List (Nat × Region) :=
  (List.range 32).filterMap (fun k =>
    match tget none k m.twin.regions with
    | some r => if r.src ≤ da ∧ da < r.src + r.units * 65536 then some (k, r) else none
    | none => none)

/-- A home that acknowledges a write to a line of a source range sets the dirty bit of the line's page (R706). -/
def noteWrite (m : Chip) (ln : Nat) : Chip :=
  let ks := regionsOf m (ln * 128)
  if ks = [] then m
  else { m with twin := { m.twin with dirty := ks.foldl (fun t p => tput false (p.1 * 2 ^ 20 + (ln * 128 - p.2.src) / 4096) true t) m.twin.dirty } }

/-! ### Error records and notices -/

/-- The owner of an error (R748, R752): kind, ring, tag. -/
abbrev Owner := Nat × Nat × Nat

/-- Owner Mioto. -/
def ownMioto : Owner := (8, 0, 0)

/-- Ring n, when it exists. -/
def ring (m : Chip) (n : Nat) : Option Ring := tget none n m.rings

/-- Set ring n. -/
def setRing (m : Chip) (n : Nat) (r : Option Ring) : Chip := { m with rings := tput none n r m.rings }

/-- Change ring n, when it exists. -/
def modRing (m : Chip) (n : Nat) (f : Ring → Ring) : Chip :=
  match ring m n with
  | some r => setRing m n (some (f r))
  | none => m

/-- The bytes of a ring's slot: 128 for a launch ring, else 64 (R635). -/
def slotBytes (m : Chip) (n : Nat) : Nat := if fget m (MB_RINGn_CFG_KIND n) = 1 then 128 else 64

/-- Empty the read-ahead buffers of the paths chosen (0 H0 CXL.io, 1 H1 CXL.io) (R604 to R606). -/
def emptyRa (m : Chip) (paths : List Nat) : Chip :=
  { m with host := { m.host with ra := paths.foldl (fun r p => setAt r p []) m.host.ra } }

/-- Send the message of an MSI-X vector, or note it for the end of the gap; a masked vector sets its pending bit (R658). -/
def msix (m : Chip) (v : Nat) : Chip :=
  if v > 63 then m
  else if tget false v m.host.msiMask then { m with host := { m.host with msiPend := tput false v true m.host.msiPend } }
  else
    let gapOver := match tget none v m.host.msiLast with
      | none => true
      | some t => decide (t + 2 ^ fget m MB_CTRL_IRQ_LOG2 ≤ m.ns)
    if gapOver then { m with host := { m.host with msiLast := tput none v (some m.ns) m.host.msiLast,
                                                   msiSent := tmod 0 v (· + 1) m.host.msiSent } }
    else { m with host := { m.host with msiGap := tput false v true m.host.msiGap } }

/-! ### Writing lines at their home -/

/-- The buffer half and slice or the stack does not accept writes, so a write parks in the siding (R303, R304): path 0-23 a stack,
24 BD-N's half, 25 BD-S's half. -/
def pathShut (m : Chip) (p : Nat) : Bool := tget false p m.buf.pathShut

/-- The path of a DA. -/
def pathOf (da : Nat) : Nat := if isHbm da then stackOf da else 24 + halfOf da

/-- The base die that holds a DA: 0 BD-N (stacks 0-11, half 0), 1 BD-S. -/
def sideOf (da : Nat) : Nat := if isHbm da then (if stackOf da < 12 then 0 else 1) else halfOf da

/-- Lines parked in the siding of half h. -/
def sidingOf (m : Chip) (h : Nat) : List Parked := m.buf.siding.getD h []

/-- Lines in the eviction buffer of half h. -/
def evOf (m : Chip) (h : Nat) : List Parked := m.buf.ev.getD h []

/-- Set the siding of half h. -/
def setSiding (m : Chip) (h : Nat) (l : List Parked) : Chip := { m with buf := { m.buf with siding := setAt m.buf.siding h l } }

/-- Set the eviction buffer of half h. -/
def setEv (m : Chip) (h : Nat) (l : List Parked) : Chip := { m with buf := { m.buf with ev := setAt m.buf.ev h l } }

/-- The half whose siding parks a write to a DA: the half of the writer's side, BD-N for stacks 0-11. -/
def sidingHalf (da : Nat) : Nat := if isHbm da then (if stackOf da < 12 then 0 else 1) else 1 - halfOf da

/-- The youngest parked copy of a line (R304). -/
def parkedCopy (m : Chip) (ln : Nat) : Option Line :=
  ((((sidingOf m 0) ++ (sidingOf m 1)).filter (fun p => p.line == ln)).getLast?).map (·.ln)

/-- The line store of a slice or stack: the flip, the poison count, the cells and the twin's dirty bit. -/
def storeCell (m : Chip) (ln : Nat) (l : Line) : Chip :=
  let da := ln * 128
  let f := if isHbm da then flipHbm m (stackOf da) l else flipBuf m (gSlice (halfOf da) da) l
  let m1 := if l.poison then bump f.2 (if isHbm da then HBM_POISON_CTR else BUF_POISON_CTR) 1 else f.2
  noteWrite (setRawLine m1 ln f.1) ln

/-- A full-line write at the home of a line in the cells; while the siding is active and the path shut, the line parks (R304). -/
def writeCell (m : Chip) (ln : Nat) (l : Line) : Chip :=
  let da := ln * 128
  if fon m BUF_CTRL_SIDING_EN && pathShut m (pathOf da) then
    bump (setSiding m (sidingHalf da) (sidingOf m (sidingHalf da) ++ [⟨ln, l⟩])) BUF_SIDING_CTR 1
  else storeCell m ln l

/-! ### Pseudo-LRU trees -/

/-- The node reached after the d high bits of a 4-bit way, heap-numbered from 1. -/
def plruNode (w d : Nat) : Nat := 2 ^ d + w / 2 ^ (4 - d)

/-- A use of way w: the bits on its path point away from it (R133). -/
def plruTouch (t w : Nat) : Nat :=
  (List.range 4).foldl (fun t d => putBit t (plruNode w d) (bitN (w / 2 ^ (3 - d)) 0 == 0)) t

/-- The entry reached by following the tree from the root; a node with no allowed entry on one side points to the other (R134). -/
def plruVictim (t : Nat) (ok : Nat → Bool) : Nat :=
  (List.range 4).foldl (fun w d =>
    let want := if tb t (2 ^ d + w) then 1 else 0
    let span := 2 ^ (3 - d)
    let side (b : Nat) := (List.range span).any (fun i => ok ((2 * w + b) * span + i))
    2 * w + (if side want then want else 1 - want)) 0

/-! ### Cache regions -/

/-- The key of a cached line. -/
def cKey (k ln : Nat) : Nat := k * 2 ^ 40 + ln

/-- The slice part and set of a backing line in region k (R291), as one number. -/
def cSet (m : Chip) (k ln : Nat) : Nat :=
  (k * 128 + (sliceOf (ln * 128)).2.1) * 2 ^ 15 + (ln * 128 / 2 ^ 13) % (512 * 2 ^ fget m (BUF_RGNk_CFG_SIZE k))

/-- The cached copy of a backing line. -/
def cacheGet (m : Chip) (k ln : Nat) : Option CLine := (m.buf.cache.find? (fun e => e.1 == cKey k ln)).map (·.2)

/-- Put a line into region k. -/
def cachePut (m : Chip) (k ln : Nat) (c : CLine) : Chip :=
  { m with buf := { m.buf with cache := tput {} (cKey k ln) c m.buf.cache, plru := tmod 0 (cSet m k ln) (fun t => plruTouch t c.way) m.buf.plru } }

/-- Drop a line of region k. -/
def cacheDrop (m : Chip) (k ln : Nat) : Chip := { m with buf := { m.buf with cache := tput {} (cKey k ln) {} m.buf.cache } }

/-- The lines of region k in one set of one slice: (line, entry). -/
def cacheSet (m : Chip) (k set : Nat) : List (Nat × CLine) :=
  m.buf.cache.filterMap (fun e => if e.1 / 2 ^ 40 = k ∧ cSet m k (e.1 % 2 ^ 40) = set then some (e.1 % 2 ^ 40, e.2) else none)

/-- A way for a new line of region k: a free way, or the pseudo-LRU victim, which leaves for the eviction buffer when dirty. None while
the eviction buffer has no room for a dirty victim (R292, R294, R295). -/
def cacheRoom (m : Chip) (k ln : Nat) : Option (Nat × Chip) :=
  let ls := cacheSet m k (cSet m k ln)
  match firstIdx 16 (fun w => !(ls.any (fun e => e.2.way == w))) with
  | some w => some (w, m)
  | none =>
    let w := plruVictim (tget 0 (cSet m k ln) m.buf.plru) (fun _ => true)
    match ls.find? (fun e => e.2.way == w) with
    | none => some (w, m)
    | some (vl, c) =>
      if !c.dirty then some (w, cacheDrop m k vl)
      else if (evOf m (k / 4)).length < 512 then some (w, setEv (cacheDrop m k vl) (k / 4) (evOf m (k / 4) ++ [⟨vl, c.ln⟩]))
      else none

/-- Write the oldest line of an eviction buffer to HBM (R294, R296). A stack that accepts no write parks it (R304). -/
def evDrain (m : Chip) (h : Nat) : Chip :=
  match evOf m h with
  | [] => m
  | p :: r => bump (writeCell (setEv m h r) p.line p.ln) BUF_WRBACK_CTR 1

/-- Write back the eviction buffer of half h until the line has left it. -/
def evUntil : Nat → Chip → Nat → Nat → Chip
  | 0, m, _, _ => m
  | n + 1, m, h, ln => if (evOf m h).any (fun p => p.line == ln) then evUntil n (evDrain m h) h ln else m

/-- Room for a line, writing back first where the eviction buffer is full. -/
def cacheMake (m : Chip) (k ln : Nat) : Nat × Chip :=
  match cacheRoom m k ln with
  | some r => r
  | none =>
    match cacheRoom (evDrain m (k / 4)) k ln with
    | some r => r
    | none => (0, m)

end Sys2Proof.Machine
end

