-- ==== Sys2Proof/Machine/Mem.lean ====
section
/-! DEFINITION. Reading and writing lines at their homes: slices, stacks and cache regions, hardware read-modify-write,
the exits' waybill check, bias flips, and what Mioto stores. -/

namespace Sys2Proof.Machine

/-! ### Posting records and notices -/

/-- Note an error record (R752): class, SOURCE, KIND, UNIT, owner, address, its type, DETAIL, and the two waybills. -/
def recErr (m : Chip) (cls src kind unit : Nat) (own : Owner) (addr aty detail wbS wbC : Nat) : Chip :=
  { m with err := { m.err with due := m.err.due ++ [(0x101, [cls, src, kind, unit, own.1, own.2.1, own.2.2, addr, aty, detail, wbS, wbC])] } }

/-- Note a notice of a CODE with body words 4 onward (R657). -/
def notice (m : Chip) (code : Nat) (body : List Nat) : Chip := { m with err := { m.err with due := m.err.due ++ [(code, body)] } }

/-- An audit of the hand-off of a key has failed (R770): true when this is its fourth epoch in a row. A key holds twice the epochs in a row, plus one once this
epoch's failure is counted. -/
def auditRun (m : Chip) (key : Nat) : Bool × Chip :=
  let v := tget 0 key m.err.audits
  if v % 2 = 1 then (false, m)
  else (decide (6 ≤ v), { m with err := { m.err with audits := tput 0 key (if 6 ≤ v then 1 else v + 3) m.err.audits } })

/-- An epoch ends: a hand-off that has not failed starts its run of failures anew. -/
def auditEpoch (m : Chip) : Chip :=
  let old := m.err.audits
  { m with err := { m.err with audits := (old.filter (fun e => decide (3 ≤ e.2) && e.2 % 2 == 1)).map (fun e => (e.1, e.2 - 1)) } }

/-- Note a timetable event record (R656): words 0 and 2 to 5. -/
def ttEvent (m : Chip) (ws : List Nat) : Chip := { m with err := { m.err with due := m.err.due ++ [(0x106, ws)] } }

/-- The KIND code of a fate (R753). -/
def kindOf : Fate → Nat
  | .good => 0
  | .uncorrectable => 3
  | .poisoned => 4
  | .waybill => 5
  | .partialWaybill => 6
  | .address => 7
  | .parity => 9

/-- The contained record of a failed read at an exit: SOURCE, UNIT, owner, DETAIL, the line and how it fared (R746, R754). -/
def recFate (m : Chip) (src unit : Nat) (own : Owner) (detail : Nat) (ln : Nat) (g : Got) : Chip :=
  let wb := g.fate = .waybill ∨ g.fate = .partialWaybill
  recErr m 1 src (kindOf g.fate) unit own (gaOf m (ln * 128)) 1 detail (if wb then g.ln.wb else 0) (if wb then crc32c g.ln.data else 0)

/-! ### The error log of a stack -/

/-- The log of R460: the first error while VALID is 0; a later worse error replaces a corrected one. kind 0 corrected, 1
uncorrectable, 2 poisoned, 3 waybill. -/
def hbmLog (m : Chip) (s kind syms ln : Nat) : Chip :=
  let free := !fon m (HBMs_ERR_INFO_VALID s)
  if free || (fget m (HBMs_ERR_INFO_KIND s) == 0 && kind != 0) then
    let da := ln * 128
    setCsr (setCsr (setCsr m (HBMs_ERR_INFO_VALID s).off (2 ^ 31 + kind * 2 ^ 29 + syms * 2 ^ 24))
      (0x60110 + 0x100 * s) da) (0x60114 + 0x100 * s) (da / 2 ^ 32)
  else m

/-! ### Plain reads at a home -/

/-- The consist of base die d. -/
def conDie (m : Chip) (d : Nat) : ConDie := m.con.getD d {}

/-- The MASTER of the descriptor of a wagon. -/
def wagonMaster (m : Chip) (d wagon : Nat) : Nat :=
  match (conDie m d).wagons.find? (fun w => w.id == wagon) with
  | some w => ((tget none w.desc (conDie m d).descs).map (fun x => bitsN (nth x.w 0) 23 16)).getD 0
  | none => 0

/-- The regulated master that makes a request (R383); none for the unregulated pool. -/
def masterOf (m : Chip) (r : Req) : Option Nat :=
  match r.who with
  | .coreFill c _ => some (c / 320)
  | .coreStore c _ _ _ _ => some (c / 320)
  | .coreAtom c _ _ _ _ _ _ => some (c / 320)
  | .fetch d w _ => if wagonMaster m d w = 0 then none else some (wagonMaster m d w)
  | .stage d w => if wagonMaster m d w = 0 then none else some (wagonMaster m d w)
  | .peer p _ _ _ => some (if p ≤ 17 then 10 else 11)
  | .window _ _ => none
  | .journal p => some (if p = 17 then 10 else 11)
  | .fix => none

/-- The regulator that applies to a master: the lowest that names it (R384). -/
def regulatorOf (m : Chip) (ms : Nat) : Option Nat :=
  firstIdx 64 (fun k => fget m (CON_REGk_CFG_MODE k) != 0 && fget m (CON_REGk_CFG_MASTER k) == ms)

/-- Spend a credit of regulator k on a request: its class, or held without one (R385). -/
def spendCredit (m : Chip) (k : Nat) (r : Req) : Req × Chip :=
  let mode := fget m (CON_REGk_CFG_MODE k)
  let c := tget 0 k m.credits
  if 0 < c then ({ r with cls := if mode = 3 then 1 else 2, st := 0, reg := 0 }, { m with credits := tput 0 k (c - 1) m.credits })
  else if mode = 1 then ({ r with cls := 3, st := 0, reg := 0 }, bump m CON_DEMOTE_CTR 1)
  else if mode = 2 then ({ r with st := 4, reg := k }, bump m CON_DEMOTE_CTR 1)
  else ({ r with cls := 2, st := 0, reg := 0 }, m)

/-- The class of a request as it is issued, and whether its regulator holds it (R385 to R387). -/
def regulate (m : Chip) (r : Req) : Req × Chip :=
  match r.who with
  | .window _ _ => ({ r with cls := if fon m CON_CTRL_WINDOW_STATIC then 1 else 2 }, m)
  | _ =>
    match (masterOf m r).bind (regulatorOf m) with
    | some k => spendCredit m k r
    | none => (r, m)

/-- The links of a compute die, or with 8 of the coupler. -/
def d2dUnit (m : Chip) (u : Nat) : D2dUnit := m.d2d.getD u {}

/-- Change the links of a unit. -/
def modUnit (m : Chip) (u : Nat) (f : D2dUnit → D2dUnit) : Chip := { m with d2d := modAt m.d2d u f }

/-- The core that made a request. -/
def whoCore : Who → Option Nat
  | .coreFill c _ => some c
  | .coreStore c _ _ _ _ => some c
  | .coreAtom c _ _ _ _ _ _ => some c
  | _ => none

/-- channel_of of R556 for a line of this module. -/
def chanOf (ln : Nat) : Nat := (if isBuf (ln * 128) then (sliceOf (ln * 128)).2.1 else (hbmPlace (ln * 128)).2.1) % 32

/-- The tablets that a request holds on the links it crosses (R558, R562, R767), as keys by unit: a tag, and a data entry when it carries a line. -/
def linkKeys (r : Req) : List (Nat × Nat) :=
  let data := r.kind != .read
  let die := match whoCore r.who with
    | some c => (c / 320, chanOf r.line) :: (if data then [(c / 320, 32 + chanOf r.line)] else [])
    | none => []
  let dir := 64 * (1 - sideOf (r.line * 128))
  die ++ (if r.ing = 4 then (8, dir + 48 + r.line % 48 / 8) :: (if data then [(8, dir + r.line % 48)] else []) else [])

/-- Take or give back tablets. -/
def linkMove (m : Chip) (ks : List (Nat × Nat)) (f : Nat → Nat) : Chip := ks.foldl (fun c k => modUnit c k.1 (fun u => { u with taken := tmod 0 k.2 f u.taken })) m

/-- Add a request to the queue of waiting memory requests. -/
def pushReq (m : Chip) (r : Req) : Chip :=
  let q := regulate m { r with id := m.reqId, since := m.ns }
  linkMove { q.2 with reqs := q.2.reqs ++ [q.1], reqId := q.2.reqId + 1 } (linkKeys q.1) (· + 1)

/-- Take requests off the queue: their tablets return. -/
def dropReqs (m : Chip) (p : Req → Bool) : Chip :=
  linkMove { m with reqs := m.reqs.filter (fun r => !p r) } ((m.reqs.filter p).flatMap linkKeys) (· - 1)

/-- The tablet of the return that an answer to a core's fill holds. -/
def returnKeys (w : Who) (ln : Nat) : List (Nat × Nat) :=
  match w with
  | .coreFill c _ => [(c / 320, 64 + (if ln / 2 ^ 41 = 0 then chanOf ln else ln % 32))]
  | _ => []

/-- A corrected line is written back as a class D read-modify-write that merges no bytes (R315, R441). -/
def queueFix (m : Chip) (ln : Nat) : Chip :=
  if m.reqs.any (fun r => r.who == .fix && r.line == ln) then m
  else pushReq m { id := 0, kind := .partialWrite, line := ln, cls := 3, ing := if isHbm (ln * 128) then 10 else 11, who := .fix }

/-- How a stored line fares where its waybill is checked: its own fate, or a waybill mismatch (R317, R741). -/
def storedFate (g : Got) : Fate := if g.fate = .good ∧ ¬ wbOk g.ln then .waybill else g.fate

/-- The counts and records of a slice read: words corrected, an uncorrectable word. A worse error of the same line
leaves the correction without a record (R751). -/
def noteBuf (m : Chip) (ln : Nat) (g : Got) : Chip :=
  let da := ln * 128
  let half := if isBuf da then halfOf da else if stackOf da < 12 then 0 else 1
  let m1 := bump m BUF_CE_CTR g.corr
  let m2 := if g.corr = 0 ∨ storedFate g ≠ .good then m1 else recErr m1 0 2 1 (gSlice half da) ownMioto (gaOf m1 da) 1 g.word 0 0
  let m3 := if g.corr ≠ 0 ∧ fon m2 BUF_CTRL_CE_WRITEBACK then queueFix m2 ln else m2
  if g.fate = .uncorrectable then bump m3 BUF_UE_CTR 1 else m3

/-- A slice's read of a line of the cells, or of its parked copy (R304, R315, R316). -/
def readBufLine (m : Chip) (ln : Nat) : Got × Chip :=
  let g := decodeBuf m.freeCtr ((parkedCopy m ln).getD (rawLine m ln))
  let m1 := if g.ln.errs = [] ∧ g.corr = 0 ∧ g.fate = .good then m else noteBuf { m with freeCtr := m.freeCtr + 1 } ln g
  (g, m1)

/-- The line of a pseudo-channel that a destructive test left undefined (R464, R468). -/
def residue (m : Chip) (ln : Nat) : Got :=
  let n := (stack m (stackOf (ln * 128))).tests
  let d := (List.range 128).map (fun i => Config.arrayResidue n (ln * 128 + i))
  { ln := goodLine d, fate := match Config.arrayResidueClass n ln with
      | 0 => .good
      | 2 => .poisoned
      | _ => .uncorrectable }

/-- What a stack controller's read of a line delivers: its parked copy, the cells, or what a destructive test left (R304, R439 to R442, R468). -/
def hbmGot (m : Chip) (ln : Nat) : Got :=
  match parkedCopy m ln with
  | some l => decodeHbm l
  | none => if lineLost m ln && !(tget {} ln m.lmeta).known then residue m ln else decodeHbm (rawLine m ln)

/-- A read that corrected symbols: its count, its record unless the line has a worse error, its log, and the write-back (R441, R460, R751). -/
def noteHbmCe (m : Chip) (own : Owner) (fix : Bool) (ln : Nat) (g : Got) : Chip :=
  if g.corr = 0 then m else
    let s := stackOf (ln * 128)
    let m1 := bump m (HBMs_CE_CTR s) 1
    let m2 := if storedFate g = .good then recErr m1 0 4 2 s own (gaOf m (ln * 128)) 1 ((hbmPlace (ln * 128)).2.1 + g.corr * 64) 0 0 else m1
    let c := hbmLog m2 s 0 g.corr ln
    if fix && fon c HBM_CTRL_CE_WRITEBACK then queueFix c ln else c

/-- A read by a stack controller for an owner, with or without write-back (R439 to R442, R460). -/
def hbmRead (m : Chip) (own : Owner) (fix : Bool) (ln : Nat) : Got × Chip :=
  let s := stackOf (ln * 128)
  let g := hbmGot m ln
  let m1 := noteHbmCe m own fix ln g
  let m2 := match g.fate with
    | .uncorrectable => hbmLog (bump m1 (HBMs_UE_CTR s) 1) s 1 0 ln
    | .poisoned => hbmLog (bump m1 HBM_POISON_CTR 1) s 2 0 ln
    | _ => m1
  (g, m2)

/-- A stack controller's read for a request. -/
def readHbmLine (m : Chip) (ln : Nat) : Got × Chip := hbmRead m ownMioto true ln

/-- A read of a backing line through its cache region (R289, R293 to R297). -/
def readCacheLine (m : Chip) (k ln : Nat) : Got × Chip :=
  match cacheGet m k ln with
  | some c =>
    let g := decodeBuf m.freeCtr c.ln
    let m1 := bump (cachePut m k ln c) BUF_HIT_CTR 1
    (g, if g.corr = 0 ∧ g.fate = .good then m1 else noteBuf { m1 with freeCtr := m1.freeCtr + 1 } ln g)
  | none =>
    let m1 := evUntil 513 (bump m BUF_MISS_CTR 1) (k / 4) ln
    let r := readHbmLine m1 ln
    if r.1.fate = .uncorrectable then (r.1, r.2)
    else if r.1.fate = .good ∧ ¬ wbOk r.1.ln then ({ r.1 with fate := .waybill }, r.2)
    else
      let w := cacheMake r.2 k ln
      (r.1, cachePut w.2 k ln { way := w.1, dirty := false, ln := r.1.ln })

/-- The access is to an address that takes none: unmapped, control space, a reserved range unless Mioto asks, a CACHE granule, a
stack out of service (R20, R39, R290, R463). -/
def badAddress (m : Chip) (da : Nat) (mioto : Bool) : Bool :=
  if isBuf da then (reservedBuf da && !mioto) || inCache m da
  else if isHbm da then !stackUp m (stackOf da)
  else true

/-- A plain read of a line by any agent of the module. -/
def readLine (m : Chip) (ln : Nat) (mioto : Bool) : Got × Chip :=
  let da := ln * 128
  if badAddress m da mioto then ({ ln := zeroLine, fate := .address }, m)
  else if isBuf da then readBufLine m ln
  else match backing m da with
    | some k => readCacheLine m k ln
    | none => readHbmLine m ln

/-- A read at an exit, which also checks the waybill (R741). -/
def readExit (m : Chip) (ln : Nat) (mioto : Bool) : Got × Chip :=
  let r := readLine m ln mioto
  if r.1.fate = .good ∧ ¬ wbOk r.1.ln then ({ r.1 with fate := .waybill }, r.2) else r

/-- The line's stack is at level 3, and no cache region holds the line: requests to it wait (R455). -/
def stackHeld (m : Chip) (ln : Nat) : Bool :=
  isHbm (ln * 128) && stackUp m (stackOf (ln * 128)) && fget m (HBMs_STAT_LEVEL (stackOf (ln * 128))) == 3 &&
    !((backing m (ln * 128)).any (fun k => (cacheGet m k ln).isSome))

/-! ### Writes at a home -/

/-- The write half of an operation: the line goes to its cached copy, or to the cells. -/
def putLine (m : Chip) (ln : Nat) (l : Line) : Chip :=
  match backing m (ln * 128) with
  | some k =>
    match cacheGet m k ln with
    | some c =>
      let f := flipBuf m (gSlice (k / 4) (ln * 128)) l
      let m1 := if l.poison then bump f.2 BUF_POISON_CTR 1 else f.2
      noteWrite (cachePut m1 k ln { c with dirty := true, ln := f.1 }) ln
    | none =>
      let w := cacheMake (evUntil 513 (bump m BUF_MISS_CTR 1) (k / 4) ln) k ln
      let f := flipBuf w.2 (gSlice (k / 4) (ln * 128)) l
      let m1 := if l.poison then bump f.2 BUF_POISON_CTR 1 else f.2
      noteWrite (cachePut m1 k ln { way := w.1, dirty := true, ln := f.1 }) ln
  | none => writeCell m ln l

/-- A line as a read would find it, without what the read counts: its cached copy, its copy in the eviction buffer, its parked copy, or the
cells. -/
def peekLine (m : Chip) (ln : Nat) : Got :=
  if isBuf (ln * 128) then decodeBuf m.freeCtr ((parkedCopy m ln).getD (rawLine m ln))
  else match backing m (ln * 128) with
    | none => hbmGot m ln
    | some k => match cacheGet m k ln with
      | some c => decodeBuf m.freeCtr c.ln
      | none => match (evOf m (k / 4)).find? (fun p => p.line == ln) with
        | some p => decodeBuf m.freeCtr p.ln
        | none => hbmGot m ln

/-- The bits of a line that a mask chooses (bit 8 i + j is bit j of byte i) take free values: what a write that is kept or lost leaves (R164, R342, R407). A line that
was bad stays bad or is poisoned, unless the write is of the full line and so may have replaced it (R319, R320). -/
def loosen (m : Chip) (ln mask : Nat) (full : Bool) : Chip :=
  if badAddress m (ln * 128) true then m
  else
    let f := draw m
    let g := peekLine f.2 ln
    let old := leNat g.ln.data
    let d := leBytes 128 ((old - (old &&& mask)) + (f.1 &&& mask))
    if storedFate g = .good then putLine f.2 ln (goodLine d)
    else if tb f.1 1024 then putLine f.2 ln (if full then goodLine d else poisonLine d)
    else f.2

/-- A byte mask as a bit mask. -/
def byteMask (mask : Nat) : Nat := (List.range 128).foldl (fun a i => if tb mask i then a + 255 * 2 ^ (8 * i) else a) 0

/-- A full-line write by any agent (R282, R293, R320, R434). -/
def writeLine (m : Chip) (ln : Nat) (l : Line) (mioto : Bool) : Fate × Chip :=
  if badAddress m (ln * 128) mioto then (.address, m)
  else (.good, putLine (if (backing m (ln * 128)).any (fun k => (cacheGet m k ln).isSome) then bump m BUF_HIT_CTR 1 else m) ln l)

/-- Bytes d over bytes o where the mask has a 1. -/
def mergeBytes (o d : List Byte) (mask : Nat) : List Byte :=
  (List.range 128).map (fun i => if tb mask i then d.getD i 0#8 else o.getD i 0#8)

/-- Count a waybill mismatch that a slice or a stack controller found. -/
def noteWb (m : Chip) (ln : Nat) (f : Fate) : Chip :=
  if f ≠ .waybill then m
  else if isBuf (ln * 128) || (backing m (ln * 128)).isSome then bump m BUF_WBILL_CTR 1
  else hbmLog (bump m HBM_WBILL_CTR 1) (stackOf (ln * 128)) 3 0 ln

/-- Count a hardware read-modify-write. -/
def noteRmw (m : Chip) (ln : Nat) : Chip :=
  bump m (if isBuf (ln * 128) || (backing m (ln * 128)).isSome then BUF_RMW_CTR else HBM_RMW_CTR) 1

/-- A partial write: a locked read-modify-write (R317 to R319, R436). pwOk says that the partial waybill matches. -/
def partialWrite (m : Chip) (ln : Nat) (d : List Byte) (mask : Nat) (pwOk mioto : Bool) : Fate × Chip :=
  if badAddress m (ln * 128) mioto then (.address, m)
  else
    let r := readLine m ln mioto
    let sf := storedFate r.1
    let m1 := noteWb (noteRmw r.2 ln) ln sf
    if !pwOk then (if sf = .good then .partialWaybill else sf, m1)
    else
      let data := mergeBytes r.1.ln.data d mask
      match sf with
      | .good => (.good, putLine m1 ln (goodLine data))
      | .address => (.address, m1)
      | f => (f, putLine m1 ln (poisonLine data))

/-- The line whose waybills the record of a failed read-modify-write names (R752): the stored line when it is that one whose waybill fails, else the line that came. -/
def failLine (m : Chip) (ln : Nat) (came : Line) (f : Fate) : Line := if f = .waybill then (peekLine m ln).ln else came

/-- Replace n bytes at an offset of a line's data. -/
def spliceBytes (d : List Byte) (o n v : Nat) : List Byte := d.take o ++ leBytes n v ++ d.drop (o + n)

/-- The half and slice that serve a line, for a buffer line or a backing line (R276, R291). -/
def servingSlice (m : Chip) (ln : Nat) : Option Nat :=
  let da := ln * 128
  if isBuf da then some (gSlice (halfOf da) da) else (backing m da).map (fun k => gSlice (k / 4) da)

/-- The record of a failed read-modify-write by a store of Mioto (a slice's or a stack controller's, R741, R746) or by an atomic (a Collect unit's, R312), for its owner. m0
is the machine before it. -/
def noteFail (m m0 : Chip) (own : Owner) (atom : Bool) (da : Nat) (f : Fate) : Chip :=
  if f = .good then m
  else
    let g : Got := { ln := failLine m0 (da / 128) zeroLine f, fate := f }
    match servingSlice m0 (da / 128) with
    | some u => recFate m (if atom then 3 else 2) u own (da % 128 / 8) (da / 128) g
    | none => recFate m 4 (stackOf da) own (hbmPlace da).2.1 (da / 128) g

/-- Store n bytes from an address on, whole lines as full-line writes and the rest as partial writes; the worst fate. fuel bounds the lines. -/
def storeLoop : Nat → Chip → Nat → List Byte → Bool → Fate → Fate × Chip
  | 0, m, _, _, _, f => (f, m)
  | k + 1, m, a, bs, mioto, f =>
    if bs.isEmpty then (f, m)
    else
      let o := a % 128
      let n := min (128 - o) bs.length
      let part := bs.take n
      let line := List.replicate o 0#8 ++ part ++ List.replicate (128 - o - n) 0#8
      let r := if n = 128 then writeLine m (a / 128) (goodLine part) mioto
        else partialWrite m (a / 128) line ((2 ^ n - 1) * 2 ^ o) true mioto
      storeLoop k r.2 (a + n) (bs.drop n) mioto (if f = .good then r.1 else f)

/-- Store bytes at a DA. -/
def storeBytes (m : Chip) (da : Nat) (bs : List Byte) (mioto : Bool) : Fate × Chip :=
  storeLoop (bs.length / 128 + 2) m da bs mioto .good

/-- Load the lines of a byte range through the exit check; the first bad fate and its line. -/
def loadLoop : Nat → Chip → Nat → List Byte → Bool → Option (Nat × Got) → List Byte × Option (Nat × Got) × Chip
  | 0, m, _, acc, _, b => (acc, b, m)
  | k + 1, m, ln, acc, mioto, b =>
    let r := readExit m ln mioto
    loadLoop k r.2 (ln + 1) (acc ++ r.1.ln.data) mioto (if b.isNone ∧ r.1.fate ≠ .good then some (ln, r.1) else b)

/-- n bytes from a DA, and the first line that failed. -/
def loadBytes (m : Chip) (da n : Nat) (mioto : Bool) : List Byte × Option (Nat × Got) × Chip :=
  let r := loadLoop ((da % 128 + n + 127) / 128) m (da / 128) [] mioto none
  ((r.1.drop (da % 128)).take n, r.2)

/-- A 32-bit word at a DA: its value, whether it read good, and the machine (ready words, wait words). -/
def loadWord (m : Chip) (da : Nat) (mioto : Bool) : Nat × Option (Nat × Got) × Chip :=
  let r := loadBytes m da 4 mioto
  (leNat r.1, r.2)

/-! ### Bias -/

/-- The window offset that a valid segment maps to a DA (R589, R590). -/
def windowOf (m : Chip) (da : Nat) : Option Nat :=
  (firstIdx 64 (fun k => fon m (HOST_SEGk_VALID k) && fget m (HOST_SEGk_TARGET k) == da / 2 ^ 30)).map (fun k => k * 2 ^ 30 + da % 2 ^ 30)

/-- The DA a window offset reaches (R589). -/
def windowDa (m : Chip) (o : Nat) : Option Nat :=
  if o / 2 ^ 30 < 64 ∧ fon m (HOST_SEGk_VALID (o / 2 ^ 30)) then some (fget m (HOST_SEGk_TARGET (o / 2 ^ 30)) * 2 ^ 30 + o % 2 ^ 30) else none

/-- Granule g is in HOST bias. -/
def hostBias (m : Chip) (g : Nat) : Bool := tget false g m.host.hostBias

/-- The granule that maps a DA, when it is in HOST bias or its flip is in progress (R598, R600). -/
def biasedAt (m : Chip) (da : Nat) : Option Nat :=
  match windowOf m da with
  | some o => if hostBias m (o / 65536) || m.host.flips.any (fun f => f.granule == o / 65536) then some (o / 65536) else none
  | none => none

/-- A flip of the granule is in progress or waits. -/
def flipping (m : Chip) (g : Nat) : Bool := m.host.flips.any (fun f => f.granule == g) || m.host.waitFlips.any (fun f => f.1 == g)

/-- A granule takes its new bias (R598, R599, R601). -/
def setBias (m : Chip) (g : Nat) (toDev : Bool) : Chip :=
  bump { m with host := { m.host with hostBias := tput false g (!toDev) m.host.hostBias, lastFlip := tput 0 g (m.ns + 1) m.host.lastFlip } }
    (if toDev then HOST_FLIP_DEV_CTR else HOST_FLIP_HOST_CTR) 1

/-- Recalls of lines of a granule stay unanswered (R602): each line is written poisoned, counted and recorded. -/
def recallLost (m : Chip) (g : Nat) (lines_ : List Nat) : Chip :=
  lines_.foldl (fun c i =>
    let o := g * 65536 + i * 128
    match windowDa c o with
    | none => c
    | some da =>
      let r := readLine c (da / 128) true
      let c1 := if badAddress r.2 da true then r.2 else putLine r.2 (da / 128) (poisonLine r.1.ln.data)
      recErr (bump c1 HOST_BIAS_ERR_CTR 1) 1 8 8 0 (5, 0, 0) (gaOf c1 da) 1 1 0 0) m

/-- Start a flip of a granule, or queue it behind the 32 in progress (R598 to R600). While H0 is down no recall is answered and a flip to DEVICE is over at once (R602). -/
def startFlip (m : Chip) (g : Nat) (toDev : Bool) : Chip :=
  if flipping m g then m
  else if toDev && !fon m HOST_STAT_H0_UP then setBias (recallLost m g (List.range 512)) g true
  else if m.host.flips.length < 32 then
    fset { m with host := { m.host with flips := m.host.flips ++ [⟨g, toDev, if toDev then List.range 512 else []⟩] } }
      HOST_STAT_FLIPS (m.host.flips.length + 1)
  else { m with host := { m.host with waitFlips := m.host.waitFlips ++ [(g, toDev)] } }

/-- An autonomous flip: it also waits out the dwell of R601. -/
def autoFlip (m : Chip) (g : Nat) (toDev : Bool) : Chip :=
  if decide (tget 0 g m.host.lastFlip = 0) || decide (tget 0 g m.host.lastFlip + 2 ^ fget m HOST_BIAS_CTRL_DWELL_LOG2 ≤ m.ns + 1) then startFlip m g toDev
  else if flipping m g then m
  else { m with host := { m.host with waitFlips := m.host.waitFlips ++ [(g, toDev)] } }

/-- The HOST-bias granules that a byte range touches. -/
def biasedIn (m : Chip) (da n : Nat) : List Nat :=
  ((List.range (n / 65536 + 2)).filterMap (fun i => biasedAt m (min (da + n - 1) (da + i * 65536)))).eraseDups

/-- Start the flip to DEVICE bias of every HOST-bias granule of a range (R598). -/
def flipRange (m : Chip) (da n : Nat) : Chip := (biasedIn m da n).foldl (fun c g => autoFlip c g true) m

/-- The range is in DEVICE bias or outside the window: a device agent may access it now. -/
def deviceReady (m : Chip) (da n : Nat) : Bool := (biasedIn m da n).isEmpty

/-- Store bytes for an owner, whose error a failure is; none for an error record's own store, whose failure makes no further record. -/
def storeFor (m : Chip) (own : Option Owner) (da : Nat) (bs : List Byte) : Chip :=
  let r := storeBytes m da bs true
  match own with
  | some o => noteFail r.2 m o false da r.1
  | none => r.2

/-- A store by Mioto: at once, or after the flip of R598 when the range is in HOST bias. -/
def mioStore (m : Chip) (own : Option Owner) (da : Nat) (bs : List Byte) : Chip :=
  if deviceReady m da bs.length && !(m.host.deferred.any (fun d => decide (d.da / 65536 = da / 65536))) then storeFor m own da bs
  else
    let c := flipRange m da bs.length
    { c with host := { c.host with deferred := c.host.deferred ++ [⟨da, bs, false, own⟩] } }

/-- Add a number to a 32-bit word by a Collect unit's atomic (R308, R312, R319): a bad line stays bad, with a record for the owner. -/
def addWord (m : Chip) (own : Owner) (da v : Nat) : Chip :=
  let ln := da / 128
  if badAddress m da true then noteFail m m own true da .address
  else
    let r := readLine m ln true
    let sf := storedFate r.1
    let data := spliceBytes r.1.ln.data (da % 128) 4 (leNat ((r.1.ln.data.drop (da % 128)).take 4) + v)
    noteFail (putLine (noteWb r.2 ln sf) ln (if sf = .good then goodLine data else poisonLine data)) m own true da sf

/-- Add 1 to a 32-bit word by a Collect unit's atomic, with release (done words, ready words); after the flip when the word is in HOST bias. -/
def incWord (m : Chip) (own : Owner) (da : Nat) : Chip :=
  let m1 := bump m BUF_ATOM_CTR 1
  if deviceReady m1 da 4 then addWord m1 own da 1
  else
    let c := flipRange m1 da 4
    { c with host := { c.host with deferred := c.host.deferred ++ [⟨da, leBytes 4 1, true, some own⟩] } }

/-! ### The rings' records and the end of a step -/

/-- The event ring of a KIND (R635). -/
def eventRing (m : Chip) (kind : Nat) : Option Nat := firstIdx 64 (fun n => (ring m n).isSome && fget m (MB_RINGn_CFG_KIND n) == kind)

/-- Write a record of 14 words to the event ring of a KIND, or count it lost (R635, R637, R642, R643). -/
def putEvent (m : Chip) (kind : Nat) (ws : List Nat) : Chip :=
  match eventRing m kind with
  | none => bump m MB_EVT_LOST_CTR 1
  | some n =>
    match ring m n with
    | none => bump m MB_EVT_LOST_CTR 1
    | some r =>
      let ents := fget m (MB_RINGn_CFG_ENTRIES n)
      if dist32 r.next (csr m (MB_RINGn_L_L n).off) > ents then
        bump (setRing m n (some { r with lost := r.lost + 1 })) MB_EVT_LOST_CTR 1
      else
        let body := setAt (fit 14 0 ws) 1 (sat 65535 r.lost)
        let m1 := mioStore m (if kind = 7 then none else some ownMioto) (r.base + (r.next % ents) * 64) (wordBytes (body ++ [r.next, crcWords body]))
        msix (setRing m1 n (some { r with next := (r.next + 1) % 2 ^ 32, lost := 0 })) (fget m (MB_RINGn_CFG_VECTOR n))

/-- Make an error record (R752 to R758): corrected records obey R755; contained ones are also held in ERR_LAST. -/
def putRecord (m : Chip) (p : List Nat) : Chip :=
  let cls := nth p 0
  let src := nth p 1
  let kind := nth p 2
  let unit := nth p 3
  let key := (src * 256 + unit) * 256 + kind
  let old := tget 0 key m.err.ce
  let ce := cls == 0 && kind != 10
  if ce && !fon m ERR_CTRL_CE_REC then m
  else if ce && old % 2 == 1 then
    bump { m with err := { m.err with ce := tput 0 key (if old / 2 < 2 ^ 32 - 1 then old + 2 else old) m.err.ce } } ERR_SUPPR_CTR 1
  else
    let m0 := if ce then { m with err := { m.err with ce := tput 0 key 1 m.err.ce } } else m
    let seq := (csr m0 ERR_SEQ_SEQ.off + 1) % 2 ^ 32
    let m1 := bump (fset m0 ERR_SEQ_SEQ seq) ERR_REC_CTR 1
    let ws := [cls * 2 ^ 30 + src % 64 * 2 ^ 24 + kind % 256 * 2 ^ 16 + unit % 256 * 2 ^ 8,
      nth p 4 % 16 * 2 ^ 28 + nth p 5 % 64 * 2 ^ 22 + nth p 6 % 65536] ++ lohi (nth p 7 / 128 * 128) ++
      [nth p 8 % 4 * 2 ^ 30 + nth p 9 % 2 ^ 30, nth p 10, nth p 11, seq, if ce then old / 2 else 0, 0]
    let last (c : Chip) (base : Nat) : Chip := (List.range 12).foldl (fun c i => setCsr c (base + 4 * i) (nth (ws ++ lohi (now m)) i)) c
    let m2 := if cls = 1 then fset (bump (last m1 0xD0040) ERR_CONTAINED_CTR 1) ERR_STAT_LAST_VALID 1 else m1
    if cls = 2 then fset (last m2 0xD0080) ERR_STAT_FATAL_VALID 1
    else putEvent m2 7 ([1 * 2 ^ 24, 0] ++ lohi (now m) ++ ws)

/-- Emit one noted record, notice or event. -/
def emit (m : Chip) (d : Nat × List Nat) : Chip :=
  if d.1 = 0x101 then putRecord m d.2
  else if d.1 = 0x106 then putEvent m 6 ([nth d.2 0, 0] ++ d.2.drop 1)
  else putEvent m 7 ([d.1 * 2 ^ 24, 0] ++ lohi (now m) ++ d.2)

/-- Emit what the step has noted, n rounds: writing a record can itself note a counter overflow or a corrected line. -/
def emitAll : Nat → Chip → Chip
  | 0, m => m
  | n + 1, m =>
    let m1 := m.err.ovf.foldl (fun c off => recErr c 0 15 10 0 (0, 0, 0) 0 0 off 0 0) { m with err := { m.err with ovf := [] } }
    if m1.err.due = [] then m1
    else emitAll n (m1.err.due.foldl emit { m1 with err := { m1.err with due := [] } })

/-- Words 15 to 20 of the size table from the machine's state (R47): the module number (R22, R553), the twin (R704), dies, stacks, ports, and the
limit in force. -/
def sizeState (m : Chip) : List Nat :=
  let tv := fget m TWIN_STAT_STATE
  let twinPort := [17, 34].any (fun p => fget m (LNKp_LINK_STATE p) == 5 && fget m (LNKp_LINK_FAR_MODULE p) == m.twin.twin)
  let twinValid := tv == 2 || tv == 3 || tv == 4 || tv == 6 || (tv == 5 && twinPort)
  let usable := maskN 36 (fun p => fget m (LNKp_LINK_STATE p) == 5 || fget m (LNKp_LINK_STATE p) == 6)
  [if fon m LNK_TOPO_VALID then 2048 + fget m LNK_TOPO_STATION * 8 + fget m LNK_TOPO_SLOT else 0,
   if twinValid then 2048 + m.twin.twin else 0,
   maskN 8 (fun d => fget m (D2D_CDd_STAT_STATE d) == 0 && m.start.completed),
   maskN 24 (fun s => stackUp m s),
   usable % 2 ^ 32, fget m PWR_LIMIT_IN_FORCE * 2 ^ 16 + usable / 2 ^ 32]

/-- Bring the size table up to date; GENERATION increments with any change (R45). -/
def sizeRefresh (m : Chip) : Chip :=
  let new := sizeState m
  if (List.range 6).all (fun i => csr m (0x43C + 4 * i) == nth new i) then m
  else
    let m1 := (List.range 6).foldl (fun c i => setCsr c (0x43C + 4 * i) (nth new i)) m
    setCsr m1 0x404 (csr m 0x404 + 1)

/-- A port's link is ACTIVE. -/
def portUp (m : Chip) (p : Nat) : Bool := fget m (LNKp_LINK_STATE p) == 5

/-- Station peers with an ACTIVE port, counted by the three mesh ports that lead to each (R511, R722). -/
def peersUp (m : Chip) : Nat :=
  ((List.range 7).filter (fun j => (List.range 3).any (fun i => portUp m (if 3 * j + i ≤ 10 then 3 * j + i else 3 * j + i + 7)))).length

/-- TWIN_STAT's view of the links (R739): P17 and P34 ACTIVE to the twin, and the quorum. -/
def twinBits (m : Chip) : Chip :=
  let up (p : Nat) : Nat := b2n (portUp m p && fget m TWIN_STAT_STATE != 0 && fget m (LNKp_LINK_FAR_MODULE p) == m.twin.twin)
  fset (fset (fset m TWIN_STAT_P17_UP (up 17)) TWIN_STAT_P34_UP (up 34)) TWIN_STAT_QUORUM_OK (b2n (decide (fget m TWIN_CTRL_QUORUM ≤ peersUp m)))

/-! ### The start record (R682, R683) -/

/-- Line i of the start record, DA[47:7]: it lies at the foot of BD-N's reserved range. -/
def recLine (i : Nat) : Nat := 0xE000FC000000 / 128 + i

/-- The entries of one direction of a unit's lane map. -/
def mapSize (u : Nat) : Nat := if u = 8 then 56 else 288

/-- The key of an entry. -/
def eKey (dir e : Nat) : Nat := dir * 512 + e

/-- A lane map, a stack's training, a unit's service state or the pairing has changed: the record is due. -/
def recMark (m : Chip) : Chip := { m with start := { m.start with recDue := true } }

/-- The lines of the record. -/
def recLines : Nat := 175

/-- The first line and the number of lines of a unit's lane map. -/
def mapLines (u : Nat) : Nat × Nat := (27 + 18 * u, if u = 8 then 4 else 18)

/-- Word k of a unit's saved lane map: both directions in turn, each entry as its difference from the plain one. -/
def savedWord (m : Chip) (u k : Nat) : Nat := if k < 2 * mapSize u then tget 0 (eKey (k / mapSize u) (k % mapSize u)) (d2dUnit m u).saved else 0

/-- The units out of service by command: dies, stacks and ports as masks. -/
def outUnits (m : Chip) : List Nat :=
  let ports := maskN 36 (fun p => (tget {} p m.ports).oos && !fon m (LNKp_CFG_OOS p))
  [maskN 8 (fun d => (d2dUnit m d).byCmd), maskN 24 (fun s => (stack m s).byCmd && !(stack m s).byReg), ports % 2 ^ 32, ports / 2 ^ 32]

/-- The words of line i: the header, the units out of service by command, the pairing, the training of each stack, the lane maps. -/
def recWords (m : Chip) (i : Nat) : List Nat :=
  if i = 0 then [recLines]
  else if i = 1 then outUnits m
  else if i = 2 then [fget m TWIN_STAT_STATE, m.twin.twin] ++ lohi m.twin.keepCtl
  else if i < 27 then (List.range 32).map (fun k => let t := (stack m (i - 3)).setting; tget 0 (2 * k) t % 65536 + tget 0 (2 * k + 1) t % 65536 * 65536)
  else
    let u := min 8 ((i - 27) / 18)
    (List.range 32).map (fun k => savedWord m u ((i - (mapLines u).1) * 32 + k))

/-- Mioto writes the start record: each line that has changed (R682). -/
def writeRecord (m0 : Chip) : Chip :=
  let m := { m0 with start := { m0.start with recDue := false } }
  (List.range recLines).foldl (fun c i =>
    let d := fit 128 0#8 (wordBytes (recWords m i))
    if rawLine c (recLine i) = goodLine d then c else (writeLine c (recLine i) (goodLine d) true).2) m

/-- The record is brought up to date while the module is READY. -/
def recKeep (m : Chip) : Chip := if m.start.recDue && m.start.phase == 5 then writeRecord m else m

/-! ### Running a command -/

/-- The end of every step of the powered module: the start record, the links' view, the size table, then the records and notices of the step. -/
def settle (m : Chip) : Chip := emitAll 4 (sizeRefresh (twinBits (recKeep m)))

/-- The module acts: it has its rails (R2), is not held in reset (R807), and is not role-fatal (R579). -/
def acts (s : State) : Bool := s.board.rails && s.chip.start.phase != 0 && s.chip.start.phase != 7

/-- Run an effect on the module while it acts. -/
def run (s : State) (f : Chip → Chip) : Host.Outcome State Fault Refusal :=
  if acts s then .next { s with chip := settle (f s.chip) } else .next s

/-- Run an effect where its condition holds; otherwise the event cannot come about and nothing changes. -/
def runIf (s : State) (c : Chip → Bool) (f : Chip → Chip) : Host.Outcome State Fault Refusal :=
  run s (fun m => if c m then f m else m)

end Sys2Proof.Machine
end

