-- ==== Sys2Proof/Machine/CtrlSpace.lean ====
section
/-! DEFINITION. Control space: register writes by field type, the _LO and _HI pairs, the counters' clear, and erring accesses
(R24 to R31, R823). -/

namespace Sys2Proof.Machine

/-- Write v to one field of the register at off, by its type (R24, R28): RW stores a legal encoding, RW1C clears the bits
written 1, RO and WO store nothing. -/
def writeField (m : Chip) (off v : Nat) (f : FDef) : Chip :=
  let new := bitsN v f.hi f.lo
  match f.ty with
  | .rw => if f.ok new then fset m ⟨off, f.hi, f.lo⟩ new else m
  | .w1c => fset m ⟨off, f.hi, f.lo⟩ (fget m ⟨off, f.hi, f.lo⟩ - (fget m ⟨off, f.hi, f.lo⟩ &&& new))
  | _ => m

/-- Write a register's fields by their types. The INDEX of D2D_MAP_SEL is limited to 55 for the coupler (R583). -/
def writeFields (m : Chip) (off v : Nat) : Chip :=
  match regFields off with
  | none => m
  | some fs =>
    let m1 := fs.foldl (fun c f => writeField c off v f) m
    if off = D2D_MAP_SEL_UNIT.off ∧ fget m1 D2D_MAP_SEL_UNIT = 8 ∧ fget m1 D2D_MAP_SEL_INDEX > 55
    then fset m1 D2D_MAP_SEL_INDEX (min 55 (fget m D2D_MAP_SEL_INDEX)) else m1

/-- Writes to these registers, or of these values, are commands of their own. -/
def ownRow (m : Chip) (off v : Nat) : Bool :=
  off == 0x20004 || off == 0x40008 || off == 0x50010 || off == 0x5000C || off == 0x80014 || off == 0x90014 ||
  (runIndex 0x91000 4 64 off).isSome || (runIndex 0x701C4 0x100 36 off).isSome ||
  (off == 0x30000 && bitsN v 23 16 != 0) ||
  ((runIndex 0xA0010 8 4 off).isSome && tb v 31) ||
  ((runIndex 0x60100 0x100 24 off).isSome && bitN v 0 != bitN (csr m off) 0) ||
  ((runIndex 0x70100 0x100 36 off).isSome && (bitN v 31 != bitN (csr m off) 31 || bitsN v 19 16 != bitsN (csr m off) 19 16 ||
    bitsN v 10 8 != bitsN (csr m off) 10 8)) ||
  ((runIndex 0x7010C 0x100 36 off).isSome && tb v 31) ||
  (off == 0x90000 && !tb v 2)

/-- The throttle level in force on a stack: the larger of its readings' level and FORCE_LEVEL (R456). -/
def setLevel (m : Chip) (s : Nat) : Chip :=
  let old := fget m (HBMs_STAT_LEVEL s)
  let new := max (stack m s).level (fget m (HBMs_CTRL_FORCE_LEVEL s))
  if new = old then m
  else
    let m1 := fset (fset m (HBMs_STAT_LEVEL s) new) (HBMs_STAT_LEVEL_CHANGE s) 1
    let m2 := fset m1 HBM_STAT_THROTTLED (putBit (fget m1 HBM_STAT_THROTTLED) s (decide (1 ≤ new)))
    if (old = 3) != (new = 3) then notice m2 2 [s + new * 256] else m2

/-- What a plain register write brings beyond its fields: FORCE_LEVEL acts at once (R456), and a software write of ARM stands (R79). -/
def afterWrite (m : Chip) (off : Nat) : Chip :=
  if off = TT_CTRL_ARM.off then { m with lt := { m.lt with armDue := false } }
  else match runIndex 0x60100 0x100 24 off with
    | some s => setLevel m s
    | none => m

/-- A regulator whose MODE has left 0 starts with full credits: 8 × RATE (R385, R388). -/
def regStart (old m : Chip) (k : Nat) : Chip :=
  if fget old (CON_REGk_CFG_MODE k) = 0 ∧ fget m (CON_REGk_CFG_MODE k) ≠ 0
  then { m with credits := tput 0 k (8 * fget m (CON_REGk_CFG_RATE k)) m.credits, refillAt := tput 0 k m.ns m.refillAt } else m

/-- REGISTER_WRITE (R24, R28, R30): each field by its type; a counter's registers take no plain write; the mask pair of the flip
takes effect together at its _LO write. -/
def doRegisterWrite (off v : Nat) (m : Chip) : Chip :=
  if off % 4 ≠ 0 ∨ !regDefined off ∨ isCtrLo off ∨ isCtrHi off ∨ ownRow m off v then m
  else if off = 0x3000C then { m with hiHeld := tput 0 off (v + 1) m.hiHeld }
  else if off = 0x30008 then
    let m1 := setCsr m off v
    match tget 0 0x3000C m.hiHeld with
    | 0 => m1
    | h + 1 => setCsr { m1 with hiHeld := tput 0 0x3000C 0 m1.hiHeld } 0x3000C h
  else match runIndex 0x40100 4 64 off with
    | some k => regStart m (writeFields m off v) k
    | none => afterWrite (writeFields m off v) off

/-- Meaning of REGISTER_WRITE. -/
def execRegisterWrite (off : Nat) (val : Word) (s : State) : Host.Outcome State Fault Refusal :=
  run s (doRegisterWrite off val.toNat)

/-- The tablets available to send on a virtual channel of a port. -/
def tabAvail (m : Chip) (p v : Nat) : Nat := nth (tget {} p m.ports).avail v

/-- What a read of a register returns (R24), computed where the register mirrors the machine's state. -/
def regRead (m : Chip) (off : Nat) : Nat :=
  if off = 0x10008 then now m % 2 ^ 32
  else if off = 0x1000C then now m / 2 ^ 32 % 2 ^ 32
  else if off = TT_ROWS_STAT_USED.off then
    (m.rows.filter (fun r => r.2.any (·.mioto))).length * 2 ^ 16 + (m.rows.filter (fun r => r.2.isSome)).length
  else if off = PTS_TBL_DATA_ENTRY.off then tget 0 (fget m PTS_TBL_IDX_INDEX) m.pts.table
  else if off = BUF_SIDING_STAT_N_LINES.off then (sidingOf m 1).length * 2 ^ 16 + (sidingOf m 0).length
  else if off = BUF_EVB_STAT_N_LINES.off then (evOf m 1).length * 2 ^ 16 + (evOf m 0).length
  else match runIndex 0x701CC 0x100 36 off with
    | some p => tabAvail m p 1 * 2 ^ 16 + tabAvail m p 0
    | none =>
      match runIndex 0x701D0 0x100 36 off with
      | some p => tabAvail m p 3 * 2 ^ 16 + tabAvail m p 2
      | none => csr m off

/-- READ_LO_LATCH (R29): a read of _LO latches _HI; the next read of _HI returns the latched word. Any other defined
register is read as it stands. -/
def doReadLoLatch (off : Nat) (m : Chip) : Chip :=
  if off % 4 ≠ 0 ∨ !regDefined off then m
  else if isPairLo off then { m with latch := tput 0 (off + 4) (regRead m (off + 4) + 1) m.latch, out := some (regRead m off) }
  else if isPairHi off then
    match tget 0 off m.latch with
    | 0 => { m with out := some (regRead m off) }
    | h + 1 => { m with latch := tput 0 off 0 m.latch, out := some h }
  else { m with out := some (regRead m off) }

/-- Meaning of READ_LO_LATCH. -/
def execReadLoLatch (off : Nat) (s : State) : Host.Outcome State Fault Refusal := run s (doReadLoLatch off)

/-- COUNTER_OVF_CLEAR (R31): a write of 1 to OVF clears it and sets the counter to 0. -/
def doCounterOvfClear (off v : Nat) (m : Chip) : Chip :=
  if isCtrHi off ∧ tb v 31 then setCsr (setCsr m off 0) (off - 4) 0 else m

/-- Meaning of COUNTER_OVF_CLEAR. -/
def execCounterOvfClear (off : Nat) (val : Word) (s : State) : Host.Outcome State Fault Refusal :=
  run s (doCounterOvfClear off val.toNat)

/-- CTRL_ACCESS_ERROR (R26): an access that is not an aligned 32-bit one completes with an error and is not applied. -/
def doCtrlAccessError (off size : Nat) (m : Chip) : Chip := if size = 4 ∧ off % 4 = 0 then m else { m with out := none }

/-- Meaning of CTRL_ACCESS_ERROR. -/
def execCtrlAccessError (off size : Nat) (_write : Bool) (s : State) : Host.Outcome State Fault Refusal :=
  run s (doCtrlAccessError off size)

/-- UNDEFINED_REG_ACCESS (R823, R754): an error on the path, and a record of KIND 7 with ADDR_TYPE 3, of the host port. -/
def doUndefinedRegAccess (off : Nat) (m : Chip) : Chip :=
  if off % 4 = 0 ∧ !regDefined off then recErr { m with out := none } 1 8 7 0 (5, 0, 0) off 3 0 0 0 else m

/-- Meaning of UNDEFINED_REG_ACCESS. -/
def execUndefinedRegAccess (off : Nat) (_write : Bool) (s : State) : Host.Outcome State Fault Refusal :=
  run s (doUndefinedRegAccess off)

end Sys2Proof.Machine
end

