-- ==== Sys2Proof/Machine/Mb.lean ====
section
/-! DEFINITION. Mailbox plumbing that every command shares: the request, the response, completion, and the ring completions
(R622 to R629, R636 to R641). -/

namespace Sys2Proof.Machine

/-- Request word w of mailbox i (R622, R664). -/
def reqWord (m : Chip) (i w : Nat) : Nat := csr m (0xA1000 + 0x1000 * i + 4 * w)

/-- Payload words of the request in mailbox i, n of them (R628). -/
def reqPay (m : Chip) (i n : Nat) : List Nat := (List.range n).map (fun w => reqWord m i (w + 2))

/-- Write response words from word w on. -/
def putResp (m : Chip) (i w : Nat) (ws : List Nat) : Chip :=
  (ws.foldl (fun (p : Nat × Chip) v => (p.1 + 1, setCsr p.2 (0xA1800 + 0x1000 * i + 4 * p.1) v)) (w, m)).2

/-- The command running in mailbox i. -/
def mbRun (m : Chip) (i : Nat) : Option MbRun := m.mb.getD i none

/-- Set the command of mailbox i. -/
def setMb (m : Chip) (i : Nat) (r : Option MbRun) : Chip := { m with mb := setAt m.mb i r }

/-- Change the command of mailbox i. -/
def modMb (m : Chip) (i : Nat) (f : MbRun → MbRun) : Chip := setMb m i ((mbRun m i).map f)

/-- Complete the command of mailbox i with a status, DETAIL and a payload: every response word, then DONE (R625, R629, R631). -/
def respondD (m : Chip) (i st detail : Nat) (pay : List Nat) : Chip :=
  let m1 := putResp m i 0 ([st * 2 ^ 16 + pay.length, reqWord m i 1, detail] ++ pay)
  let m2 := bump (fset (fset m1 (MBm_STAT_STATE i) 2) (MBm_STAT_DONE_COUNT i) (fget m1 (MBm_STAT_DONE_COUNT i) + 1)) MB_CMD_CTR 1
  let m3 := if st = 2 ∨ st = 3 ∨ st = 4 then bump m2 MB_REJECT_CTR 1 else m2
  msix (setMb m3 i none) (fget m3 (MBm_CTRL_VECTOR i))

/-- Complete with DETAIL 0. -/
def respond (m : Chip) (i st : Nat) (pay : List Nat) : Chip := respondD m i st 0 pay

/-- Complete with a status and no payload. -/
def fail (m : Chip) (i st : Nat) : Chip := respondD m i st 0 []

/-- Mailbox i holds a command of this code that is ready to run. -/
def cmdReady (m : Chip) (i code : Nat) : Bool := (mbRun m i).any (fun r => r.code == code && r.phase == 1)

/-- The payload of the command in mailbox i. -/
def cmdPay (m : Chip) (i : Nat) : List Nat := ((mbRun m i).map (·.pay)).getD []

/-- The start time of the command in mailbox i. -/
def cmdT0 (m : Chip) (i : Nat) : Nat := ((mbRun m i).map (·.t0)).getD m.ns

/-- The command goes on running after its first step. -/
def cmdOn (m : Chip) (i : Nat) (aux : List Nat) : Chip := modMb m i (fun r => { r with phase := 2, aux := aux })

/-- The numbers a running command keeps. -/
def cmdAux (m : Chip) (i : Nat) : List Nat := ((mbRun m i).map (·.aux)).getD []

/-- Mailbox i runs on a command of this code. -/
def cmdGoing (m : Chip) (i code : Nat) : Bool := (mbRun m i).any (fun r => r.code == code && r.phase == 2)

/-- Run a mailbox command: code, the mailbox, and its effect on the machine given the payload. -/
def runCmd (s : State) (i code : Nat) (f : List Nat → Chip → Chip) : Host.Outcome State Fault Refusal :=
  runIf s (fun m => cmdReady m i code) (fun m => f (cmdPay m i) m)

/-- Write the completion of entry SEQ of ring n: its words, SEQ and waybill, by the ring's flag mode, and send its message
(R606, R636, R637, R640, R658). While work is ended for a warm start the completion waits for the start's end (R644). -/
def putCompletion (m : Chip) (n seq : Nat) (ws : List Nat) : Chip :=
  match ring m n with
  | none => m
  | some r =>
    if m.start.phase = 6 then { m with start := { m.start with owed := m.start.owed ++ [(n, some (seq, ws))] } }
    else
    let slot := slotBytes m n
    let body := fit (slot / 4 - 2) 0 ws
    let da := r.compl + (seq % fget m (MB_RINGn_CFG_ENTRIES n)) * slot
    let m1 := mioStore m (some ownMioto) da (wordBytes (body ++ [seq, crcWords body]))
    let fast := fon m (MB_RINGn_CFG_FAST n)
    let path := fget m (MB_RINGn_CFG_PATH n)
    let m2 := emptyRa m1 (if fast then (if path < 2 then [path] else []) else [0, 1])
    msix m2 (fget m (MB_RINGn_CFG_VECTOR n))

/-- An accepted entry of ring n has completed. -/
def ringDone (m : Chip) (n : Nat) : Chip :=
  if m.start.phase = 6 then { m with start := { m.start with owed := m.start.owed ++ [(n, none)] } } else modRing m n (fun r => { r with live := r.live - 1 })

end Sys2Proof.Machine
end

