-- ==== Sys2Proof/Machine/Ports.lean ====
section
/-! DEFINITION. Fervin ports as other units use them: roles, far ends, flits to send, and the messages of Mioto (R510 to R522, R540). -/

namespace Sys2Proof.Machine

/-- Port p. -/
def port (m : Chip) (p : Nat) : Port := tget {} p m.ports

/-- Change port p. -/
def modPort (m : Chip) (p : Nat) (f : Port → Port) : Chip := { m with ports := tput {} p (f (port m p)) m.ports }

/-- The link state of port p (R529): 5 ACTIVE, 6 DRAIN. -/
def linkSt (m : Chip) (p : Nat) : Nat := fget m (LNKp_LINK_STATE p)

/-- The link of port p is ACTIVE. -/
def linkActive (m : Chip) (p : Nat) : Bool := linkSt m p == 5

/-- The mesh index of a port, if it has one (R510). -/
def meshIdx (p : Nat) : Option Nat := if p ≤ 10 then some p else if 18 ≤ p ∧ p ≤ 27 then some (p - 7) else none

/-- The port of a mesh index (R510). -/
def meshPort (i : Nat) : Nat := if i ≤ 10 then i else i + 7

/-- The torus role of a port: dimension 0 X, 1 Y, 2 Z, and direction 0 +, 1 - (R510). -/
def torusRole (p : Nat) : Option (Nat × Nat) :=
  if 11 ≤ p ∧ p ≤ 16 then some ((p - 11) / 2, (p - 11) % 2)
  else if 28 ≤ p ∧ p ≤ 33 then some ((p - 28) / 2, (p - 28) % 2) else none

/-- The two ports of a torus direction, ascending. -/
def torusPorts (d dir : Nat) : List Nat := [11 + 2 * d + dir, 28 + 2 * d + dir]

/-- The port is a twin port (R510). -/
def isTwinPort (p : Nat) : Bool := p == 17 || p == 34

/-- The base die of a port (R510). -/
def portDie (p : Nat) : Nat := if p ≤ 17 then 0 else 1

/-- The module's own slot (LNK_TOPO.SLOT). -/
def slotNum (m : Chip) : Nat := fget m LNK_TOPO_SLOT

/-- The module's own station. -/
def stationNum (m : Chip) : Nat := fget m LNK_TOPO_STATION

/-- The module's number, 0 while none is assigned. -/
def selfNum (m : Chip) : Nat := (moduleNum m).getD 0

/-- The size of dimension d: X, Y or Z (R512). -/
def dimSize (m : Chip) (d : Nat) : Nat :=
  2 ^ (match d with
    | 0 => fget m LNK_TOPO_X_LOG2
    | 1 => fget m LNK_TOPO_Y_LOG2
    | _ => fget m LNK_TOPO_Z_LOG2)

/-- Coordinate d of a station number (R512). -/
def coord (st d : Nat) : Nat :=
  match d with
  | 0 => bitsN st 2 0
  | 1 => bitsN st 5 3
  | _ => bitsN st 7 6

/-- A station number with coordinate d replaced. -/
def setCoord (st d v : Nat) : Nat :=
  match d with
  | 0 => setBitsN st 2 0 v
  | 1 => setBitsN st 5 3 v
  | _ => setBitsN st 7 6 v

/-- The station lies inside the system's dimensions (R512). -/
def inSystem (m : Chip) (st : Nat) : Bool := (List.range 3).all (fun d => decide (coord st d < dimSize m d))

/-- The station one further along dimension d in a direction, wrapping (R513). -/
def stationStep (m : Chip) (st d dir : Nat) : Nat :=
  setCoord st d ((coord st d + (if dir = 0 then 1 else dimSize m d - 1)) % dimSize m d)

/-- The far module and port that R511 and R513 give for a port; none where no far end is allowed or fixed. -/
def farEnd (m : Chip) (p : Nat) : Option (Nat × Nat) :=
  match meshIdx p with
  | some i =>
    some (stationNum m * 8 + (slotNum m + i / 3 + 1) % 8, meshPort (3 * (6 - i / 3) + i % 3))
  | none =>
    match torusRole p with
    | some (d, dir) =>
      if dimSize m d = 1 then none
      else some (stationStep m (stationNum m) d dir * 8 + slotNum m, if p ≤ 16 then 11 + 2 * d + (1 - dir) else 28 + 2 * d + (1 - dir))
    | none => none

/-- The mesh ports to the peer at a slot of this station, ascending (R511). -/
def meshTo (m : Chip) (slot : Nat) : List Nat :=
  ((List.range 21).filter (fun i => (slotNum m + i / 3 + 1) % 8 == slot)).map meshPort

/-- The usable mesh ports to the peer at a slot (R536). -/
def usableTo (m : Chip) (slot : Nat) : List Nat := (meshTo m slot).filter (linkActive m)

/-- The CRC-8 of a byte list: x^8 + x^2 + x + 1, initial value 0 (R520). -/
def crc8 (bs : List Byte) : Nat :=
  bs.foldl (fun c b => (List.range 8).foldl (fun c _ => if c ≥ 128 then ((c * 2) % 256) ^^^ 7 else (c * 2) % 256) (c ^^^ b.toNat)) 0

/-- The four header words of a flit with HCHK taken as given (R517). -/
def flitWords (f : Flit) (hchk : Nat) : List Nat :=
  [f.typ % 8 * 2 ^ 29 + f.lines % 64 * 2 ^ 23 + f.op % 8 * 2 ^ 20 + f.dtype % 4 * 2 ^ 18 + f.retCount % 64 * 2 ^ 12 + f.seq % 4096,
   f.dest % 2048 * 2 ^ 21 + f.src % 2048 * 2 ^ 10 + f.retVc % 4 * 2 ^ 8 + hchk % 256,
   f.addr % 2 ^ 32, f.addr / 2 ^ 32 % 512 * 2 ^ 23 + f.ack % 4096 * 2 ^ 11 + f.tag % 2048]

/-- The flit with its header check computed (R520). -/
def sealFlit (f : Flit) : Flit := { f with hchk := crc8 (wordBytes (flitWords f 0)) }

/-- The flit's header check matches and its encoding is one of R518 or R519. -/
def flitOk (f : Flit) : Bool :=
  f.hchk == crc8 (wordBytes (flitWords f 0)) &&
  match f.typ with
  | 0 => f.op == 0 && f.lines == 0
  | 1 => (f.op ≤ 3 && decide (1 ≤ f.lines) && decide (f.lines ≤ 32)) || (f.op == 7 && f.lines == 0)
  | 2 => (f.op == 0 && f.lines == 0) || (f.op == 1 && f.lines == 1) || (f.op == 2 && f.lines == 1) || (f.op == 3 && f.lines == 0)
  | 3 => (f.op == 0 && f.lines == 1) || (f.op == 1 && f.lines == 0) || (f.op == 2 && f.lines == 0) || (f.op == 3 && f.lines == 0)
  | 4 => decide (f.lines ≤ 4) && decide (1 ≤ f.op * 4 + f.dtype) && decide (f.op * 4 + f.dtype ≤ 10)
  | _ => false

/-- A flit of this module. -/
def mkFlit (m : Chip) (typ lines op dtype dest addr tag : Nat) (body : List Byte) : Flit :=
  { typ := typ, lines := lines, op := op, dtype := dtype, retCount := 0, seq := 0, dest := dest, src := selfNum m, retVc := 0,
    hchk := 0, addr := addr, ack := 0, tag := tag, body := body }

/-- A control flit of a KIND with body words (R519). -/
def ctlFlit (m : Chip) (kind : Nat) (ws : List Nat) : Flit := mkFlit m 4 (ws.length / 4) (kind / 4) (kind % 4) 0 0 0 (wordBytes ws)

/-- Queue a link-local control flit on a port. -/
def sendCtl (m : Chip) (p kind : Nat) (ws : List Nat) : Chip := modPort m p (fun q => { q with ctl := q.ctl ++ [ctlFlit m kind ws] })

/-- Queue a sequenced flit on a virtual channel of a port. -/
def sendVc (m : Chip) (p v : Nat) (f : Flit) : Chip :=
  modPort m p (fun q => { q with vcq := modAt q.vcq v (· ++ [f]), held := if v = 3 then q.held ++ [none] else q.held })

/-- Queue DEPART on every ACTIVE link, which goes to DRAIN (R532, R670). -/
def departAll (m : Chip) (reason : Nat) : Chip :=
  (List.range 36).foldl (fun c p =>
    if linkActive c p then modPort (fset (sendCtl c p 8 [reason, 0, 0, 0]) (LNKp_LINK_STATE p) 6) p (fun q => { q with drainT0 := c.ns }) else c) m

/-- The first hop of a routed message to a module (R540): the port, if one is usable. This module is at slot k of station st. -/
def routePort (m : Chip) (dest : Nat) : Option Nat :=
  let st := dest / 8
  let j := dest % 8
  if st = stationNum m ∧ j = slotNum m then none
  else if j ≠ slotNum m then (usableTo m j).head?
  else
    (firstIdx 3 (fun d => coord st d != coord (stationNum m) d)).bind (fun d =>
      let n := dimSize m d
      let fwd := (coord st d + n - coord (stationNum m) d) % n
      ((torusPorts d (if 2 * fwd ≤ n then 0 else 1)).filter (linkActive m)).head?)

/-- The module that holds a role as far as this module knows: the alias table's holder, or the role's own module (R726). -/
def holderOf (m : Chip) (role : Nat) : Nat :=
  match tget 0 role m.twin.alias_ with
  | 0 => role
  | h + 1 => h

/-- Send a routed control flit towards a module, or count it unroutable (R540, R726). ws is its body, in units of four words. -/
def sendRouted (m : Chip) (dest : Nat) (ws : List Nat) : Chip :=
  if decide (holderOf m dest = selfNum m) then m
  else match routePort m (holderOf m dest) with
    | some p => sendVc m p 3 { (ctlFlit m 10 ws) with dest := dest }
    | none => bump m LNK_UNROUTE_CTR 1

end Sys2Proof.Machine
end

