-- ==== Sys2Proof/Machine/Operands.lean ====
section
/-! DEFINITION. The instruction word of the cores: its fields (R174, R182 to R187), the operands each opcode names (R177 to R179), the checks of
R181, and reading and writing operands. -/

namespace Sys2Proof.Machine

/-! ### Fields -/

/-- OPCODE. -/
def iOp (w : Nat) : Nat := bitsN w 63 56
/-- DST of formats R, I and A, DATA of format M. -/
def iDst (w : Nat) : Nat := bitsN w 50 43
/-- SRC_A of formats R and I. -/
def iA (w : Nat) : Nat := bitsN w 42 35
/-- SRC_B of format R. -/
def iB (w : Nat) : Nat := bitsN w 34 27
/-- SRC_C of format R. -/
def iC (w : Nat) : Nat := bitsN w 26 19
/-- RND of format R. -/
def iRnd (w : Nat) : Nat := bitsN w 18 16
/-- RND of format I. -/
def iRndI (w : Nat) : Nat := bitsN w 34 32
/-- NEG_A. -/
def iNegA (w : Nat) : Bool := tb w 15
/-- NEG_B. -/
def iNegB (w : Nat) : Bool := tb w 14
/-- ABS_A. -/
def iAbsA (w : Nat) : Bool := tb w 13
/-- SAT. -/
def iSat (w : Nat) : Bool := tb w 12
/-- FTZ. -/
def iFtz (w : Nat) : Bool := tb w 11
/-- PSEL. -/
def iPsel (w : Nat) : Nat := bitsN w 10 8
/-- AUX. -/
def iAux (w : Nat) : Nat := bitsN w 7 0
/-- IMM32. -/
def iImm (w : Nat) : Nat := bitsN w 31 0
/-- VOFF of formats M and A. -/
def iVoff (w : Nat) : Nat := bitsN w 42 36
/-- VOFF_EN. -/
def iVoffEn (w : Nat) : Bool := tb w 35
/-- UBASE. -/
def iUbase (w : Nat) : Nat := bitsN w 34 30
/-- FORM: 0 DA, 1 GA, 2 scratch. -/
def iForm (w : Nat) : Nat := bitsN w 29 28
/-- SIZE of formats M and A. -/
def iSize (w : Nat) : Nat := bitsN w 27 25
/-- SEXT of format M. -/
def iSext (w : Nat) : Bool := tb w 24
/-- BYPASS of format M. -/
def iBypass (w : Nat) : Bool := tb w 23
/-- RET of format A. -/
def iRet (w : Nat) : Bool := tb w 24
/-- ORD: bits [22:21] in format M, [23:22] in format A. -/
def iOrd (w : Nat) : Nat := if 0xB0 ≤ iOp w ∧ iOp w ≤ 0xBB then bitsN w 23 22 else bitsN w 22 21
/-- SCOPE: bits [20:19] in format M, [21:20] in format A. -/
def iScope (w : Nat) : Nat := if 0xB0 ≤ iOp w ∧ iOp w ≤ 0xBB then bitsN w 21 20 else bitsN w 20 19
/-- SRC_B of format A. -/
def iAtB (w : Nat) : Nat := bitsN w 19 12
/-- SRC_C of format A. -/
def iAtC (w : Nat) : Nat := bitsN w 11 4
/-- SUBOP of format A. -/
def iSubop (w : Nat) : Nat := bitsN w 3 0
/-- TD of format T. -/
def iTd (w : Nat) : Nat := bitsN w 50 49
/-- SRC_A of format T. -/
def iTa (w : Nat) : Nat := bitsN w 48 41
/-- SRC_B of format T. -/
def iTb (w : Nat) : Nat := bitsN w 40 33
/-- FMT_A. -/
def iFmtA (w : Nat) : Nat := bitsN w 32 29
/-- FMT_B. -/
def iFmtB (w : Nat) : Nat := bitsN w 28 25
/-- SPARSE. -/
def iSparse (w : Nat) : Nat := bitsN w 24 23
/-- META. -/
def iMeta (w : Nat) : Nat := bitsN w 22 15
/-- SCALE. -/
def iScale (w : Nat) : Nat := bitsN w 14 7
/-- ACC. -/
def iAcc (w : Nat) : Bool := tb w 6
/-- ZSKIP. -/
def iZskip (w : Nat) : Bool := tb w 5
/-- TARGET of format C, signed, in instructions. -/
def iTarget (w : Nat) : Int := sgn 24 (bitsN w 50 27)
/-- RECONV of format C, signed, in instructions. -/
def iReconv (w : Nat) : Int := sgn 24 (bitsN w 26 3)
/-- LINK of CALL. -/
def iLink (w : Nat) : Nat := bitsN w 26 22

/-- A bit mask over bits [hi:lo]. -/
def msk (hi lo : Nat) : Nat := (2 ^ (hi + 1 - lo) - 1) * 2 ^ lo

/-- How an instruction executes (R188). -/
inductive Exec where
  | thread | group | tile
  deriving DecidableEq, Repr

/-- Bits [50:0] that an opcode of class 0x0 to 0x3 may have set, and how it executes (R182, R183, R186, R190 to R194). -/
def opInt (op : Nat) : Option (Exec × Nat) :=
  let dab := msk 50 27
  match op with
  | 0x00 => some (.group, 0)
  | 0x01 => some (.thread, msk 50 3)
  | 0x02 => some (.group, msk 50 22)
  | 0x03 => some (.group, msk 42 35)
  | 0x04 => some (.thread, 0)
  | 0x05 => some (.thread, msk 1 0)
  | 0x06 => some (.thread, msk 31 0)
  | 0x10 => some (.thread, dab + msk 12 12)
  | 0x11 => some (.thread, dab + msk 12 12)
  | 0x13 => some (.thread, dab + 1)
  | 0x14 => some (.thread, msk 50 19)
  | 0x15 => some (.thread, dab + 1)
  | 0x16 => some (.thread, dab + 1)
  | 0x18 => some (.thread, dab + 1)
  | 0x1C => some (.thread, msk 50 35)
  | 0x1D => some (.thread, msk 50 35)
  | 0x1E => some (.thread, dab + 1)
  | 0x1F => some (.thread, msk 50 19)
  | 0x30 => some (.thread, msk 50 35)
  | 0x31 => some (.thread, msk 50 43 + msk 31 0)
  | 0x32 => some (.thread, dab + msk 10 8)
  | 0x33 => some (.thread, msk 50 19)
  | 0x34 => some (.thread, dab + msk 1 0)
  | 0x35 => some (.thread, msk 50 43 + msk 7 0)
  | 0x36 => some (.thread, dab)
  | _ =>
    if op = 0x12 ∨ op = 0x17 ∨ (0x19 ≤ op ∧ op ≤ 0x1B) then some (.thread, dab)
    else if 0x20 ≤ op ∧ op ≤ 0x2F ∧ op ≠ 0x2C ∧ op ≠ 0x2D then some (.thread, msk 50 35 + msk 31 0)
    else none

/-- The same for classes 0x4 to 0x9 (R195 to R210). -/
def opFp (op : Nat) : Option (Exec × Nat) :=
  let dab := msk 50 27
  match op with
  | 0x42 => some (.thread, msk 50 11)
  | 0x62 => some (.thread, msk 50 11 + 1)
  | 0x70 => some (.thread, msk 50 35 + msk 21 16 + msk 12 0)
  | 0x80 => some (.thread, msk 45 27 + msk 10 8 + msk 6 0)
  | 0x81 => some (.thread, msk 45 27 + msk 15 13 + msk 11 8 + msk 6 5 + msk 3 0)
  | 0x82 => some (.thread, msk 45 43 + msk 37 35 + msk 29 27 + msk 15 14 + msk 1 0)
  | 0x83 => some (.thread, msk 50 43 + msk 37 35 + msk 1 0)
  | 0x84 => some (.thread, msk 50 43)
  | 0x85 => some (.thread, msk 42 35 + msk 7 0)
  | 0x98 => some (.group, msk 50 35)
  | 0x99 => some (.group, msk 50 43 + msk 31 0)
  | 0x9A => some (.group, dab)
  | 0x9B => some (.group, msk 45 27 + msk 10 8 + msk 6 0)
  | 0x9C => some (.group, msk 50 43 + msk 7 0)
  | _ =>
    if 0x40 ≤ op ∧ op ≤ 0x44 then some (.thread, dab + msk 18 11)
    else if 0x50 ≤ op ∧ op ≤ 0x54 then some (.thread, msk 50 0)
    else if 0x60 ≤ op ∧ op ≤ 0x64 then some (.thread, dab + msk 18 11 + 1)
    else if 0x71 ≤ op ∧ op ≤ 0x76 then some (.thread, msk 50 35 + msk 15 15 + msk 13 13)
    else if 0x90 ≤ op ∧ op ≤ 0x97 then some (.group, dab)
    else none

/-- The same for classes 0xA to 0xC (R215 to R232). -/
def opMem (op : Nat) : Option (Exec × Nat) :=
  match op with
  | 0xA0 => some (.thread, msk 50 0)
  | 0xA1 => some (.thread, msk 50 25 + msk 22 0)
  | 0xA2 => some (.group, msk 20 19)
  | 0xA3 => some (.group, 0)
  | 0xA4 => some (.group, msk 50 43 + msk 34 25 + msk 23 0)
  | 0xA5 => some (.group, msk 42 27 + msk 10 8 + msk 4 0)
  | 0xBA => some (.thread, msk 50 4)
  | 0xBB => some (.group, msk 34 25 + msk 19 12 + msk 3 0)
  | 0xC0 => some (.tile, msk 50 5)
  | 0xC1 => some (.tile, msk 50 49)
  | 0xC2 => some (.tile, msk 50 43 + msk 1 0)
  | 0xC3 => some (.tile, msk 42 35 + msk 1 0)
  | 0xC4 => some (.tile, msk 44 43 + msk 34 25 + msk 22 0)
  | _ => if 0xB0 ≤ op ∧ op ≤ 0xB9 then some (.thread, msk 50 12) else none

/-- What R188 gives an opcode: how it executes and the bits of [50:0] it may have set; none for a reserved opcode (R189). -/
def opInfo (op : Nat) : Option (Exec × Nat) := ((opInt op).or (opFp op)).or (opMem op)

/-! ### Matrix operand shapes (R244, R248) -/

/-- Format codes of MX8: MXFP8 and MXFP6. -/
def isMx8 (f : Nat) : Bool := decide (4 ≤ f) && decide (f ≤ 7)

/-- The class of a pair of formats (R244): K_d, bits of an A element, bits of a B element, integer, MX. -/
structure MmaClass where
  kd : Nat
  abits : Nat
  bbits : Nat
  int : Bool := false
  mx : Bool := false
  deriving DecidableEq, Repr

/-- The class that FMT_A and FMT_B form, none when the pair is not allowed. -/
def mmaClass (fa fb : Nat) : Option MmaClass :=
  if (fa = 0 ∧ fb = 0) ∨ (fa = 1 ∧ fb = 1) then some ⟨32, 16, 16, false, false⟩
  else if (fa = 2 ∨ fa = 3) ∧ (fb = 2 ∨ fb = 3) then some ⟨64, 8, 8, false, false⟩
  else if isMx8 fa && isMx8 fb then some ⟨64, 8, 8, false, true⟩
  else if fa = 8 ∧ fb = 8 then some ⟨64, 8, 8, true, false⟩
  else if fa = 10 ∧ fb = 10 then some ⟨128, 4, 4, false, false⟩
  else if fa = 9 ∧ fb = 9 then some ⟨128, 4, 4, false, true⟩
  else if fa = 11 ∧ fb = 11 then some ⟨128, 4, 4, true, false⟩
  else if fa = 9 ∧ isMx8 fb then some ⟨64, 4, 8, false, true⟩
  else if fa = 11 ∧ fb = 8 then some ⟨64, 4, 8, true, false⟩
  else none

/-- The factor f of R241. -/
def sparseF (sp : Nat) : Nat :=
  match sp with
  | 0 => 1
  | 3 => 4
  | _ => 2

/-- K_l of R241. -/
def mmaKl (c : MmaClass) (sp : Nat) : Nat := c.kd * sparseF sp

/-- Registers of A, B, META and SCALE (R248); 0 for an operand the MMA does not use. -/
def mmaRegs (c : MmaClass) (sp : Nat) : Nat × Nat × Nat × Nat :=
  (32 * c.kd * c.abits / 8 / 256, 32 * mmaKl c sp * c.bbits / 8 / 256,
   if sp = 0 then 0 else 32 * c.kd * 2 / 2048, if c.mx then cdiv (2 * mmaKl c sp) 256 else 0)

/-! ### The register operands of a word -/

/-- What a register field may name: a source (v, u, ZERO), a destination (v, ZERO), u or ZERO, u only, v only (a matrix fragment). -/
inductive Role where
  | src | dst | uz | u | v
  deriving DecidableEq, Repr

/-- A register operand: the field's value, the registers it takes and its role. -/
abbrev RegOp := Nat × Nat × Role

/-- Registers of an access of SIZE (R179): 1, or 2 for 8 B and 4 for 16 B. -/
def sizeRegs (sz : Nat) : Nat :=
  match sz with
  | 3 => 2
  | 4 => 4
  | _ => 1

/-- UBASE and VOFF as operands. -/
def addrOps (w : Nat) : List RegOp :=
  (if iForm w = 2 then [] else [(0x80 + 2 * iUbase w, 2, Role.u)]) ++ (if iVoffEn w then [(iVoff w, 1, Role.src)] else [])

/-- The operands of an MMA. -/
def mmaOps (w : Nat) : List RegOp :=
  match mmaClass (iFmtA w) (iFmtB w) with
  | none => []
  | some c =>
    let n := mmaRegs c (iSparse w)
    [(iTa w, n.1, Role.v), (iTb w, n.2.1, .v)] ++ (if n.2.2.1 = 0 then [] else [(iMeta w, n.2.2.1, .v)]) ++
      (if n.2.2.2 = 0 then [] else [(iScale w, n.2.2.2, .v)])

/-- The register operands that a word names (R177 to R179). -/
def regOps (w : Nat) : List RegOp :=
  let d : RegOp := (iDst w, 1, .dst)
  let a : RegOp := (iA w, 1, .src)
  let b : RegOp := (iB w, 1, .src)
  let c : RegOp := (iC w, 1, .src)
  match iOp w with
  | 0x02 => [(0x80 + 2 * iLink w, 2, .u)]
  | 0x03 => [(iA w, 2, .u)]
  | 0x14 => [d, a, b, c]
  | 0x1C => [d, a]
  | 0x1D => [d, a]
  | 0x1F => [d, a, b, c]
  | 0x30 => [d, a]
  | 0x31 => [d]
  | 0x33 => [d, a, b, c]
  | 0x35 => [d]
  | 0x36 => [(iDst w, 2, .dst), (iA w, 2, .src), (iB w, 2, .src)]
  | 0x42 => [d, a, b, c]
  | 0x62 => [d, a, b, c]
  | 0x80 => [a, b]
  | 0x81 => [a, b]
  | 0x83 => if iAux w % 4 = 2 then [(iDst w, 2, .u)] else []
  | 0x84 => [d]
  | 0x85 => [a]
  | 0x98 => [(iDst w, 1, .uz), (iA w, 1, .uz)]
  | 0x99 => [(iDst w, 1, .uz)]
  | 0x9A => [(iDst w, 2, .uz), (iA w, 2, .uz), (iB w, 2, .uz)]
  | 0x9B => [(iA w, 1, .uz), (iB w, 1, .uz)]
  | 0x9C => [if iAux w = 9 then (iDst w, 2, .u) else (iDst w, 1, .uz)]
  | 0xA0 => (iDst w, sizeRegs (iSize w), .dst) :: addrOps w
  | 0xA1 => (iDst w, sizeRegs (iSize w), .src) :: addrOps w
  | 0xA4 => (iDst w, sizeRegs (iSize w), .uz) :: addrOps w
  | 0xA5 => [(iA w, 2, .u), (iB w, 1, .uz)]
  | 0xBB => (iAtB w, 1, .u) :: addrOps w
  | 0xC0 => mmaOps w
  | 0xC2 => [(iDst w, 16, .dst)]
  | 0xC3 => [(iA w, 16, .src)]
  | 0xC4 => addrOps w
  | op =>
    if 0xB0 ≤ op ∧ op ≤ 0xBA then
      let n := sizeRegs (iSize w)
      (if iRet w then [(iDst w, n, .dst)] else []) ++ [(iAtB w, n, .src)] ++ (if op = 0xBA then [(iAtC w, n, .src)] else []) ++ addrOps w
    else if (0x20 ≤ op ∧ op ≤ 0x2F) ∨ (0x50 ≤ op ∧ op ≤ 0x54) ∨ (0x70 ≤ op ∧ op ≤ 0x76) then [d, a]
    else if 0x90 ≤ op ∧ op ≤ 0x97 then [(iDst w, 1, .uz), (iA w, 1, .uz), (iB w, 1, .uz)]
    else if (0x10 ≤ op ∧ op ≤ 0x34) ∨ (0x40 ≤ op ∧ op ≤ 0x64) then [d, a, b]
    else []

/-- The alignment of an operand of n registers (R179, R249). -/
def regAlign (n : Nat) : Nat := if n > 16 then 16 else n

/-- A register operand breaks R177, R178, R179 or R249. -/
def regBad (o : RegOp) : Bool :=
  let f := o.1
  decide (0xC0 < f) || f % max 1 (regAlign o.2.1) != 0 ||
  (match o.2.2 with
    | .src => false
    | .dst => decide (0x80 ≤ f) && f != 0xC0
    | .uz => decide (f < 0x80)
    | .u => decide (f < 0x80) || f == 0xC0
    | .v => decide (0x80 < f + o.2.1))

/-- A register operand names a v register beyond REGS (R105). -/
def regBeyond (regs : Nat) (o : RegOp) : Bool := decide (o.1 < 0x80) && decide (regs < o.1 + o.2.1)

/-! ### Encodings (R181) -/

/-- An encoding of classes 0x0 to 0x9 is reserved. -/
def encBadAlu (w : Nat) : Bool :=
  let op := iOp w
  let x := iAux w
  match op with
  | 0x01 => bitsN w 26 3 == 0
  | 0x35 => decide (10 < x) || x == 9
  | 0x70 =>
    let last (f : Nat) : Nat := match f with
      | 1 => 1 | 2 => 1 | 3 => 3 | 4 => 3 | 5 => 3 | 6 => 3 | 7 => 7 | 10 => 3 | 11 => 3 | 12 => 7
      | _ => 0
    decide (3 < iRnd w) || decide (12 < x / 16) || decide (12 < x % 16) || decide (last (x / 16) < iC w) || decide (last (x % 16) < iPsel w)
  | 0x80 => decide (5 < x % 16)
  | 0x81 => decide (5 < x % 16)
  | 0x9B => decide (5 < x % 16)
  | 0x82 => x == 3
  | 0x83 => x == 3 || (x != 2 && decide (7 < iDst w))
  | 0x9C => x == 0 || decide (10 < x)
  | _ => if 0x40 ≤ op ∧ op ≤ 0x44 ∨ 0x60 ≤ op ∧ op ≤ 0x64 then decide (3 < iRnd w)
    else if 0x50 ≤ op ∧ op ≤ 0x54 then decide (3 < iRndI w) else false

/-- ORD and SCOPE break R216 or R217; ords lists the allowed ORD values. -/
def ordBad (w : Nat) (ords : List Nat) : Bool :=
  !ords.contains (iOrd w) || (iOrd w == 0 && iScope w != 0) || (iOrd w != 0 && (decide (3 < iSize w) || iForm w == 2))

/-- An encoding of classes 0xA to 0xC is reserved (R184, R185, R215 to R218, R221, R223, R225, R227, R229, R232). -/
def encBadMem (w : Nat) : Bool :=
  let op := iOp w
  let mBad := iForm w == 3 || decide (4 < iSize w) || (iForm w == 2 && iUbase w != 0)
  match op with
  | 0xA0 => mBad || ordBad w [0, 1] || (iSext w && decide (1 < iSize w))
  | 0xA1 => mBad || ordBad w [0, 2]
  | 0xA4 => mBad || ordBad w [0, 1] || iForm w == 2 || (iSize w != 2 && iSize w != 3)
  | 0xA5 =>
    let t := iAux w % 32
    (decide (1 ≤ t) && decide (t ≤ 3)) || t == 31
  | 0xBB => iForm w != 0 || iSize w != 2 || decide (2 < iSubop w)
  | 0xC0 => (mmaClass (iFmtA w) (iFmtB w)).isNone || (iSparse w == 0 && iMeta w != 0) ||
      ((mmaClass (iFmtA w) (iFmtB w)).any (fun c => !c.mx) && iScale w != 0)
  | 0xC4 => iForm w == 3 || decide (2 < iSize w) || (iForm w == 2 && iUbase w != 0) || ordBad w [0, 2]
  | _ => if 0xB0 ≤ op ∧ op ≤ 0xBA then
      decide (1 < iForm w) || (iSize w != 2 && iSize w != 3) || ordBad w [0, 1, 2, 3] || (op == 0xB1 && iSize w == 3)
    else false

/-- The word raises ILLEGAL_INSTRUCTION (R181). -/
def illegal (w : Nat) : Bool :=
  match opInfo (iOp w) with
  | none => true
  | some (ex, used) =>
    (bitsN w 50 0 &&& (2 ^ 51 - 1 - used)) != 0 || (ex == .group && tb w 55) || (regOps w).any regBad || encBadAlu w || encBadMem w

/-- The word raises REG_RANGE on a thread of REGS registers (R105, R250). -/
def outOfRange (regs w : Nat) : Bool := (regOps w).any (regBeyond regs)

/-! ### Reading and writing operands -/

/-- All 64 threads. -/
def allThreads : Nat := 2 ^ 64 - 1

/-- The threads of a mask, ascending. -/
def lanes (mask : Nat) : List Nat := (List.range 64).filter (fun t => tb mask t)

/-- The threads a Thread or Tile instruction acts for: active, and the guard holds (R175, R233). -/
def acting (w : Nat) (g : Grp) : Nat :=
  if tb w 55 then
    let p := tget 0 (bitsN w 53 51) g.p
    g.active &&& (if tb w 54 then allThreads - p else p)
  else g.active

/-- The value of a register field in a thread, 32 bits (R177). -/
def rget (g : Grp) (f t : Nat) : Nat := (if f < 0x80 then tget 0 (64 * f + t) g.v else if f < 0xC0 then tget 0 (f - 0x80) g.u else 0) % 2 ^ 32

/-- The 64-bit value of a register pair in a thread, low word first. -/
def rget64 (g : Grp) (f t : Nat) : Nat := rget g f t + 2 ^ 32 * rget g (f + 1) t

/-- Write a register field in a thread; ZERO discards (R177). -/
def rput (g : Grp) (f t v : Nat) : Grp :=
  if f < 0x80 then { g with v := tput 0 (64 * f + t) (v % 2 ^ 32) g.v }
  else if f < 0xC0 then { g with u := tput 0 (f - 0x80) (v % 2 ^ 32) g.u }
  else g

/-- Write a register pair in a thread. -/
def rput64 (g : Grp) (f t v : Nat) : Grp := rput (rput g f t v) (f + 1) t (v / 2 ^ 32)

/-- Write DST in each thread of a mask with the values f gives, which are all read before any is written (R180). -/
def perThread (g : Grp) (mask dst : Nat) (f : Nat → Nat) : Grp :=
  ((lanes mask).map (fun t => (t, f t))).foldl (fun h p => rput h dst p.1 p.2) g

/-- Write a 64-bit DST in each thread of a mask. -/
def perThread64 (g : Grp) (mask dst : Nat) (f : Nat → Nat) : Grp :=
  ((lanes mask).map (fun t => (t, f t))).foldl (fun h p => rput64 h dst p.1 p.2) g

/-- The B operand: SRC_B, or IMM32 in format I (R191). -/
def srcB (w : Nat) (g : Grp) (t : Nat) : Nat := if 0x20 ≤ iOp w ∧ iOp w ≤ 0x2F ∨ 0x50 ≤ iOp w ∧ iOp w ≤ 0x54 then iImm w else rget g (iB w) t

/-- The C operand: SRC_C, or the previous value of DST in format I (R191). -/
def srcC (w : Nat) (g : Grp) (t : Nat) : Nat := if 0x20 ≤ iOp w ∧ iOp w ≤ 0x2F ∨ 0x50 ≤ iOp w ∧ iOp w ≤ 0x54 then rget g (iDst w) t else rget g (iC w) t

/-- The effective address of thread t in 64 bits (R215); the check of bits 63:48 in the DA form is with the other address checks. -/
def effAddr (w : Nat) (g : Grp) (t : Nat) : Nat :=
  let base := if iForm w = 2 then 0 else rget64 g (0x80 + 2 * iUbase w) 0
  let off := if iVoffEn w then rget g (iVoff w) t else 0
  let imm := if 0xB0 ≤ iOp w ∧ iOp w ≤ 0xBB then 0 else unsgn 64 (sgn 19 (bitsN w 18 0))
  (base + off + imm) % 2 ^ 64

/-- Bytes of an access of SIZE. -/
def accBytes (w : Nat) : Nat := 2 ^ iSize w

end Sys2Proof.Machine
end

