-- ==== Sys2Proof/Machine/Cores.lean ====
section
/-! DEFINITION. What the cores' instructions and events share: cores, groups and blocks, the end of blocks and launches, faults, the L0, the issue
of memory requests, and the issue of an instruction (R100 to R166, R234 to R239, R652 to R654). -/

namespace Sys2Proof.Machine

/-! ### Access -/

/-- Core c. -/
def core (m : Chip) (c : Nat) : Core := tget {} c m.cores

/-- Change core c. -/
def modCore (m : Chip) (c : Nat) (f : Core → Core) : Chip := { m with cores := tput {} c (f (core m c)) m.cores }

/-- The group in a slot of core c. -/
def grp (m : Chip) (c slot : Nat) : Option Grp := tget none slot (core m c).groups

/-- Set the group of a slot. -/
def setGrp (m : Chip) (c slot : Nat) (g : Option Grp) : Chip := modCore m c (fun k => { k with groups := tput none slot g k.groups })

/-- Change the group of a slot, when there is one. -/
def modGrp (m : Chip) (c slot : Nat) (f : Grp → Grp) : Chip := setGrp m c slot ((grp m c slot).map f)

/-- A block of core c. -/
def blk (m : Chip) (c b : Nat) : Option Blk := tget none b (core m c).blocks

/-- Change a block of core c, when it is there. -/
def modBlk (m : Chip) (c b : Nat) (f : Blk → Blk) : Chip := modCore m c (fun k => { k with blocks := tput none b ((tget none b k.blocks).map f) k.blocks })

/-- Launch l. -/
def launch (m : Chip) (l : Nat) : Option Launch := tget none l m.launches

/-- Set launch l. -/
def setLaunch (m : Chip) (l : Nat) (x : Option Launch) : Chip := { m with launches := tput none l x m.launches }

/-- Change launch l, when it is active. -/
def modLaunch (m : Chip) (l : Nat) (f : Launch → Launch) : Chip := setLaunch m l ((launch m l).map f)

/-- The compute die of a core: 320 cores each. -/
def dieOf (c : Nat) : Nat := c / 320

/-- The compute die is in service (R112). -/
def dieUp (m : Chip) (d : Nat) : Bool := fget m (D2D_CDd_STAT_STATE d) == 0

/-- The block id of a block of a launch. -/
def blkId (l num : Nat) : Nat := l * 2 ^ 32 + num

/-! ### The end of a launch (R652 to R654) -/

/-- TAG of a launch. -/
def launchTag (x : Launch) : Nat := bitsN (nth x.w 1) 31 16

/-- Owner of an error of a launch (R748). -/
def ownLaunch (m : Chip) (l : Nat) : Owner :=
  match launch m l with
  | some x => (1, x.ring, launchTag x)
  | none => (1, 0, 0)

/-- The completion record of a launch with a status (R654). -/
def launchRecord (m : Chip) (x : Launch) (st : Nat) : List Nat :=
  let fr := x.fault.getD ⟨0, 0, 0, 0, 0, 0, 0, 0⟩
  [st * 65536 + launchTag x, x.done, x.faulted, x.lost, fr.code * 2 ^ 24 + fr.group * 2 ^ 20 + fr.thread * 2 ^ 14 + fr.core, fr.block] ++
    lohi fr.pc ++ lohi fr.addr ++ [fr.trap, elapsed m x.t0]

/-- Complete a launch: the done word on OK and SKIPPED, then the record, and it is active no more (R653). -/
def endLaunch (m : Chip) (l st : Nat) : Chip :=
  match launch m l with
  | none => m
  | some x =>
    let ok := st = 0 ∨ st = 5
    let m1 := if ok ∧ tb (nth x.w 14) 31 then incWord m (1, x.ring, launchTag x) (0xE00000000000 + 4 * bitsN (nth x.w 14) 30 0) else m
    let m2 := if ok ∧ ¬ tb (nth x.w 0) 27 then m1 else putCompletion m1 x.ring x.seq (launchRecord m1 x st)
    setLaunch (ringDone m2 x.ring) l none

/-- The blocks of a launch: BLOCKS of its shape. -/
def launchBlocks (x : Launch) : Nat := nth x.w 5

/-- The launch has placed every block and none is resident: it completes with the first status that applies (R652). -/
def launchCheck (m : Chip) (l : Nat) : Chip :=
  match launch m l with
  | some x => if x.live = 0 ∧ launchBlocks x ≤ x.next then endLaunch m l (if x.lost ≠ 0 then 4 else if x.faulted ≠ 0 then 3 else 0) else m
  | none => m

/-! ### The end of a block -/

/-- The group slots of a block. -/
def blkSlots (m : Chip) (c b : Nat) : List Nat := (List.range 16).filter (fun s => (grp m c s).any (fun g => g.blk == b))

/-- Free the block's groups and scratch units and take it off its core (R110). Its requests not yet performed are abandoned when drop is set (R238). -/
def dropBlk (m : Chip) (c b : Nat) (drop : Bool) : Chip :=
  let m1 := modCore m c (fun k => { k with
    groups := (List.range 16).foldl (fun t s => if (tget none s t).any (fun g => g.blk == b) then tput none s none t else t) k.groups,
    blocks := tput none b none k.blocks, units := k.units.map (fun u => if u = some b then none else u),
    mmas := k.mmas.filter (fun o => !((tget none o.slot k.groups).any (fun g => g.blk == b))) })
  if drop then dropReqs m1 (fun r => match r.who with
    | .coreStore c' b' _ _ _ => c' == c && b' == b
    | .coreAtom c' b' _ _ _ _ _ => c' == c && b' == b
    | _ => false) else m1

/-- The bytes of each line that a failed block's stores targeted take free values (R164). -/
def scramble (m : Chip) (wrote : Tab Nat) : Chip := wrote.foldl (fun c e => loosen c e.1 (byteMask e.2) (e.2 == 2 ^ 128 - 1)) m

/-- A block ends: without fault, by a fault, lost with its die, or by an abort. -/
inductive BlkEnd where
  | ok
  | fault (f : FaultRec)
  | lost
  | abort
  deriving DecidableEq, Repr

/-- Count the end of a block at its launch. -/
def countEnd (e : BlkEnd) (x : Launch) : Launch :=
  match e with
  | .ok => { x with live := x.live - 1, done := x.done + 1 }
  | .fault f => { x with live := x.live - 1, faulted := x.faulted + 1, fault := x.fault.or (some f) }
  | _ => { x with live := x.live - 1, lost := x.lost + 1 }

/-- End a block of core c (R110, R163, R166). -/
def endBlk (m : Chip) (c b : Nat) (e : BlkEnd) : Chip :=
  match blk m c b with
  | none => m
  | some k =>
    let m1 := dropBlk m c b (e != .ok)
    let m2 := if e = .ok ∨ e = .lost then m1 else scramble m1 k.wrote
    launchCheck (modLaunch m2 k.launch (countEnd e)) k.launch

/-- The block has no group left and every store and atomic of it is acknowledged: it ends (R110, R161). -/
def blkCheck (m : Chip) (c b : Nat) : Chip :=
  match blk m c b with
  | some k => if k.left = 0 ∧ k.outst = 0 then endBlk m c b .ok else m
  | none => m

/-! ### Faults (R234 to R238) -/

/-- Count a fault: MEMORY_ERROR, BARRIER_STALL, DIVERGENT_MMA and SPARSE_META have counters (R168, R274). -/
def countFault (m : Chip) (code : Nat) : Chip :=
  match code with
  | 0x05 => bump m MU_DIV_CTR 1
  | 0x06 => bump m MU_META_CTR 1
  | 0x20 => bump m CG_MEM_ERR_CTR 1
  | 0x21 => bump m CG_BAR_STALL_CTR 1
  | _ => m

/-- A fault of a group of core c ends its block. -/
def fault (m : Chip) (c slot code thread addr trap : Nat) : Chip :=
  match grp m c slot with
  | none => m
  | some g => endBlk (countFault m code) c g.blk (.fault ⟨code, g.idx, thread, c, g.blk % 2 ^ 32, g.pc, addr, trap⟩)

/-- A thread's address as a fault record gives it. -/
def lowest (mask : Nat) : Nat := (lanes mask).headD 0

/-- The error record of a core's failed access (R746, R753): the line, how it fared, the fault code. -/
def coreRecord (m : Chip) (c b code ln : Nat) (g : Got) : Chip :=
  match blk m c b with
  | some k => recFate m 1 (dieOf c) (ownLaunch m k.launch) (c + code * 4096) ln g
  | none => recFate m 1 (dieOf c) ownMioto (c + code * 4096) ln g

/-- MEMORY_ERROR of a block (R129, R236): imprecise; the record names the group of the access, or the block's first once that group has ended,
with the PC it has reached, and the thread and address given. -/
def memError (m : Chip) (c b : Nat) (slot : Option Nat) (bad : Nat × Nat) : Chip :=
  let s := (slot.filter (fun s => (grp m c s).any (fun g => g.blk == b))).or (blkSlots m c b).head?
  match blk m c b with
  | none => countFault m 0x20
  | some k =>
    let g := (s.bind (grp m c)).getD { blk := b, idx := 0, pc := 0 }
    if k.left = 0 ∧ s.isNone then endBlk (countFault m 0x20) c b (.fault ⟨0x20, 0, bad.1, c, k.num, 0, bad.2, 0⟩)
    else endBlk (countFault m 0x20) c b (.fault ⟨0x20, g.idx, bad.1, c, k.num, g.pc, bad.2, 0⟩)

/-- An access to a peer that no usable port leads to (R539): MEMORY_ERROR, with a record of KIND 7. -/
def noPort (m : Chip) (c b slot key : Nat) (bad : Nat × Nat) : Chip :=
  memError (coreRecord m c b 0x20 key { ln := zeroLine, fate := .address }) c b (some slot) bad

/-! ### The L0 (R131 to R149) -/

/-- Entry e is set aside as scratch: unit 0 is entries 44 to 47, unit 3 entries 32 to 35. -/
def isScratch (k : Core) (e : Nat) : Bool := decide (32 ≤ e) && (k.units.getD ((47 - e) / 4) none).isSome

/-- The cache entry that holds a line. -/
def l0Find (k : Core) (ln : Nat) : Option Nat :=
  firstIdx 48 (fun e => !isScratch k e && (tget {} e k.l0).valid && (tget {} e k.l0).line == ln)

/-- A hit or fill on entry e: its tree path points away and its bank is the most recent (R133). -/
def l0Touch (k : Core) (e : Nat) : Core :=
  { k with trees := setAt k.trees (e / 16) (plruTouch (nth k.trees (e / 16)) (e % 16)), banks := (e / 16) :: k.banks.filter (· != e / 16) }

/-- The victim (R134): the lowest invalid cache entry, or the tree's choice in the least recent bank that holds a cache entry. -/
def l0Victim (k : Core) : Nat :=
  match firstIdx 48 (fun e => !isScratch k e && !(tget {} e k.l0).valid) with
  | some e => e
  | none =>
    let b := (k.banks.reverse.find? (fun b => (List.range 16).any (fun i => !isScratch k (16 * b + i)))).getD 0
    16 * b + plruVictim (nth k.trees b) (fun i => !isScratch k (16 * b + i))

/-- Put a line into the L0. -/
def l0Fill (k : Core) (ln : Nat) (d : List Byte) : Core :=
  let e := (l0Find k ln).getD (l0Victim k)
  l0Touch { k with l0 := tput {} e ⟨ln, true, d, 0⟩ k.l0 } e

/-- Drop a line from the L0, and keep no fill of it that is in flight. -/
def l0Drop (k : Core) (ln : Nat) : Core :=
  let k1 := { k with fills := k.fills.map (fun f => if f.line = ln then { f with keep := false } else f) }
  match l0Find k1 ln with
  | some e => { k1 with l0 := tput {} e {} k1.l0 }
  | none => k1

/-- Invalidate-all (R148, R149): every cache entry; fills in flight are not kept. -/
def l0Clear (k : Core) : Core :=
  { k with l0 := k.l0.filter (fun e => isScratch k e.1), fills := k.fills.map (fun f => { f with keep := false }) }

/-- The words of entry e that bytes [o, o + n) touch have a parity error. -/
def l0Parity (k : Core) (e o n : Nat) : Bool := (List.range 32).any (fun w => tb (tget {} e k.l0).bad w && decide (w * 4 < o + n) && decide (o < w * 4 + 4))

/-- A read of a cache entry with a parity error invalidates it and is counted (R146). ranges gives the bytes read of the line. -/
def l0Check (m : Chip) (c ln : Nat) (ranges : List (Nat × Nat)) : Chip :=
  let k := core m c
  match l0Find k ln with
  | some e => if ranges.any (fun r => l0Parity k e r.1 r.2) then bump (modCore m c (fun k => { k with l0 := tput {} e {} k.l0 })) CG_L0_PAR_CTR 1 else m
  | none => m

/-- Bytes with others over them at an offset where a mask has a 1. -/
def l0Write (k : Core) (ln : Nat) (d : List Byte) (mask : Nat) : Core :=
  let k1 := { k with fills := k.fills.map (fun f => if f.line = ln then { f with keep := false } else f) }
  match l0Find k1 ln with
  | some e =>
    let old := tget {} e k1.l0
    l0Touch { k1 with l0 := tput {} e { old with data := mergeBytes old.data d mask } k1.l0 } e
  | none => k1

/-! ### Scratch (R143 to R147) -/

/-- The entry and byte of a scratch offset of a block: its units in ascending order, four entries each. -/
def scratchAt (units : List Nat) (o : Nat) : Nat × Nat := (44 - 4 * nth units (o / 512) + o % 512 / 128, o % 128)

/-- n bytes of a block's scratch. -/
def scratchRead (k : Core) (units : List Nat) (o n : Nat) : List Byte :=
  (List.range n).map (fun i => let p := scratchAt units (o + i); (tget {} p.1 k.l0).data.getD p.2 0#8)

/-- Write bytes of a block's scratch. -/
def scratchWrite (k : Core) (units : List Nat) (o : Nat) (bs : List Byte) : Core :=
  (bs.zipIdx).foldl (fun k b =>
    let p := scratchAt units (o + b.2)
    { k with l0 := tmod {} p.1 (fun e => { e with data := setAt e.data p.2 b.1 }) k.l0 }) k

/-! ### Memory requests of a core -/

/-- The module that a line key names: keys below 2^41 are lines of this module, the rest are line keys of a GA. -/
def lineModule (m : Chip) (key : Nat) : Option Nat :=
  if key / 2 ^ 41 = 0 then none else if key / 2 ^ 41 - 1 = selfNum m then none else some (key / 2 ^ 41 - 1)

/-- The line key of an address in a FORM: DA[47:7], or one more than the module number above it for a GA of another module (R123). -/
def lineKey (m : Chip) (form a : Nat) : Nat :=
  if form = 1 ∧ bitsN a 58 48 ≠ selfNum m then (bitsN a 58 48 + 1) * 2 ^ 41 + bitsN a 47 7 else bitsN a 47 7

/-- Ingress of a core's request at its home (R277, R430): the link of its die, or the coupler. -/
def coreIng (c ln : Nat) : Nat := if dieOf c / 4 = sideOf (ln * 128) then dieOf c % 4 else 4

/-- Send a request to a peer of the station (R536): operation, line, body and lines. None while no mesh port to it is usable, or while another
module holds its role (R539, R726). -/
def peerSend (m : Chip) (who : Who) (kind : ReqKind) (key op lines_ : Nat) (body : List Byte) : Option Chip :=
  let d := key / 2 ^ 41 - 1
  let ln := key % 2 ^ 41
  let ps := if holderOf m d = d then usableTo m (d % 8) else []
  match ps[ln % max 1 ps.length]? with
  | none => none
  | some p =>
    let q := port m p
    let tag := ((List.range 2048).find? (fun i => !(q.out.any (fun o => o.tag == (q.nextTag + i) % 2048)))).elim q.nextTag (fun i => (q.nextTag + i) % 2048)
    let m1 := modPort m p (fun q => { q with out := q.out ++ [⟨tag, who, kind, ln, d⟩], nextTag := (tag + 1) % 2048 })
    some (sendVc m1 p 1 (mkFlit m1 2 lines_ op 0 d ln tag body))

/-- A line key of a peer that no usable port leads to, or whose role another module holds (R539, R726). -/
def peerShut (m : Chip) (key : Nat) : Bool :=
  key / 2 ^ 41 != 0 && (holderOf m (key / 2 ^ 41 - 1) != key / 2 ^ 41 - 1 || (usableTo m ((key / 2 ^ 41 - 1) % 8)).isEmpty)

/-- The thread and address that a failure of an instruction's access to a line names: the lowest-numbered that fails (R236). -/
def failAt (m : Chip) (form : Nat) (ls : List (Nat × Nat)) (key : Nat) : Nat × Nat :=
  (ls.find? (fun l => lineKey m form l.2 == key || (peerShut m key && peerShut m (lineKey m form l.2)))).getD (ls.headD (0, 0))

/-- The id of the next request. -/
def nextReq (m : Chip) : Nat := m.reqId

/-- Send a core's request: to its home on this module, or to a peer. The second part tells whether it was sent. -/
def coreReq (m : Chip) (c key : Nat) (r : Req) (op lines_ : Nat) (body : List Byte) : Chip × Bool :=
  if key / 2 ^ 41 = 0 then (pushReq m { r with line := key, ing := coreIng c key }, true)
  else match peerSend m r.who r.kind key op lines_ body with
    | some m1 => ({ m1 with reqId := m1.reqId + 1 }, true)
    | none => (m, false)

/-- The bytes that a store targets, for R164. -/
def noteStore (m : Chip) (c b key mask : Nat) : Chip :=
  if key / 2 ^ 41 = 0 then modBlk m c b (fun k => { k with wrote := tmod 0 key (fun o => o ||| mask) k.wrote }) else m

/-- One line of a core's store: a full line as it is, else a partial write under its mask (R128, R282, R318). bad is the thread and address that a
failure names. -/
def coreStoreLine (m : Chip) (c b slot key : Nat) (d : List Byte) (mask : Nat) (bad : Nat × Nat) : Chip :=
  let full := mask = 2 ^ 128 - 1
  let r : Req := { id := 0, kind := if full then .write else .partialWrite, line := 0, ln := goodLine d, mask := mask, who := .coreStore c b slot bad.1 bad.2 }
  let m0 := noteStore (if key / 2 ^ 41 = 0 then modCore m c (fun k => l0Write k key d mask) else m) c b key mask
  let wb := leBytes 4 (crc32c d)
  let s := coreReq m0 c key r (if full then 1 else 2) 1 (if full then d ++ wb else leBytes 16 mask ++ d ++ wb)
  if s.2 then modBlk s.1 c b (fun k => { k with outst := k.outst + 1 }) else noPort s.1 c b slot key bad

/-- The bytes (address, value) of a store, grouped by line in ascending order: line key, data, mask. A later byte of the list prevails (R126, R127). -/
def groupLines (m : Chip) (form : Nat) (bs : List (Nat × Byte)) : List (Nat × List Byte × Nat) :=
  let put (t : Tab (List Byte × Nat)) (p : Nat × Byte) : Tab (List Byte × Nat) :=
    tmod (List.replicate 128 0#8, 0) (lineKey m form p.1) (fun e => (setAt e.1 (p.1 % 128) p.2, e.2 ||| 2 ^ (p.1 % 128))) t
  (bs.foldl put []).map (fun e => (e.1, e.2.1, e.2.2))

/-- An acknowledgement of a store or atomic arrives (R129, R161). -/
def coreAck (m : Chip) (c b : Nat) : Chip := blkCheck (modBlk m c b (fun k => { k with outst := k.outst - 1 })) c b

/-- A store of a block is answered. -/
def storeAck (m : Chip) (c b slot ln : Nat) (bad : Nat × Nat) (f : Fate) (l : Line) : Chip :=
  if f = .good then coreAck m c b
  else memError (coreRecord m c b 0x20 ln { ln := l, fate := f }) c b (some slot) bad

/-- What an acquire of scope sc performs: invalidate-all at device and system scope (R155). -/
def acquire (m : Chip) (c sc : Nat) : Chip := if 2 ≤ sc then modCore m c l0Clear else m

/-- An atomic of one thread returns: its old value goes to DST, and when it was the last thread an acquire is performed (R225, R226). -/
def atomAck (m : Chip) (c b slot t : Nat) (rd : Option Nat) (ln : Nat) (bad : Nat × Nat) (f : Fate) (l : Line) (val : Nat) : Chip :=
  if f ≠ .good then memError (coreRecord m c b 0x20 ln { ln := l, fate := f }) c b (some slot) bad
  else
    let m1 := match rd, grp m c slot with
      | some d, some g =>
        if g.blk = b then
          match g.pend.find? (fun p => p.dst == d && p.threads.contains t) with
          | some p =>
            let q := { p with threads := p.threads.filter (· != t) }
            let g1 := if p.size = 8 then rput64 g d t val else rput g d t val
            let g2 := { g1 with pend := if q.threads.isEmpty then g1.pend.filter (· != p) else g1.pend.map (fun x => if x = p then q else x) }
            let m2 := setGrp m c slot (some g2)
            if q.threads.isEmpty && p.acq != 0 then acquire m2 c (p.acq - 1) else m2
          | none => m
        else m
      | _, _ => m
    coreAck m1 c b

/-! ### Loads under way -/

/-- Sign- or zero-extend a loaded value. -/
def extend (size : Nat) (sext : Bool) (v : Nat) : Nat := if sext then unsgn 32 (sgn (8 * size) v) else v

/-- Write n registers from a value, low word first. -/
def rputN : Nat → Grp → Nat → Nat → Nat → Grp
  | 0, g, _, _, _ => g
  | n + 1, g, f, t, v => rputN n (rput g f t v) (if f = 0xC0 then f else f + 1) t (v / 2 ^ 32)

/-- A load with all its lines writes its registers. -/
def loadWrite (g : Grp) (p : Pend) : Grp :=
  let val (a : Nat) : Nat := leNat ((((p.got.find? (fun e => e.1 == a / 128)).elim [] (·.2)).drop (a % 128)).take p.size)
  p.lanes.foldl (fun h l => rputN p.n h p.dst l.1 (extend p.size p.sext (val l.2))) g

/-- Complete the loads of a group that have every line, oldest first; an acquire among them is performed. -/
def loadsDone (m : Chip) (c slot : Nat) : Chip :=
  match grp m c slot with
  | none => m
  | some g =>
    let rdy := g.pend.filter (fun p => p.need.isEmpty && p.threads.isEmpty)
    let g1 := rdy.foldl loadWrite { g with pend := g.pend.filter (fun p => !(p.need.isEmpty && p.threads.isEmpty)) }
    rdy.foldl (fun n p => if p.acq = 0 then n else acquire n c (p.acq - 1)) (setGrp m c slot (some g1))

/-- The thread and address that a group's failed fill names: the lowest-numbered thread of the oldest load that waits for it (R236). -/
def fillBad (m : Chip) (g : Grp) (id key : Nat) : Nat × Nat :=
  match g.pend.find? (fun p => p.need.contains id) with
  | none => (0, 0)
  | some p =>
    let l := (p.lanes.find? (fun l => l.2 / 128 == key)).getD (0, key * 128)
    (l.1, if p.form = 1 then gaOf m l.2 else l.2)

/-- A line for fill id arrives at a core: every load waiting on the fill takes it (R137); a failing line ends the blocks that wait (R129). -/
def fillArrive (m : Chip) (c id key : Nat) (f : Fate) (l : Line) : Chip :=
  let k := core m c
  let fl := k.fills.find? (fun x => x.id == id)
  let m0 := modCore m c (fun k => { k with fills := k.fills.filter (fun x => x.id != id) })
  let fate := if f = .good ∧ ¬ wbOk l then .waybill else f
  let waits := (List.range 16).filter (fun s => (grp m c s).any (fun g => g.pend.any (fun p => p.need.contains id)))
  if fate ≠ .good then
    waits.foldl (fun n s => match grp n c s with
      | some g => memError (coreRecord n c g.blk 0x20 key { ln := l, fate := fate }) c g.blk (some s) (fillBad n g id key)
      | none => n) m0
  else
    let m1 := if fl.any (·.keep) then modCore m0 c (fun k => l0Fill k key l.data) else m0
    waits.foldl (fun n s =>
      loadsDone (modGrp n c s (fun g => { g with pend := g.pend.map (fun p =>
        if p.need.contains id then { p with need := p.need.filter (· != id), got := p.got ++ [(key, l.data)] } else p) })) c s) m1

/-! ### Paths, barriers and the end of groups -/

/-- The threads of a group that wait at a barrier. -/
def parkedMask (g : Grp) : Nat := g.parked.foldl (fun a p => a ||| p.2.1) 0

/-- The reconvergence point of the path that runs (R212). -/
def reconv (g : Grp) : Option Nat := (g.stack.find? (fun e => e.2.2)).map (·.1)

/-- Leave a path at its reconvergence point, and pop while no thread is active and some live thread does not wait (R113, R117, R212). -/
def settlePath : Nat → Grp → Grp
  | 0, g => g
  | n + 1, g =>
    if g.active != 0 && !(reconv g == some g.pc) then g
    else
      let g1 := { g with active := 0 }
      let free := g1.live &&& (allThreads - parkedMask g1)
      if free = 0 then g1
      else match g1.stack with
        | [] => g1
        | e :: r => settlePath n { g1 with stack := r, pc := e.1, active := e.2.1 &&& free }

/-- Every live thread waits at one barrier: the group has arrived there (R118). -/
def arrived (g : Grp) : Option Nat :=
  match g.parked with
  | [] => none
  | p :: r => if g.live != 0 && parkedMask g == g.live && r.all (fun q => q.2.2 == p.2.2) then some p.2.2 else none

/-- A group after a control change: its path settled, and arrived at its barrier when it has. -/
def settleGrp (g : Grp) : Grp :=
  let h := settlePath (g.stack.length + 2) g
  match arrived h with
  | some b => { h with wait := .bar b }
  | none => h

/-- Every group of the block that has not ended waits at barrier b. -/
def barFull (m : Chip) (c uid left b : Nat) : Bool :=
  decide (0 < left) && ((blkSlots m c uid).filter (fun s => (grp m c s).any (fun g => g.wait == .bar b))).length == left

/-- A barrier opens for one group: its waiting threads go on, the last to arrive first (R119). -/
def barRelease (b : Nat) (g : Grp) : Grp :=
  if g.wait = .bar b then
    match g.parked.reverse with
    | [] => g
    | l :: r => { g with wait := .run, parked := [], pc := l.1, active := l.2.1,
                         stack := (r.map (fun p => (p.1, p.2.1, false))) ++ g.stack }
  else g

/-- BARRIER_OPEN (R119, R120): a barrier that every remaining group has reached opens. -/
def barCheck (m : Chip) (c b : Nat) : Chip :=
  match blk m c b with
  | none => m
  | some k =>
    match firstIdx 4 (fun i => barFull m c b k.left i) with
    | none => m
    | some i =>
      let m1 := modBlk m c b (fun k => { k with wd := k.wd.filter (fun w => w.1 != i) })
      (blkSlots m c b).foldl (fun n s => modGrp n c s (barRelease i)) m1

/-- A group whose last thread has exited ends: its slot and registers are free, and its block may end or a barrier open (R110, R120). -/
def grpCheck (m : Chip) (c slot : Nat) : Chip :=
  match grp m c slot with
  | some g =>
    if g.live = 0 then
      let m0 := modCore (setGrp m c slot none) c (fun k => { k with mmas := k.mmas.filter (fun o => o.slot != slot) })
      let m1 := modBlk m0 c g.blk (fun k => { k with left := k.left - 1 })
      blkCheck (barCheck m1 c g.blk) c g.blk
    else barCheck m c g.blk
  | none => m

/-! ### Issue of an instruction -/

/-- The instruction word at a PC, when the die's code cache holds its line (R171). -/
def codeWord (m : Chip) (die pc : Nat) : Option Nat :=
  if pc % 8 ≠ 0 then none
  else ((m.code.getD die []).find? (fun e => e.1 == pc / 128)).map (fun e => leNat ((e.2.drop (pc % 128)).take 8))

/-- A register operand meets the destination of an access under way (R104). -/
def meetsPend (p : Pend) (o : RegOp) : Bool := decide (p.dst < 0xC0) && decide (p.dst < o.1 + o.2.1) && decide (o.1 < p.dst + p.n)

/-- The instruction is a memory operation: loads, stores, fences, atomics, SIG, TST and UWAIT. -/
def isMemOp (op : Nat) : Bool := (decide (0xA0 ≤ op) && decide (op ≤ 0xBB)) || op == 0xC4

/-- The tile that a Tile instruction uses. -/
def tileOf (w : Nat) : Nat :=
  match iOp w with
  | 0xC2 => iAux w % 4
  | 0xC3 => iAux w % 4
  | 0xC4 => iDst w % 4
  | _ => iTd w

/-- The interlock holds the instruction: a register is still to be written, an acquire is under way, or the tile is in the matrix unit; an MMA
needs a free place in the queue (R104, R155, R267, R271). -/
def held (k : Core) (slot : Nat) (g : Grp) (w : Nat) : Bool :=
  let op := iOp w
  g.pend.any (fun p => (regOps w).any (meetsPend p)) ||
  (isMemOp op && g.pend.any (fun p => p.acq != 0)) ||
  (decide (0xC1 ≤ op) && decide (op ≤ 0xC4) && k.mmas.any (fun o => o.slot == slot && iTd o.word == tileOf w)) ||
  (op == 0xC0 && decide (3 ≤ k.mmas.length))

/-- A release waits until every earlier memory operation of its group, and every store of its block, is done (R154). -/
def releaseHeld (b : Option Blk) (g : Grp) : Bool := !g.pend.isEmpty || b.any (fun k => k.outst != 0)

/-- The instruction releases at device or system scope: a release store, a release atomic, FENCE, SIG. Narrower scopes wait for nothing. -/
def isRelease (w : Nat) : Bool :=
  let op := iOp w
  (op == 0xBB) || (op == 0xA2 && decide (2 ≤ iScope w)) ||
  ((op == 0xA1 || op == 0xC4) && iOrd w == 2 && decide (2 ≤ iScope w)) ||
  (decide (0xB0 ≤ op) && decide (op ≤ 0xBA) && decide (2 ≤ iOrd w) && decide (2 ≤ iScope w))

/-- The group in a slot issues this word for one of the opcodes of a row: it runs, its PC holds the word, and no interlock holds it. A
word of a reserved opcode may stand in any row (R181). -/
def canIssue (m : Chip) (c slot w : Nat) (ops : List Nat) : Bool :=
  decide (c < 2560) && decide (slot < 16) && (ops.contains (iOp w) || (opInfo (iOp w)).isNone) &&
  (match grp m c slot with
    | some g => g.wait == .run && g.active != 0 && codeWord m (dieOf c) g.pc == some w && !held (core m c) slot g w &&
        !(isRelease w && releaseHeld (blk m c g.blk) g)
    | none => false)

/-- The next PC (R170). -/
def nextPc (g : Grp) : Nat := (g.pc + 8) % 2 ^ 64

/-- Move past the instruction. -/
def advance (g : Grp) : Grp := settleGrp { g with pc := nextPc g }

/-- Issue: the checks of R181 and R105, then the meaning, given the word, the group and its block. -/
def doIssue (c slot w : Nat) (f : Grp → Blk → Chip → Chip) (m : Chip) : Chip :=
  match grp m c slot with
  | none => m
  | some g =>
    match blk m c g.blk with
    | none => m
    | some b =>
      if illegal w then fault m c slot 0x02 (lowest g.active) 0 0
      else if outOfRange b.regs w then fault m c slot 0x03 (lowest g.active) 0 0
      else f g b m

/-- An instruction of the cores: row opcodes and meaning. -/
def issueOp (s : State) (c slot : Nat) (word : BitVec 64) (ops : List Nat) (f : Nat → Grp → Blk → Chip → Chip) : Host.Outcome State Fault Refusal :=
  runIf s (fun m => canIssue m c slot word.toNat ops) (doIssue c slot word.toNat (f word.toNat))

/-- An instruction that changes only its own group and then moves on. -/
def issueAlu (s : State) (c slot : Nat) (word : BitVec 64) (ops : List Nat) (f : Nat → Grp → Grp) : Host.Outcome State Fault Refusal :=
  issueOp s c slot word ops (fun w g _ m => setGrp m c slot (some (advance (f w g))))

end Sys2Proof.Machine
end

