-- ==== Sys2Proof/Machine/LaneCodec.lean ====
section
/-! DEFINITION. The wire form of a lane frame: levels, comma, header, stuffing, scrambler and the RS(544,514) codewords (R472 to R481). A received
frame comes to the model decoded; a sent one is given here as the bits on the wire. -/

namespace Sys2Proof.Machine

/-- The n bits of v, most significant first. -/
def msbBits (n v : Nat) : List Bool := (List.range n).map (fun i => tb v (n - 1 - i))

/-- The PAM4 level of a pair of bits, the first more significant (R473). -/
def pam4 (a b : Bool) : Nat :=
  match a, b with
  | false, false => 0
  | false, true => 1
  | true, true => 2
  | true, false => 3

/-- The symbols of a lane at a rate code: bits for NRZ, levels for PAM4 (R472, R473). -/
def laneSymbols (rate : Nat) : List Bool → List Nat
  | [] => []
  | [a] => if rate = 0 then [b2n a] else []
  | a :: b :: r => if rate = 0 then b2n a :: b2n b :: laneSymbols rate r else pam4 a b :: laneSymbols rate r

/-- The product in GF(2^10) with field polynomial x^10 + x^3 + 1 (R481), over the n low bits of b. -/
def gf10MulN : Nat → Nat → Nat → Nat
  | 0, _, _ => 0
  | n + 1, a, b => (if b % 2 = 1 then a else 0) ^^^ gf10MulN n (if a * 2 ≥ 1024 then (a * 2 - 1024) ^^^ 9 else a * 2) (b / 2)

/-- The product in GF(2^10). -/
def gf10Mul (a b : Nat) : Nat := gf10MulN 10 a b

/-- α^n in GF(2^10). -/
def gf10Alpha : Nat → Nat
  | 0 => 1
  | n + 1 => gf10Mul (gf10Alpha n) 2

/-- A polynomial, highest power first, times x - α^n. -/
def gf10Times (p : List Nat) (n : Nat) : List Nat := List.zipWith (· ^^^ ·) (p ++ [0]) (0 :: p.map (gf10Mul (gf10Alpha n)))

/-- The generator (x - α^0) ... (x - α^29), highest power first (R481). -/
def fecGen : List Nat := (List.range 30).foldl gf10Times [1]

/-- The 30 check symbols of a message of symbols (R481): the remainder of its product with x^30. -/
def fecCheck (msg : List Nat) : List Nat :=
  msg.foldl (fun r s =>
    let f := s ^^^ nth r 0
    List.zipWith (· ^^^ ·) (r.drop 1 ++ [0]) ((fecGen.drop 1).map (gf10Mul f))) (List.replicate 30 0)

/-- The bits of bytes, most significant bit of each first. -/
def byteBits (bs : List Byte) : List Bool := bs.flatMap (fun b => msbBits 8 b.toNat)

/-- Bits in 10-bit symbols, most significant first. -/
def tenBits : Nat → List Bool → List Nat
  | 0, _ => []
  | n + 1, bs => (bs.take 10).foldl (fun a b => 2 * a + b2n b) 0 :: tenBits n (bs.drop 10)

/-- The body of a frame before scrambling: message symbol j goes to codeword j / 514, and body symbol i is symbol i / 4 of codeword i mod 4 (R481). -/
def frameBody (msg : List Byte) : List Bool :=
  let syms := tenBits 2056 (byteBits msg)
  let words := (List.range 4).map (fun k => let w := (syms.drop (514 * k)).take 514; w ++ fecCheck w)
  (List.range 2176).flatMap (fun i => msbBits 10 (nth (words.getD (i % 4) []) (i / 4)))

/-- The scrambler of R479 over the body. -/
def scrambleBody : Nat → List Bool → List Bool
  | _, [] => []
  | s, b :: bs =>
    let k := bitN (s >>> 57 ^^^ s >>> 38) 0
    (b != (k == 1)) :: scrambleBody ((s * 2 + k) % 2 ^ 58) bs

/-- The scrambler's state at the start of a frame. -/
def scrambleSeed (lane seq : Nat) : Nat := 0xFFFFFFFFFFFF * 2 ^ 10 + lane * 2 ^ 6 + seq

/-- n stuffed blocks of 64 bits: the 64th is the complement of the 63rd (R475). -/
def stuff : Nat → List Bool → List Bool
  | 0, _ => []
  | n + 1, bs => bs.take 63 ++ [!(bs.getD 62 false)] ++ stuff n (bs.drop 63)

/-- The 22,224 wire bits of a lane frame: comma, header and its complement, scrambled body, pad, stuffed (R475 to R480). hdr is the 16 information bits. -/
def frameWire (lane hdr : Nat) (msg : List Byte) : List Bool :=
  let content := msbBits 16 hdr ++ msbBits 16 (0xFFFF - hdr) ++ scrambleBody (scrambleSeed lane (bitsN hdr 15 10)) (frameBody msg) ++ List.replicate 6 false
  List.replicate 72 true ++ List.replicate 8 false ++ stuff 346 content

/-- What lane n of port p last sent: the wire bits of its frame. A lane that carries no message of the stream sends a message of zeros (R480). -/
def laneWire (m : Chip) (p n : Nat) : List Bool :=
  let used := (List.range 4).filter (fun i => tb (fget m (LNKp_STAT_LANES p)) i)
  frameWire n (setBitsN (port m p).txHdr 9 8 n) ((used.findIdx? (· == n)).elim (List.replicate 2570 0#8) (fun i => (port m p).txMsgs.getD i (List.replicate 2570 0#8)))

end Sys2Proof.Machine
end

