-- ==== Sys2Proof/Machine/Fp.lean ====
section
/-! DEFINITION. Floating point: exact dyadic values, rounding, the element formats, arithmetic, comparison, conversion and the special
functions (R195 to R206, R310). -/

namespace Sys2Proof.Machine

/-- A floating-point datum: NaN, an infinity, or the exact value (-1)^s * m * 2^e. -/
inductive Fv where
  | nan
  | inf (s : Bool)
  | num (s : Bool) (m : Nat) (e : Int)
  deriving DecidableEq, Repr

/-- How a format uses its largest exponent: IEEE infinities and NaNs, one NaN code only (E4M3), or plain numbers. -/
inductive FKind where
  | ieee | oneNan | finite
  deriving DecidableEq, Repr

/-- A binary format: exponent bits, fraction bits, bias, use of the largest exponent. -/
structure Fmt where
  eb : Nat
  mb : Nat
  bias : Nat
  kind : FKind
  deriving DecidableEq, Repr

def fp32 : Fmt := ⟨8, 23, 127, .ieee⟩
def fp16 : Fmt := ⟨5, 10, 15, .ieee⟩
def bf16 : Fmt := ⟨8, 7, 127, .ieee⟩
def e4m3 : Fmt := ⟨4, 3, 7, .oneNan⟩
def e5m2 : Fmt := ⟨5, 2, 15, .ieee⟩
def e3m2 : Fmt := ⟨3, 2, 3, .finite⟩
def e2m3 : Fmt := ⟨2, 3, 1, .finite⟩
def e2m1 : Fmt := ⟨2, 1, 1, .finite⟩

/-- Width of a format. -/
def Fmt.width (f : Fmt) : Nat := 1 + f.eb + f.mb

/-- The datum of a bit pattern. -/
def Fmt.decode (f : Fmt) (w : Nat) : Fv :=
  let s := tb w (f.eb + f.mb)
  let x := bitsN w (f.eb + f.mb - 1) f.mb
  let r := w % 2 ^ f.mb
  let top := 2 ^ f.eb - 1
  if f.kind = .ieee ∧ x = top then (if r = 0 then .inf s else .nan)
  else if f.kind = .oneNan ∧ x = top ∧ r = 2 ^ f.mb - 1 then .nan
  else if x = 0 then .num s r (1 - (f.bias : Int) - f.mb)
  else .num s (2 ^ f.mb + r) ((x : Int) - f.bias - f.mb)

/-- The largest finite magnitude's bits. -/
def Fmt.maxBits (f : Fmt) : Nat :=
  match f.kind with
  | .ieee => (2 ^ f.eb - 1) * 2 ^ f.mb - 1
  | .oneNan => 2 ^ (f.eb + f.mb) - 2
  | .finite => 2 ^ (f.eb + f.mb) - 1

/-- Sign bit placed over a magnitude's bits. -/
def Fmt.signed (f : Fmt) (s : Bool) (mag : Nat) : Nat := (if s then 2 ^ (f.eb + f.mb) else 0) + mag

/-- The canonical NaN (R199, R201, R206): 0x7FC00000, 0x7E00, 0x7FC0; 0x7F for the 8-bit formats; 0 where there is none. -/
def Fmt.nanBits (f : Fmt) : Nat :=
  if f.width = 8 then 0x7F
  else match f.kind with
    | .ieee => (2 ^ f.eb - 1) * 2 ^ f.mb + 2 ^ (f.mb - 1)
    | _ => 0

/-- Round m * 2^e (m not 0) to the format's grid with an unbounded exponent: mantissa and its exponent. -/
def Fmt.grid (f : Fmt) (rnd : Nat) (s : Bool) (m : Nat) (e : Int) : Nat × Int :=
  let q := max ((Nat.log2 m : Int) + e - f.mb) (1 - (f.bias : Int) - f.mb)
  if q ≤ e then (m * 2 ^ (e - q).toNat, q)
  else
    let k := (q - e).toNat
    let t := m / 2 ^ k
    let r := m % 2 ^ k
    let up := match rnd with
      | 0 => decide (2 ^ k < 2 * r) || (decide (2 * r = 2 ^ k) && t % 2 == 1)
      | 1 => false
      | 2 => s && r != 0
      | _ => !s && r != 0
    (if up then t + 1 else t, q)

/-- The magnitude's bits of a grid point; none when it passes the largest finite value. -/
def Fmt.magBits (f : Fmt) (t : Nat) (q : Int) : Option Nat :=
  if t = 0 then some 0
  else
    let (t, q) := if 2 ^ (f.mb + 1) ≤ t then (t / 2, q + 1) else (t, q)
    let b := if t < 2 ^ f.mb then t else (q + f.mb + f.bias).toNat * 2 ^ f.mb + (t - 2 ^ f.mb)
    if b ≤ f.maxBits then some b else none

/-- Round a datum to an IEEE format under a mode: the bits (R195 to R199). Overflow follows IEEE 754 by mode. -/
def Fmt.round (f : Fmt) (rnd : Nat) (v : Fv) : Nat :=
  match v with
  | .nan => f.nanBits
  | .inf s => f.signed s (f.maxBits + 1)
  | .num s m e =>
    if m = 0 then f.signed s 0
    else
      let g := f.grid rnd s m e
      match f.magBits g.1 g.2 with
      | some b => f.signed s b
      | none => f.signed s (if rnd = 0 ∨ (rnd = 2 ∧ s) ∨ (rnd = 3 ∧ ¬ s) then f.maxBits + 1 else f.maxBits)

/-- A subnormal bit pattern of the format becomes zero of its sign when on (FTZ, R197). -/
def Fmt.ftz (f : Fmt) (on : Bool) (w : Nat) : Nat :=
  if on && bitsN w (f.eb + f.mb - 1) f.mb == 0 then f.signed (tb w (f.eb + f.mb)) 0 else w

/-- The sign of an exact zero result (R195). -/
def zeroSign (rnd : Nat) : Bool := rnd == 2

/-- Exact sum (R195). -/
def Fv.add (rnd : Nat) : Fv → Fv → Fv
  | .nan, _ => .nan
  | _, .nan => .nan
  | .inf s, .inf t => if s = t then .inf s else .nan
  | .inf s, _ => .inf s
  | _, .inf t => .inf t
  | .num s m e, .num t n d =>
    if m = 0 ∧ n = 0 then .num (if s = t then s else zeroSign rnd) 0 0
    else if m = 0 then .num t n d
    else if n = 0 then .num s m e
    else
      let x := min e d
      let a : Int := (if s then -1 else 1) * (m * 2 ^ (e - x).toNat : Nat)
      let b : Int := (if t then -1 else 1) * (n * 2 ^ (d - x).toNat : Nat)
      let c := a + b
      if c = 0 then .num (zeroSign rnd) 0 0 else .num (decide (c < 0)) c.natAbs x

/-- Exact product. -/
def Fv.mul : Fv → Fv → Fv
  | .nan, _ => .nan
  | _, .nan => .nan
  | .inf s, .inf t => .inf (s != t)
  | .inf s, .num t n _ => if n = 0 then .nan else .inf (s != t)
  | .num s m _, .inf t => if m = 0 then .nan else .inf (s != t)
  | .num s m e, .num t n d => .num (s != t) (m * n) (e + d)

/-- Negate. -/
def Fv.neg : Fv → Fv
  | .nan => .nan
  | .inf s => .inf (!s)
  | .num s m e => .num (!s) m e

/-- Absolute value. -/
def Fv.abs : Fv → Fv
  | .nan => .nan
  | .inf _ => .inf false
  | .num _ m e => .num false m e

/-- a < b for data that are not NaN; zeros compare equal. -/
def Fv.lt : Fv → Fv → Bool
  | .nan, _ => false
  | _, .nan => false
  | .inf s, .inf t => s && !t
  | .inf s, _ => s
  | _, .inf t => !t
  | .num s m e, .num t n d =>
    let x := min e d
    let a : Int := (if s then -1 else 1) * (m * 2 ^ (e - x).toNat : Nat)
    let b : Int := (if t then -1 else 1) * (n * 2 ^ (d - x).toNat : Nat)
    decide (a < b)

/-- The datum is a NaN. -/
def Fv.isNan : Fv → Bool
  | .nan => true
  | _ => false

/-- The sign of a datum. -/
def Fv.sign : Fv → Bool
  | .nan => false
  | .inf s => s
  | .num s _ _ => s

/-- a comes before b with -0 below +0 (R200). -/
def Fv.below (a b : Fv) : Bool := a.lt b || (!b.lt a && a.sign && !b.sign)

/-- Minimum (R200). -/
def Fv.min (a b : Fv) : Fv := if a.isNan then b else if b.isNan then a else if b.below a then b else a

/-- Maximum (R200). -/
def Fv.max (a b : Fv) : Fv := if a.isNan then b else if b.isNan then a else if a.below b then b else a

/-- SAT: clamp to [+0, 1], NaN to +0 (R198). -/
def Fv.sat (on : Bool) (v : Fv) : Fv :=
  if !on then v
  else match v with
    | .nan => .num false 0 0
    | .inf s => if s then .num false 0 0 else .num false 1 0
    | .num s m e => if s || m == 0 then .num false 0 0 else if (Fv.num false 1 0).lt (.num false m e) then .num false 1 0 else .num false m e

/-- Read a source element: FTZ, ABS, NEG (R197, R198). -/
def Fmt.src (f : Fmt) (ftz ab neg : Bool) (w : Nat) : Fv :=
  let v := f.decode (f.ftz ftz w)
  let v := if ab then v.abs else v
  if neg then v.neg else v

/-- Write a result: rounded, FTZ, SAT (R196 to R198). -/
def Fmt.dst (f : Fmt) (rnd : Nat) (ftz sat : Bool) (v : Fv) : Nat :=
  let w := f.ftz ftz (f.round rnd v)
  if sat then f.round 0 ((f.decode w).sat true) else w

/-! ### Reductions (R310) -/

/-- Format of DTYPE (R72): 0 FP32, 1 BF16, 2 FP16. -/
def dtypeFmt (t : Nat) : Fmt := if t = 1 then bf16 else if t = 2 then fp16 else fp32

/-- Combine one element: OP 1 add, 2 max, 3 min, by DTYPE. INT32 is signed. -/
def reduceElem (op t a b : Nat) : Nat :=
  if t = 3 then
    match op with
    | 1 => (a + b) % 2 ^ 32
    | 2 => if sgn 32 a < sgn 32 b then b else a
    | _ => if sgn 32 b < sgn 32 a then b else a
  else
    let f := dtypeFmt t
    let x := f.decode a
    let y := f.decode b
    f.round 0 (match op with
      | 1 => x.add 0 y
      | 2 => x.max y
      | _ => x.min y)

/-- Combine lines of bytes, element by element: stored with arriving; operation 4 is the OR of a bitmap (R368). -/
def reduceBytes (op t : Nat) (old new : List Byte) : List Byte :=
  if op = 4 then List.zipWith (fun a b => a ||| b) old new else
  let w := if t = 1 ∨ t = 2 then 2 else 4
  (List.range (old.length / w)).flatMap (fun i =>
    leBytes w (reduceElem op t (leNat ((old.drop (w * i)).take w)) (leNat ((new.drop (w * i)).take w))))

/-! ### Conversion (R203 to R206) -/

/-- The floating-point format of a conversion code, 0 to 7. -/
def cvtFmt (c : Nat) : Fmt := [fp32, fp16, bf16, e4m3, e5m2, e3m2, e2m3, e2m1].getD c fp32

/-- Element width of a conversion code. -/
def cvtWidth (c : Nat) : Nat := [32, 16, 16, 8, 8, 8, 8, 4, 32, 32, 8, 8, 4].getD c 32

/-- Integer code: bits and signedness. -/
def cvtInt (c : Nat) : Nat × Bool :=
  match c with
  | 8 => (32, true)
  | 9 => (32, false)
  | 10 => (8, true)
  | 11 => (8, false)
  | _ => (4, true)

/-- The exact integer part of a datum under a rounding mode. -/
def Fv.toInt (rnd : Nat) (s : Bool) (m : Nat) (e : Int) : Int :=
  if 0 ≤ e then (if s then -1 else 1) * (m * 2 ^ e.toNat : Nat)
  else
    let k := (-e).toNat
    let t := m / 2 ^ k
    let r := m % 2 ^ k
    let up := match rnd with
      | 0 => decide (2 ^ k < 2 * r) || (decide (2 * r = 2 ^ k) && t % 2 == 1)
      | 1 => false
      | 2 => s && r != 0
      | _ => !s && r != 0
    (if s then -1 else 1) * ((if up then t + 1 else t : Nat) : Int)

/-- The smallest and largest value of an integer code. -/
def intRange (c : Nat) : Int × Int :=
  let (n, sg) := cvtInt c
  if sg then (-(2 ^ (n - 1) : Nat), (2 ^ (n - 1) : Nat) - 1) else (0, (2 ^ n : Nat) - 1)

/-- Clamp to a range. -/
def clampInt (r : Int × Int) (v : Int) : Int := if v < r.1 then r.1 else if r.2 < v then r.2 else v

/-- Convert to a floating-point format: overflow, infinities and NaN by the table of R206. -/
def cvtToFp (c rnd : Nat) (sat : Bool) (v : Fv) : Nat :=
  let f := cvtFmt c
  let beyond (s : Bool) : Nat :=
    if f.kind = .finite ∨ sat then f.signed s f.maxBits
    else if f.kind = .oneNan then 0x7F
    else f.signed s (f.maxBits + 1)
  match v with
  | .nan => f.nanBits
  | .inf s => beyond s
  | .num s m e =>
    if m = 0 then f.signed s 0
    else
      let g := f.grid rnd s m e
      match f.magBits g.1 g.2 with
      | some b => f.signed s b
      | none => beyond s

/-- CVT of one element: source code, destination code, RND, SAT, FTZ, source bits of the element's width. -/
def cvt (sc dc rnd : Nat) (sat ftz : Bool) (w : Nat) : Nat :=
  let ftzOn (c : Nat) := ftz && decide (c ≤ 2)
  if sc ≤ 7 then
    let f := cvtFmt sc
    let v := f.decode (f.ftz (ftzOn sc) (w % 2 ^ f.width))
    if dc ≤ 7 then (cvtFmt dc).ftz (ftzOn dc) (cvtToFp dc rnd sat v)
    else
      let r := intRange dc
      unsgn (cvtInt dc).1 (match v with
        | .nan => 0
        | .inf s => if s then r.1 else r.2
        | .num s m e => clampInt r (Fv.toInt rnd s m e))
  else
    let (n, sg) := cvtInt sc
    let i : Int := if sg then sgn n w else Int.ofNat (w % 2 ^ n)
    if dc ≤ 7 then (cvtFmt dc).ftz (ftzOn dc) (cvtToFp dc rnd sat (.num (decide (i < 0)) i.natAbs 0))
    else unsgn (cvtInt dc).1 (if sat ∨ cvtWidth sc ≤ cvtWidth dc then (if sat then clampInt (intRange dc) i else i) else i)

/-! ### Special functions (R202) -/

/-- Fixed point: number of fraction bits used below. -/
def fxBits : Nat := 256

/-- The integer square root, by bits from the top. -/
def isqrtGo : Nat → Nat → Nat → Nat
  | 0, _, r => r
  | k + 1, n, r => isqrtGo k n (if (r + 2 ^ k) * (r + 2 ^ k) ≤ n then r + 2 ^ k else r)

/-- Floor of the square root. -/
def isqrt (n : Nat) : Nat := isqrtGo (Nat.log2 n / 2 + 1) n 0

/-- ln 2 in fixed point: the sum of 1/(k 2^k). -/
def ln2Fx : Nat := (List.range 260).foldl (fun a k => a + 2 ^ fxBits / ((k + 1) * 2 ^ (k + 1))) 0

/-- e^y for y in [0, 1) in fixed point, by its series. -/
def expFx (y : Nat) : Nat :=
  ((List.range 70).foldl (fun (p : Nat × Nat) k => (p.1 + p.2, p.2 * y / 2 ^ fxBits / (k + 1))) (0, 2 ^ fxBits)).1

/-- 2^f for f in [0, 1) in fixed point. -/
def exp2Fx (f : Nat) : Nat := expFx (f * ln2Fx / 2 ^ fxBits)

/-- log2 of x in [1, 2), fixed point, bit by bit. -/
def log2Fx (x : Nat) : Nat :=
  ((List.range 200).foldl (fun (p : Nat × Nat) k =>
    let sq := p.2 * p.2 / 2 ^ fxBits
    if 2 * 2 ^ fxBits ≤ sq then (p.1 + 2 ^ (fxBits - 1 - k), sq / 2) else (p.1, sq)) (0, x)).1

/-- One of the FP32 values within the bound of R202 of the positive value m * 2^e, whose truncation has the bits b: the free choice delta
picks among the values that the bound of n ulp allows. exact tells whether b is the value itself. -/
def withinUlp (n b : Nat) (exact : Bool) (delta : Int) : Nat :=
  let lo : Int := if exact then -(n : Int) else 1 - (n : Int)
  let d := lo + delta % ((n : Int) - lo + 1)
  let r := (b : Int) + d
  if r < 0 then 0 else min r.toNat (fp32.maxBits + 1)

/-- The magnitude bits of the truncation of m * 2^e to FP32, and whether it is exact. -/
def truncBits (m : Nat) (e : Int) : Nat × Bool :=
  if m = 0 then (0, true)
  else
    let g := fp32.grid 1 false m e
    let ex := decide (0 ≤ e - g.2) || m % 2 ^ (g.2 - e).toNat == 0
    match fp32.magBits g.1 g.2 with
    | some b => (b, ex)
    | none => (fp32.maxBits + 1, false)

/-- A special function's result for a finite positive value m * 2^e, or none where its exact value is 0 or 1 below: function codes 0 RCP, 1
RSQ, 2 SQRT, 3 EXP2, 4 LOG2, 5 TANH; s is the operand's sign. The result is a value n * 2^d with its sign. -/
def specialExact (fn : Nat) (s : Bool) (m : Nat) (e : Int) : Bool × Nat × Int :=
  let one := 2 ^ fxBits
  match fn with
  | 0 => (s, one * one / m, -(e + 2 * fxBits))
  | 1 =>
    let e2 := if e % 2 = 0 then (m, e) else (2 * m, e - 1)
    (false, one * one / isqrt (e2.1 * one * one), -(e2.2 / 2 + fxBits))
  | 2 =>
    let e2 := if e % 2 = 0 then (m, e) else (2 * m, e - 1)
    (false, isqrt (e2.1 * one * one), e2.2 / 2 - fxBits)
  | 3 =>
    let x := min (512 * one) (if 0 ≤ e then m * 2 ^ (min e 16).toNat * one else m * one / 2 ^ (-e).toNat)
    let n := x / one
    let f := x % one
    if !s then (false, exp2Fx f, (n : Int) - fxBits)
    else if f = 0 then (false, one, -(n : Int) - fxBits) else (false, exp2Fx (one - f), -(n : Int) - 1 - fxBits)
  | 4 =>
    let k := Nat.log2 m
    let l := log2Fx (m * one / 2 ^ k)
    let v : Int := ((k : Int) + e) * one + l
    (decide (v < 0), v.natAbs, -(fxBits : Int))
  | _ =>
    let x := min (64 * one) (if 0 ≤ e then m * 2 ^ (min e 8).toNat * one else m * one / 2 ^ (-e).toNat)
    let y := 2 * x
    let n := y / ln2Fx
    let E := expFx (y % ln2Fx) * 2 ^ n
    (s, (E - one) * one / (E + one), -(fxBits : Int))

/-- The bound of R202 in ulp. -/
def specialUlp (fn : Nat) : Nat := if fn = 0 ∨ fn = 2 then 1 else 2

/-- A special function of FP32 bits (R202): the special values, else a value within the bound, the free choice Config.specialError. -/
def special (fn w : Nat) : Nat :=
  let inf (s : Bool) := fp32.round 0 (.inf s)
  match fp32.decode (fp32.ftz true w) with
  | .nan => fp32.nanBits
  | .inf s =>
    match fn with
    | 0 => fp32.signed s 0
    | 1 => if s then fp32.nanBits else 0
    | 2 => if s then fp32.nanBits else inf false
    | 3 => if s then 0 else inf false
    | 4 => if s then fp32.nanBits else inf false
    | _ => fp32.round 0 (.num s 1 0)
  | .num s m e =>
    if m = 0 then
      match fn with
      | 0 => inf s
      | 1 => inf s
      | 2 => fp32.signed s 0
      | 3 => fp32.round 0 (.num false 1 0)
      | 4 => inf true
      | _ => fp32.signed s 0
    else if s && (fn == 1 || fn == 2 || fn == 4) then fp32.nanBits
    else
      let r := specialExact fn s m e
      let t := truncBits r.2.1 r.2.2
      fp32.ftz true (fp32.signed r.1 (withinUlp (specialUlp fn) t.1 t.2 (Config.specialError fn w)))

end Sys2Proof.Machine
end

