-- ==== Sys2Proof/Machine/LineTime.lean ====
section
/-! DEFINITION. Line time: the counter, its lock states, markers, and the events of LTREF and LTEPOCH (R48 to R64, R687, R688). -/

namespace Sys2Proof.Machine

/-- The lock state (R55): 0 UNLOCKED, 1 FREQ, 2 EPOCH, 3 SYSTEM, 4 HOLDOVER. -/
def ltState (m : Chip) : Nat := fget m TT_LT_STAT_STATE

/-- The module is in SYSTEM or HOLDOVER. -/
def ltLocked (m : Chip) : Bool := ltState m == 3 || ltState m == 4

/-- Mioto clears TT_CTRL.ARM, to set it again at a later epoch boundary; a clear that software made before stays in force (R79). -/
def mioClearArm (m : Chip) : Chip := fset { m with lt := { m.lt with armDue := m.lt.armDue || fon m TT_CTRL_ARM } } TT_CTRL_ARM 0

/-- Enter a lock state: LOCK_LOST on an exit from SYSTEM other than to HOLDOVER, ARM by R79, and the LT_STATE notice of any change. -/
def ltEnter (m : Chip) (st : Nat) : Chip :=
  let old := ltState m
  if old = st then m
  else
    let m1 := if old = 3 ∧ st ≠ 4 then fset m TT_LT_STAT_LOCK_LOST 1 else m
    let m2 := if (old = 3 ∧ st ≠ 4) ∨ (old = 4 ∧ (st = 0 ∨ st = 1)) then mioClearArm m1 else m1
    let m3 := if st = 4 then { m2 with lt := { m2.lt with held := 0, hopsBefore := fget m2 TT_LT_STAT_HOPS } } else m2
    let m4 := if st = 3 then { m3 with lt := { m3.lt with good := 0, bad := 0, extRef := false } } else m3
    let m4 := if st = 2 then { m4 with lt := { m4.lt with epochAt := now m4 / 2 ^ 20 } } else m4
    let m5 := fset m4 TT_LT_STAT_STATE st
    notice m5 7 [csr m5 TT_LT_STAT_STATE.off]

/-- Step LT forward by n (R49, R57); LT is 64 bits (R50). -/
def ltStep (m : Chip) (n : Nat) : Chip := { m with lt := { m.lt with lt := (m.lt.lt + n) % 2 ^ 64 } }

/-- LT stops counting for n ns (R49, R57). -/
def ltPause (m : Chip) (n : Nat) : Chip := { m with lt := { m.lt with pause := m.lt.pause + n } }

/-- On entering SYSTEM, LT steps forward or pauses to the parent's value as the filtered offset, the parent's LT less this module's, gives it (R57). -/
def ltAgree (m : Chip) : Chip :=
  let off := m.lt.filtered / 16
  let m1 := { m with lt := { m.lt with filtered := m.lt.filtered - 16 * off } }
  if 0 < off then ltStep m1 off.toNat else ltPause m1 (-off).toNat

/-- The filtered offset error in 1/16 lt: before SYSTEM that of LT[19:0], since LT[63:20] is local (R55), and the whole offset from then on (R58). -/
def offsetErr (m : Chip) (f : Int) : Nat := if ltState m < 3 then ((f + 2 ^ 23) % 2 ^ 24 - 2 ^ 23).natAbs else f.natAbs

/-- Complete a TT.LOCK that has reached SYSTEM. -/
def lockDone (m : Chip) : Chip :=
  match m.lt.lock with
  | some q => respond { m with lt := { m.lt with lock := none } } q.m 0 [csr m TT_LT_STAT_STATE.off]
  | none => m

/-- LTREF_LOCK (R55): the multiplier locks to a present LTREF; with lock requested LT enters FREQ. -/
def doLtrefLock (m : Chip) : Chip :=
  let m1 := fset m TT_LT_STAT_LTREF_OK 1
  if ltState m1 = 0 ∧ m1.lt.wanted then ltEnter m1 1 else m1

/-- Meaning of LTREF_LOCK. -/
def execLtrefLock (s : State) : Host.Outcome State Fault Refusal := run s doLtrefLock

/-- LTREF_LOSS (R55): SYSTEM holds over; FREQ and EPOCH fall to UNLOCKED. -/
def doLtrefLoss (m : Chip) : Chip :=
  let m1 := fset { m with lt := { m.lt with extRef := false } } TT_LT_STAT_LTREF_OK 0
  match ltState m1 with
  | 3 => ltEnter m1 4
  | 1 => ltEnter m1 0
  | 2 => ltEnter m1 0
  | _ => m1

/-- Meaning of LTREF_LOSS. -/
def execLtrefLoss (s : State) : Host.Outcome State Fault Refusal := run s doLtrefLoss

/-- The alignment of R49 outside SYSTEM, with r = LT[19:0] at the pulse. -/
def ltAlign (m : Chip) : Chip :=
  let r := now m % 2 ^ 20
  if r = 0 then m else if r ≥ 2 ^ 19 then ltStep m (2 ^ 20 - r) else ltPause m r

/-- LTEPOCH_PULSE (R49, R55, R62). -/
def doLtepochPulse (m : Chip) : Chip :=
  let okNow := m.lt.lastPulse == some (m.ns - 2 ^ 20) && decide (2 ^ 20 ≤ m.ns)
  let m1 := fset { m with lt := { m.lt with lastPulse := some m.ns } } TT_LT_STAT_LTEPOCH_OK (b2n okNow)
  let m1 := if okNow then m1 else { m1 with lt := { m1.lt with extRef := false } }
  if ltState m1 = 3 then
    let r := now m1 % 2 ^ 20
    if 2 < r ∧ r < 2 ^ 20 - 2 then bump (fset m1 TT_LT_STAT_EPOCH_SLIP 1) TT_SLIP_CTR 1 else m1
  else
    let m2 := ltAlign m1
    if ltState m2 = 1 ∧ okNow ∧ fon m2 TT_LT_STAT_LTREF_OK then ltEnter { m2 with lt := { m2.lt with good := 0 } } 2 else m2

/-- Meaning of LTEPOCH_PULSE. -/
def execLtepochPulse (s : State) : Host.Outcome State Fault Refusal := run s doLtepochPulse

/-- LTEPOCH_LOSS (R64, R688): no pulse where one is due; EPOCH falls to FREQ. -/
def doLtepochLoss (m : Chip) : Chip :=
  let m1 := fset { m with lt := { m.lt with extRef := false, lastPulse := none } } TT_LT_STAT_LTEPOCH_OK 0
  if ltState m1 = 2 then ltEnter m1 1 else m1

/-- Meaning of LTEPOCH_LOSS. -/
def execLtepochLoss (s : State) : Host.Outcome State Fault Refusal := run s doLtepochLoss

/-- HOLDOVER lasts longer than its limit, and R687 does not suspend R60. -/
def holdoverOver (m : Chip) : Bool := ltState m == 4 && decide (fget m TT_HOLDOVER_LIMIT < m.lt.held) && !m.lt.extRef

/-- HOLDOVER_EXPIRE (R60). -/
def doHoldoverExpire (m : Chip) : Chip :=
  ltEnter (fset m TT_LT_STAT_HOLDOVER_EXPIRED 1) (if fon m TT_LT_STAT_LTREF_OK then 1 else 0)

/-- Meaning of HOLDOVER_EXPIRE. -/
def execHoldoverExpire (s : State) : Host.Outcome State Fault Refusal := runIf s holdoverOver doHoldoverExpire

/-- A TT.LOCK has had its 64 epochs. -/
def lockLate (m : Chip) : Bool := m.lt.lock.any (fun q => q.left == 0)

/-- TT_LOCK_TIMEOUT: TT.LOCK completes with TT_NOLOCK. -/
def doTtLockTimeout (m : Chip) : Chip :=
  match m.lt.lock with
  | some q => respond { m with lt := { m.lt with lock := none } } q.m 0x0203 [csr m TT_LT_STAT_STATE.off]
  | none => m

/-- Meaning of TT_LOCK_TIMEOUT. -/
def execTtLockTimeout (s : State) : Host.Outcome State Fault Refusal := runIf s lockLate doTtLockTimeout

/-- MARK_REQ_RX (R519, R520): answered with MARK_REP carrying the arrival time in 1/16 lt; its departure time goes in when it is sent. -/
def doMarkReqRx (p sub : Nat) (m : Chip) : Chip :=
  let t2 := (now m * 16 + sub % 16) % 2 ^ 64
  let hops := if ltState m = 3 ∨ ltState m = 4 then fget m TT_LT_STAT_HOPS else 0xFF
  sendCtl m p 2 (lohi t2 ++ [0, 0, hops + ltState m * 256, 0, 0, 0])

/-- Meaning of MARK_REQ_RX. -/
def execMarkReqRx (port sub : Nat) (s : State) : Host.Outcome State Fault Refusal :=
  runIf s (fun m => decide (port < 36) && decide (3 ≤ linkSt m port)) (doMarkReqRx port sub)

/-- The offset of R52 in 1/16 lt, truncating. -/
def markOffset (t1 t2 t3 t4 : Nat) : Int := ((Int.ofNat t2 - Int.ofNat t1) - (Int.ofNat t4 - Int.ofNat t3)).tdiv 2

/-- The filter of R52. -/
def markFilter (fresh : Bool) (old off : Int) : Int := if fresh then off else old + (off - old).tdiv 16

/-- A port that may lead to a time parent: mesh or torus. -/
def parentPort (p : Nat) : Bool := (meshIdx p).isSome || (torusRole p).isSome

/-- A link in LOCK takes its round trip, and goes ACTIVE with it when its clock is near (R529). -/
def markRtt (p t1 t2 t3 t4 : Nat) (m : Chip) : Chip :=
  if linkSt m p = 3 then
    let rtt := sat 65535 (((t4 - t1) - (t3 - t2)) / 16)
    fset (fset m (LNKp_RTT_RTT p) rtt) (LNKp_LINK_RTT_LONG p) (b2n (decide (1310 < rtt)))
  else m

/-- The parent's marker feeds the filter (R52), from EPOCH on. -/
def markParent (t1 t2 t3 t4 hops : Nat) (m : Chip) : Chip :=
  let f := markFilter m.lt.fresh m.lt.filtered (markOffset t1 t2 t3 t4)
  let m2 := { m with lt := { m.lt with filtered := f, fresh := false, marked := true } }
  fset (fset m2 TT_LT_STAT_OFFSET_ERR (sat 255 (offsetErr m f / 16))) TT_LT_STAT_HOPS (hops + 1)

/-- MARK_REP_RX (R52, R53, R61, R529): a link in LOCK takes its round trip; the parent's marker feeds the filter; any neighbour's
HOPS and STATE are noted for the choice of a parent. -/
def doMarkRepRx (p t2 t3 hops st sub : Nat) (m : Chip) : Chip :=
  let t4 := now m * 16 + sub % 16
  let t1 := tget 0 p m.lt.sent
  let m0 := markRtt p t1 t2 t3 t4 m
  if fon m0 TT_CTRL_ROOT || !parentPort p then m0
  else
    let m1 := { m0 with lt := { m0.lt with heard := tput (0, 0) p (hops + 1, st + 1) m0.lt.heard } }
    if m1.lt.parent == some p && decide (2 ≤ ltState m1) then markParent t1 t2 t3 t4 hops m1 else m1

/-- Meaning of MARK_REP_RX. -/
def execMarkRepRx (port t2 t3 hops state sub : Nat) (s : State) : Host.Outcome State Fault Refusal :=
  runIf s (fun m => decide (port < 36) && decide (3 ≤ linkSt m port)) (doMarkRepRx port t2 t3 hops state sub)

/-- The parent that R61 picks among the neighbours heard: SYSTEM, HOPS below the limit, smallest HOPS, then lowest port. -/
def pickParent (m : Chip) (limit : Nat) : Option Nat :=
  let c := (List.range 36).filter (fun p => linkActive m p && parentPort p && (tget (0, 0) p m.lt.heard).2 == 4 &&
    decide ((tget (0, 0) p m.lt.heard).1 ≤ limit) && decide (1 ≤ (tget (0, 0) p m.lt.heard).1))
  c.foldl (fun b p => match b with
    | none => some p
    | some q => if (tget (0, 0) p m.lt.heard).1 < (tget (0, 0) q m.lt.heard).1 then some p else some q) none

/-- Send MARK_REQ on the parent's port, or on every neighbour's while there is no parent (R52, R61). -/
def sendMarks (m : Chip) : Chip :=
  match m.lt.parent with
  | some p => if linkActive m p then sendCtl m p 1 [] else m
  | none => ((List.range 36).filter (fun p => parentPort p && linkActive m p)).foldl (fun c p => sendCtl c p 1 []) m

/-- A module that is not the root weighs the markers of the epoch just ended (R55, R57, R58, R61). -/
def ltWeigh (m : Chip) : Chip :=
  let err := offsetErr m m.lt.filtered
  if m.lt.marked then
    match ltState m with
    | 2 =>
      let g := if err ≤ 32 then m.lt.good + 1 else 0
      let m1 := { m with lt := { m.lt with good := g } }
      if g ≥ 16 then lockDone (ltEnter (ltAgree m1) 3) else m1
    | 3 =>
      let b := if err > 64 then m.lt.bad + 1 else 0
      let m1 := { m with lt := { m.lt with bad := b } }
      if b ≥ 4 then ltEnter { m1 with lt := { m1.lt with bad := 0, good := 0 } } 2 else m1
    | 4 => if fon m TT_LT_STAT_LTREF_OK then lockDone (ltEnter (ltAgree m) 3) else m
    | _ => m
  else if ltState m < 2 then m
  else
    let m1 := if m.lt.parent.isSome ∧ ltState m = 3 then ltEnter m 4 else m
    let m2 := if ltState m1 = 2 then { m1 with lt := { m1.lt with good := 0 } } else m1
    let lim := if ltState m2 = 4 then m2.lt.hopsBefore else 255
    match pickParent m2 lim with
    | some p => { m2 with lt := { m2.lt with parent := some p, fresh := true } }
    | none => if ltState m2 = 4 then { m2 with lt := { m2.lt with parent := none } } else m2

/-- The time root at the first epoch boundary after it entered EPOCH enters SYSTEM with the epoch number it was given (R56). -/
def ltRoot (m : Chip) : Chip :=
  if ltState m = 2 ∧ m.lt.wanted ∧ m.lt.epochAt < now m / 2 ^ 20 then
    let m1 := { m with lt := { m.lt with lt := (m.lt.rootEpoch * 2 ^ 20 + now m % 2 ^ 20) % 2 ^ 64, hkEpoch := m.lt.rootEpoch } }
    lockDone (ltEnter (fset (fset m1 TT_LT_STAT_HOPS 0) TT_LT_STAT_OFFSET_ERR 0) 3)
  else if ltState m = 4 ∧ fon m TT_LT_STAT_LTREF_OK then lockDone (ltEnter m 3)
  else m

/-- The line-time part of an epoch boundary. -/
def ltEpoch (m : Chip) : Chip :=
  let m1 := if ltState m = 4 then { m with lt := { m.lt with held := m.lt.held + 1 } } else m
  let m2 := if fon m1 TT_CTRL_ROOT then ltRoot m1 else ltWeigh m1
  let m3 := { m2 with lt := { m2.lt with marked := false, heard := [], lock := m2.lt.lock.map (fun q => { q with left := q.left - 1 }) } }
  if fon m3 TT_CTRL_ROOT then m3 else sendMarks m3

/-- ARM_SET (R79): Mioto sets ARM at the first epoch boundary in SYSTEM outside FENCED and RELEASED. -/
def armSet (m : Chip) : Chip :=
  if m.lt.armDue && ltState m == 3 && fget m TWIN_STAT_STATE != 7 && fget m TWIN_STAT_STATE != 6
  then fset { m with lt := { m.lt with armDue := false } } TT_CTRL_ARM 1 else m

end Sys2Proof.Machine
end

