-- ==== Sys2Proof/Machine/Catalogue.lean ====
section
/-! DEFINITION. The command catalogue: request lengths, reserved fields and encodings, the units a command names, and the expert
forms (R628, R630, R632, R659 to R663). -/

namespace Sys2Proof.Machine

/-- A 32-bit field that takes every value. -/
def allBits : Nat := 0xFFFFFFFF

/-- The catalogue: code, request length (R659), and the bits of each payload word that are not reserved. TT.POST, PTS.TABLE
and CON.RUN have layouts of their own. -/
def catalogueSys : List (Nat × Nat × List Nat) :=
  [(0x0101, 0, []), (0x0102, 0, []), (0x0103, 0, []),
   (0x0104, 7, [0xFFFFC03F, 0x1FFF, allBits, 0xFFFF, allBits, 0xFFFF, allBits]),
   (0x0105, 2, [0x8000003F, 0xFFFF]), (0x0106, 1, [0xF0000000]),
   (0x0201, 3, [0x7FF, allBits, 0xFFF]), (0x0202, 0, []),
   (0x0203, 20, [0xFFF8FFFF, allBits, 0x03FFFFFF, allBits, allBits, 0xFFFF, allBits, 0xFFFF, allBits, 0xFFFF,
     allBits, allBits, 0xFFFF, allBits, 0xFFFF, allBits, 0xFFFF, 0xFFFF, 0x1FFFFFFF, allBits]),
   (0x0204, 0, [0x1F]), (0x0205, 1, [0xFFFF]), (0x0206, 1, [0xFFF]), (0x0207, 1, [1])]

/-- Buffer, consist, points and HBM commands. -/
def catalogueMem : List (Nat × Nat × List Nat) :=
  [(0x0301, 3, [0xFF3F0000, 0x0007FFFF, 7]), (0x0302, 1, [0x107]), (0x0303, 4, [allBits, 0xFFFF, allBits, 0x8F]),
   (0x0304, 4, [allBits, 0xFFFF, allBits, 0xF]), (0x0305, 3, [allBits, 0xFFFF, 3]),
   (0x0401, 14, []), (0x0402, 2, [0xC0FF007F, 0xFFFF]), (0x0403, 1, [0xF1]),
   (0x0501, 0, [0xFFF]), (0x0502, 14, []), (0x0503, 14, []), (0x0504, 1, [1]),
   (0x0601, 1, [0xF000003F]), (0x0602, 1, [0x31F]), (0x0603, 4, [allBits, 0xFFFF, allBits, 0x8F]),
   (0x0604, 3, [allBits, 0xFFFF, 3]), (0x0605, 1, [0x1F])]

/-- Link, die-link, host, twin, power, security and diagnostic commands. -/
def catalogueRest : List (Nat × Nat × List Nat) :=
  [(0x0701, 1, [0xF000003F]), (0x0702, 1, [0xF3F]), (0x0703, 1, [0xF3F]), (0x0704, 2, [0xFF000F3F, 0x1F]),
   (0x0705, 1, [0x3F]), (0x0706, 1, [0x003F00FF]),
   (0x0801, 1, [0xF8000007]), (0x0802, 1, [0xF]), (0x0803, 2, [0x000F11FF, 0x7F]), (0x0804, 0, []),
   (0x0901, 1, [0x80FFFFFF]), (0x0902, 2, [0xC00FFFFF, 0x1FFFFF]), (0x0903, 1, [0xFFFF000D]),
   (0x0A01, 3, [0x7FF, allBits, 0xFFFF]), (0x0A02, 1, [0xF0000000]),
   (0x0A03, 6, [0xF000000F, allBits, 0xFFFF, allBits, 0xFFFF, 0x1FFFF]), (0x0A04, 0, []), (0x0A05, 1, [0xFFFFF700]),
   (0x0B01, 1, [0x80F00FFF]), (0x0B02, 0, []),
   (0x0C01, 0, []), (0x0C02, 9, [0xF1000000]), (0x0C03, 4, [0xF1000000, allBits, 0xFFFF, allBits]),
   (0x0D01, 1, [7]), (0x0D02, 3, [0xF000001F]), (0x0D03, 1, [7])]

/-- The entry of a code. -/
def catEntry (code : Nat) : Option (Nat × List Nat) :=
  ((catalogueSys ++ catalogueMem ++ catalogueRest).find? (fun e => e.1 == code)).map (·.2)

/-- The request length of a code, given the payload words as they stand (R659). -/
def catLen (code : Nat) (pay : List Nat) : Option Nat :=
  (catEntry code).map (fun e =>
    if code == 0x0204 then 1 + 8 * bitsN (nth pay 0) 4 0 else if code == 0x0501 then 2 + nth pay 1 else e.1)

/-- No payload word has a reserved bit set. -/
def maskOk (masks pay : List Nat) : Bool := (masks.zip pay).all (fun p => p.2 &&& p.1 == p.2)

/-! ### Descriptor and job fields (R335, R396) -/

/-- The fields of a consist descriptor, words 0 to 13, hold no reserved bit and no reserved encoding (R334, R335). -/
def descFieldsOk (w : List Nat) : Bool :=
  let w0 := nth w 0
  let op := bitsN w0 31 28
  let master := bitsN w0 23 16
  let common := bitsN w0 26 24 == 0 && (master == 0 || decide (16 ≤ master)) && bitsN (nth w 1) 15 0 == 0 &&
    decide (1 ≤ bitsN (nth w 1) 31 16) && [3, 5, 7].all (fun i => decide (nth w i < 65536)) && nth w 13 == 0
  let auxZero := nth w 6 == 0 && nth w 7 == 0 && nth w 9 == 0
  common && (
    if op == 1 then decide (bitsN w0 15 12 < 12) && decide (bitsN w0 11 8 < 12) && bitsN w0 5 0 == 0 && decide (nth w 8 ≤ 1048576)
    else if op == 2 then bitsN w0 15 0 == 0 && auxZero
    else if op == 3 then decide (bitsN w0 15 12 < 12) && bitsN w0 10 0 == 0 && (!tb w0 11 || (nth w 4 == 0 && nth w 5 == 0))
    else if op == 4 then decide (1 ≤ bitsN w0 15 12) && decide (bitsN w0 15 12 ≤ 3) && decide (bitsN w0 11 8 ≤ 3) && bitsN w0 7 0 == 0 && auxZero
    else false)

/-- The fields of a points job, words 0 to 13, hold no reserved bit and no reserved encoding (R396). -/
def jobFieldsOk (w : List Nat) : Bool :=
  let w0 := nth w 0
  let op := bitsN w0 31 28
  bitsN w0 25 24 == 0 && bitsN w0 15 0 == 0 && decide (1 ≤ bitsN (nth w 1) 31 16) &&
    [2, 5, 6, 7].all (fun i => decide (nth w i < 2 ^ 26)) && decide (nth w 12 < 2 ^ 13) &&
    (op == 1 || (op == 2 && bitsN w0 26 26 == 0 && bitsN w0 23 16 == 0 && nth w 5 == 0 && nth w 7 == 0 && nth w 8 == 0))

/-! ### Timetable row fields -/

/-- A row of a post has no reserved bit (R70). -/
def rowReservedOk (w : List Nat) : Bool :=
  bitsN (nth w 0) 20 16 == 0 && bitsN (nth w 2) 31 26 == 0 && bitsN (nth w 4) 31 24 == 0 && bitsN (nth w 5) 7 0 == 0 &&
    decide (1 ≤ bitsN (nth w 0) 31 28) && decide (bitsN (nth w 0) 31 28 ≤ 9) && decide (bitsN (nth w 7) 31 24 ≤ 5)

/-- Rows of a TT.POST payload. -/
def postRows (pay : List Nat) : List (List Nat) :=
  (List.range (bitsN (nth pay 0) 4 0)).map (fun i => (pay.drop (1 + 8 * i)).take 8)

/-! ### Encodings -/

/-- The encodings of SYS and TT payloads (R645, R655, R660 to R662). -/
def encSys (m : Chip) (code : Nat) (p : List Nat) : Bool :=
  let w0 := nth p 0
  if code == 0x0104 then
    let kind := bitsN w0 27 24
    let v := bitsN w0 20 14
    let n := bitsN (nth p 1) 12 0
    if bitsN w0 31 28 == 1 then bitsN w0 27 6 == 0 && (p.drop 1).all (· == 0)
    else bitsN w0 31 28 == 0 && decide (1 ≤ kind) && decide (kind ≤ 7) && (decide (v ≤ 63) || v == 0x7F) && bitsN w0 22 21 != 3 &&
      (tb w0 23 || bitsN w0 22 21 == 0) && (decide (kind ≤ 5) || (!tb w0 23 && nth p 4 == 0 && nth p 5 == 0)) &&
      [16, 32, 64, 128, 256, 512, 1024, 2048, 4096].contains n
  else if code == 0x0105 then !tb w0 31 || nth p 1 == 0
  else if code == 0x0106 then decide (bitsN w0 31 28 ≤ 1)
  else if code == 0x0201 then decide (moduleNum m = some w0) || (nth p 1 == 0 && nth p 2 == 0)
  else if code == 0x0203 then
    let t := bitsN w0 31 28
    decide (1 ≤ t) && decide (t ≤ 6) && decide (bitsN w0 27 24 ≤ 3) && decide (bitsN w0 23 20 ≤ 3) &&
      (bitsN w0 27 24 != 0 || bitsN w0 23 20 == 0) && (!([2, 5, 6].contains t) || bitsN w0 27 24 == 0) &&
      (!([5, 6].contains t) || nth p 3 == 0) && ([5, 6].contains t || (nth p 18 == 0 && nth p 19 == 0)) && decide (nth p 17 ≤ 6400)
  else if code == 0x0204 then decide (1 ≤ w0) && decide (w0 ≤ 16)
  else if code == 0x0205 then w0 != 0
  else true

/-- The encodings of BUF, CON, PTS and HBM payloads. -/
def encMem (code : Nat) (p : List Nat) : Bool :=
  let w0 := nth p 0
  if code == 0x0301 then
    if bitsN w0 31 28 == 1 then bitsN w0 27 0 == 0 && nth p 1 == 0
    else bitsN w0 31 28 == 0 && decide (bitsN w0 26 24 ≤ 5) && decide (1 ≤ bitsN (nth p 1) 7 0) && nth p 2 == 0
  else if code == 0x0303 then decide (1 ≤ nth p 2) && decide (bitsN (nth p 3) 3 0 ≤ 8)
  else if code == 0x0304 then decide (1 ≤ nth p 2) && decide (nth p 3 ≤ 8)
  else if code == 0x0305 then decide (nth p 2 ≤ 2)
  else if code == 0x0401 then descFieldsOk p
  else if code == 0x0402 then
    let ms := bitsN w0 23 16
    (tb w0 6 || bitsN w0 5 0 == 0) && ms != 14 && ms != 15 && (bitsN w0 31 30 == 0 || decide (1 ≤ nth p 1))
  else if code == 0x0403 then bitsN w0 7 4 != 0
  else if code == 0x0501 then decide (1 ≤ nth p 1) && decide (nth p 1 ≤ 256) && decide (w0 + nth p 1 ≤ 4096) && (p.drop 2).all (fun e => e &&& 0x87FF0FFF == e)
  else if code == 0x0502 then jobFieldsOk p && bitsN w0 31 28 == 1
  else if code == 0x0503 then jobFieldsOk p && bitsN w0 31 28 == 2
  else if code == 0x0601 then decide (bitsN w0 31 28 ≤ 1) && decide (bitsN w0 4 0 < 24) && (bitsN w0 31 28 == 1 || !tb w0 5)
  else if code == 0x0602 || code == 0x0605 then decide (bitsN w0 4 0 < 24)
  else if code == 0x0603 then decide (1 ≤ nth p 2)
  else true

/-- The encodings of the remaining families' payloads. -/
def encRest (code : Nat) (p : List Nat) : Bool :=
  let w0 := nth p 0
  if code == 0x0701 then decide (bitsN w0 31 28 ≤ 1) && decide (bitsN w0 5 0 < 36)
  else if code == 0x0702 || code == 0x0703 || code == 0x0705 then decide (bitsN w0 5 0 < 36)
  else if code == 0x0704 then decide (bitsN w0 5 0 < 36) && decide (1 ≤ bitsN w0 31 28) && decide (bitsN w0 31 28 ≤ 3) && bitsN w0 27 26 != 3 &&
    (nth p 1 == 0 || (decide (16 ≤ nth p 1) && decide (nth p 1 ≤ 30)))
  else if code == 0x0706 then bitsN w0 21 20 != 3
  else if code == 0x0801 then decide (bitsN w0 31 28 ≤ 1) && (bitsN w0 31 28 == 0 || !tb w0 27)
  else if code == 0x0802 then decide (w0 ≤ 8)
  else if code == 0x0803 then
    decide (bitsN w0 19 16 ≤ 8) && decide (1 ≤ nth p 1) && decide (nth p 1 ≤ 64) &&
      decide (bitsN w0 8 0 + nth p 1 ≤ (if bitsN w0 19 16 = 8 then 56 else 288))
  else if code == 0x0901 then tb w0 31 || bitsN w0 17 0 == 0
  else if code == 0x0902 then decide (1 ≤ nth p 1) && decide (nth p 1 ≤ 2 ^ 20) && decide (bitsN w0 19 0 + nth p 1 ≤ 2 ^ 20)
  else if code == 0x0903 then decide (1 ≤ bitsN w0 31 16) && decide (bitsN w0 31 16 ≤ 60000)
  else if code == 0x0A02 then decide (bitsN w0 31 28 ≤ 3)
  else if code == 0x0A03 then
    if bitsN w0 31 28 == 1 then (p.drop 1).all (· == 0) else bitsN w0 31 28 == 0 && decide (1 ≤ nth p 5) && decide (nth p 5 ≤ 65536)
  else if code == 0x0A05 then decide (1 ≤ bitsN w0 31 22) && decide (8 ≤ bitsN w0 21 14) && decide (1 ≤ bitsN w0 10 8)
  else if code == 0x0B01 then decide (bitsN w0 23 20 ≤ 11)
  else if code == 0x0C02 then
    if bitsN w0 31 28 == 0 then !tb w0 24 else bitsN w0 31 28 == 1 && (p.drop 2).all (· == 0)
  else if code == 0x0C03 then
    decide (bitsN w0 31 28 ≤ 2) && (bitsN w0 31 28 == 1 || !tb w0 24) && (bitsN w0 31 28 == 0 || (p.drop 1).all (· == 0))
  else if code == 0x0D02 then decide (bitsN w0 31 28 ≤ 2) && decide (bitsN w0 4 0 < 24)
  else true

/-- Check 3 of R630: header and payload hold no reserved bit and no reserved encoding. -/
def fieldsOk (m : Chip) (code hdr : Nat) (pay : List Nat) : Bool :=
  bitsN hdr 15 9 == 0 && maskOk ((catEntry code).elim [] (·.2)) pay && encSys m code pay && encMem code pay && encRest code pay

/-- The command is the expert form of its function (R10, R659). -/
def expertForm (code : Nat) (p : List Nat) : Bool :=
  let w0 := nth p 0
  if code == 0x0104 then tb w0 23 || nth p 6 != 0
  else if code == 0x0105 then tb w0 31
  else if code == 0x0204 then true
  else if code == 0x0301 then bitsN w0 31 28 == 0 && bitsN w0 21 16 != 63
  else if code == 0x0303 || code == 0x0304 || code == 0x0603 then nth p 3 != 0
  else if code == 0x0402 then tb w0 6
  else if code == 0x0502 then !tb w0 26
  else if code == 0x0601 then tb w0 5
  else if code == 0x0801 then tb w0 27
  else if code == 0x0902 then tb w0 30
  else if code == 0x0903 then tb w0 3
  else if code == 0x0A02 then bitsN w0 31 28 == 3
  else if code == 0x0A05 then !tb w0 13 || tb w0 12 || decide (bitsN w0 10 8 < 4) || decide (bitsN w0 21 14 < 16)
  else if code == 0x0B01 then tb w0 31 || bitsN w0 23 20 != 0
  else if code == 0x0C03 then tb w0 24
  else false

/-- The function a code belongs to: TT.POST is the expert form of TT.SCHEDULE. -/
def functionOf (code : Nat) : Nat := if code = 0x0204 then 0x0203 else code

/-- The units a command names (R632): kind 1 stack, 2 port, 3 die (8 the coupler), 4 buffer half, 5 region slot, 6 points engine, 7 ring, 8
window segment, 9 bias granules (first * 2^21 + count), 10 base die, 11 the timetable. -/
def unitsOf (code : Nat) (p : List Nat) : List (Nat × Nat) :=
  let w0 := nth p 0
  let half := (4, bitN (nth p 1) 0)
  if code == 0x0104 || code == 0x0105 then [(7, bitsN w0 5 0)]
  else if code / 256 == 2 then (if code == 0x0202 || code == 0x0206 then [] else [(11, 0)])
  else if code == 0x0301 then (if bitsN w0 31 28 == 0 then [(4, bitN w0 27)] else [(5, bitsN (nth p 2) 2 0)])
  else if code == 0x0302 then [(5, bitsN w0 2 0)]
  else if code == 0x0303 || code == 0x0304 || code == 0x0305 then [half]
  else if code == 0x0401 then
    let p0 := if bitsN w0 31 28 == 3 && tb w0 11 then 6 else 4
    [(10, sideOf (nth p p0 + 2 ^ 32 * nth p (p0 + 1)))]
  else if code == 0x0403 then [(10, bitN w0 0)]
  else if code == 0x0501 then [(6, 0), (6, 1)]
  else if code == 0x0502 || code == 0x0503 then [(6, bitN (nth p 6) 25)]
  else if code == 0x0504 then [(6, bitN w0 0)]
  else if code == 0x0601 || code == 0x0602 || code == 0x0605 || code == 0x0D02 then [(1, bitsN w0 4 0)]
  else if code == 0x0603 || code == 0x0604 then [(1, bitsN (nth p 1) 8 4)]
  else if code / 256 == 7 then (if code == 0x0706 then [] else [(2, bitsN w0 5 0)])
  else if code == 0x0801 || code == 0x0D01 || code == 0x0D03 then [(3, bitsN w0 2 0)]
  else if code == 0x0802 then [(3, bitsN w0 3 0)]
  else if code == 0x0803 then [(3, bitsN w0 19 16)]
  else if code == 0x0901 then [(8, bitsN w0 23 18)]
  else if code == 0x0902 then [(9, bitsN w0 19 0 * 2 ^ 21 + nth p 1)]
  else []

/-- Two unit names are of one unit. -/
def unitMeets (a b : Nat × Nat) : Bool :=
  a.1 == b.1 && (if a.1 = 9 then
      decide (a.2 / 2 ^ 21 < b.2 / 2 ^ 21 + b.2 % 2 ^ 21) && decide (b.2 / 2 ^ 21 < a.2 / 2 ^ 21 + a.2 % 2 ^ 21)
    else a.2 == b.2)

/-- Two lists of units share a unit. -/
def unitsMeet (a b : List (Nat × Nat)) : Bool := a.any (fun x => b.any (unitMeets x))

/-- SYS.STATE is READY (R660). -/
def sysReady (m : Chip) : Bool := m.start.phase == 5

/-- The command needs a state that the module has not reached (R630, check 4). -/
def notReady (m : Chip) (code : Nat) : Bool :=
  let f := code / 256
  if f = 2 then code != 0x0202 && (moduleNum m).isNone
  else if f = 1 ∨ f = 12 then false else !sysReady m

end Sys2Proof.Machine
end

