-- ==== Sys2Proof/Machine/Mailbox.lean ====
section
/-! DEFINITION. Issuing mailbox commands: the checks of R630, conflicts (R632), and the waiting commands' start (R622 to R634). -/

namespace Sys2Proof.Machine

/-- An issued command of another mailbox that conflicts with one of these units and went before it. -/
def conflicts (m : Chip) (i order : Nat) (units : List (Nat × Nat)) : List MbRun :=
  (List.range 4).filterMap (fun j =>
    match mbRun m j with
    | some r => if j ≠ i ∧ r.order < order ∧ unitsMeet r.units units then some r else none
    | none => none)

/-- The status that the unit's chapter gives where two commands meet (R322, R458): a scrub of a half or a stack. -/
def chapterBusy (code : Nat) (rs : List MbRun) : Bool :=
  (code == 0x0303 || code == 0x0603) && rs.any (fun r => r.code == code || (code == 0x0603 && r.code == 0x0D02))

/-- The first failing check of 1 to 3 of R630, with its DETAIL; none when they pass. -/
def goChecks (m : Chip) (code hdr : Nat) (pay : List Nat) : Option (Nat × Nat) :=
  match catLen code pay with
  | none => some (3, 0)
  | some n =>
    if bitsN hdr 8 0 ≠ n then some (4, 0)
    else if !fieldsOk m code hdr pay then some (2, if code = 0x0203 ∨ code = 0x0204 then 0xFFFFFFFF else 0)
    else if code = 0x0204 then ((postRows pay).findIdx? (fun r => !rowReservedOk r)).map (fun k => (2, k))
    else none

/-- Issue the command in mailbox i: a rejected one completes at once; one that meets an earlier command waits, or completes with
BUSY (R630 to R632). -/
def issue (m : Chip) (i : Nat) : Chip :=
  let hdr := reqWord m i 0
  let code := bitsN hdr 31 16
  let pay := reqPay m i (bitsN hdr 8 0)
  match goChecks m code hdr pay with
  | some e => respondD m i e.1 e.2 []
  | none =>
    let us := unitsOf code pay
    let ex := expertForm code pay
    let before := conflicts m i m.mbOrder us
    if before.any (fun r => functionOf r.code == functionOf code && !r.expert && ex) then fail m i 1
    else if chapterBusy code before then fail m i 1
    else if before.isEmpty ∧ notReady m code then fail m i 5
    else
      let r : MbRun := ⟨code, pay, ex, us, m.mbOrder, if before.isEmpty then 1 else 0, m.ns, []⟩
      setMb { m with mbOrder := m.mbOrder + 1 } i (some r)

/-- MAILBOX_GO (R623): a write of 1 to GO issues the command, or is ignored with OVERRUN. The write also sets VECTOR. -/
def doMailboxGo (i : Nat) (v : Nat) (m : Chip) : Chip :=
  let vec := bitsN v 6 0
  let m1 := if vec ≤ 63 ∨ vec = 0x7F then fset m (MBm_CTRL_VECTOR i) vec else m
  if fget m1 (MBm_STAT_STATE i) = 1 ∨ !fon m1 MB_GLOBAL_READY then
    bump (fset m1 (MBm_STAT_OVERRUN i) 1) MB_OVERRUN_CTR 1
  else issue (fset m1 (MBm_STAT_STATE i) 1) i

/-- Meaning of MAILBOX_GO. -/
def execMailboxGo (i : Nat) (val : Word) (s : State) : Host.Outcome State Fault Refusal :=
  runIf s (fun _ => decide (i < 4) && tb val.toNat 31) (doMailboxGo i val.toNat)

/-- The command of mailbox i waits, and every conflicting command issued before it has completed. -/
def mayResume (m : Chip) (i : Nat) : Bool :=
  match mbRun m i with
  | some r => r.phase == 0 && (conflicts m i r.order r.units).isEmpty
  | none => false

/-- COMMAND_WAIT_RESUME (R632): the waiting command starts and makes its own checks. -/
def doCommandWaitResume (i : Nat) (m : Chip) : Chip :=
  match mbRun m i with
  | some r => if notReady m r.code then fail m i 5 else setMb m i (some { r with phase := 1 })
  | none => m

/-- Meaning of COMMAND_WAIT_RESUME. -/
def execCommandWaitResume (i : Nat) (s : State) : Host.Outcome State Fault Refusal :=
  runIf s (fun m => mayResume m i) (doCommandWaitResume i)

end Sys2Proof.Machine
end

