-- ==== Sys2Proof/Machine/Rows.lean ====
section
/-! DEFINITION. Timetable rows: their fields, the checks of a post, arming, retiring, and the TT commands but TT.SCHEDULE (R66 to R92). -/

namespace Sys2Proof.Machine

/-! ### Fields of a row (R70) -/

/-- KIND of a row's words (R71). -/
def rowKind (w : List Nat) : Nat := bitsN (nth w 0) 31 28
/-- SUBKIND. -/
def rowSub (w : List Nat) : Nat := bitsN (nth w 0) 27 24
/-- NOTIFY. -/
def rowNotify (w : List Nat) : Bool := tb (nth w 0) 23
/-- LATE: 0 NEXT, 1 OMIT. -/
def rowLate (w : List Nat) : Nat := bitN (nth w 0) 22
/-- FEED_HBM. -/
def rowFeedHbm (w : List Nat) : Bool := tb (nth w 0) 21
/-- TAG. -/
def rowTag (w : List Nat) : Nat := bitsN (nth w 0) 15 0
/-- Start in lt. -/
def rowStart (w : List Nat) : Nat := (nth w 1 + bitsN (nth w 2) 25 0 * 2 ^ 32) * 64
/-- LENGTH in slot units. -/
def rowLen (w : List Nat) : Nat := bitsN (nth w 3) 31 16
/-- SPILL_TAG. -/
def rowSpill (w : List Nat) : Nat := bitsN (nth w 3) 15 0
/-- PERIOD in slot units. -/
def rowPeriod (w : List Nat) : Nat := bitsN (nth w 4) 23 0
/-- COUNT. -/
def rowCount (w : List Nat) : Nat := bitsN (nth w 5) 31 16
/-- RATE_PCT. -/
def rowRate (w : List Nat) : Nat := bitsN (nth w 5) 15 8
/-- Parameter block DA. -/
def rowParam (w : List Nat) : Nat := nth w 6 + bitsN (nth w 7) 15 0 * 2 ^ 32
/-- RES_CLASS. -/
def rowClass (w : List Nat) : Nat := bitsN (nth w 7) 31 24
/-- RES_INDEX. -/
def rowIndex (w : List Nat) : Nat := bitsN (nth w 7) 23 16

/-- Row k, when it is not FREE. -/
def rowAt (m : Chip) (k : Nat) : Option TtRow := tget none k m.rows

/-- Set row k. -/
def setRow (m : Chip) (k : Nat) (r : Option TtRow) : Chip := { m with rows := tput none k r m.rows }

/-- Change row k. -/
def modRow (m : Chip) (k : Nat) (f : TtRow → TtRow) : Chip := setRow m k ((rowAt m k).map f)

/-- The rows that are not FREE, in ascending index. -/
def rowsOf (m : Chip) : List (Nat × TtRow) := m.rows.filterMap (fun e => e.2.map (fun r => (e.1, r)))

/-- Software's rows. -/
def softRows (m : Chip) : List (Nat × TtRow) := (rowsOf m).filter (fun e => !e.2.mioto)

/-- The end of a row's window. -/
def rowEnd (r : TtRow) : Nat := r.start + rowLen r.w * 64

/-- The ports of a mask in two words. -/
def portsOf (lo hi : Nat) : List Nat := (List.range 36).filter (fun p => tb (lo + hi % 16 * 2 ^ 32) p)

/-- The row takes a parameter block. -/
def hasParam (w : List Nat) : Bool := [1, 2, 3, 8].contains (rowKind w) || (rowKind w == 5 && rowClass w == 5)

/-- Owner of an error of a row (R748). -/
def ownRowTag (r : TtRow) : Owner := (4, 0, rowTag r.w)

/-! ### Claims and overlap -/

/-- The resources that a row claims, as units of R632, from its words and its parameter block (R70, R71, R827). -/
def rowClaims (w par : List Nat) : List (Nat × Nat) :=
  match rowClass w with
  | 1 => [(2, rowIndex w)]
  | 2 => [(1, rowIndex w)]
  | 3 => [(3, rowIndex w)]
  | 4 => [(3, 8)]
  | 5 => if rowKind w = 7 then [(2, 17), (2, 34)] else (portsOf (nth par 1) (nth par 2)).map (fun p => (2, p))
  | _ => if rowKind w = 7 then [(2, 17), (2, 34)] else if rowKind w = 4 then [(1, rowIndex w)] else []

/-- An occurrence [s, s + l) meets some occurrence of the series t, t + p, ... of length k with c occurrences, 0 for unlimited. -/
def meetsSeries (s l t k p c : Nat) : Bool :=
  let j := if t + k > s ∨ p = 0 then 0 else (s - t - k) / p + 1
  (c == 0 || decide (j < c)) && decide (t + j * p < s + l) && decide (s < t + j * p + k)

/-- Two series of windows meet (in slot units): start, length, period (0 one-shot), count (0 unlimited). -/
def seriesMeet (a b : Nat × Nat × Nat × Nat) : Bool :=
  let (s, l, p, c) := a
  let (t, k, q, d) := b
  if p = 0 then meetsSeries s l t k q d
  else if q = 0 then meetsSeries t k s l p c
  else if c = 0 ∧ d = 0 then
    let g := Nat.gcd p q
    let x := (t % g + g - s % g) % g
    decide (x < l) || decide (g < x + k)
  else if c = 0 then (List.range d).any (fun j => meetsSeries (t + j * q) k s l p c)
  else (List.range c).any (fun i => meetsSeries (s + i * p) l t k q d)

/-- The series of a row's windows, in slot units. -/
def rowSeries (w : List Nat) : Nat × Nat × Nat × Nat := (rowStart w / 64, rowLen w, rowPeriod w, if rowPeriod w = 0 then 1 else rowCount w)

/-- Bytes that a port carries in one slot unit at the port's lanes in use and rate (R88, R483). -/
def unitBytes (m : Chip) (p : Nat) : Nat :=
  800 * 2 ^ fget m (LNKp_STAT_RATE p) * (match fget m (LNKp_STAT_WIDTH p) with
    | 0 => 0
    | 1 => 1
    | 2 => 2
    | _ => 4) / 4

/-- The most bytes that one port carries in a SLOT or EXCHANGE row (R88, R375, R408). -/
def rowPortBytes (w par : List Nat) : Nat :=
  if rowKind w = 3 then nth par 3
  else cdiv (nth par 3 / 128) (max 1 (portsOf (nth par 1) (nth par 2)).length) * 128

/-- A POSSESSION and a SLOT or EXCHANGE row may overlap (R88). -/
def mayShare (m : Chip) (w par w' par' : List Nat) : Bool :=
  let ok (s sp q : List Nat) := (rowClaims s sp).all (fun u => u.1 != 2 || decide (rowPortBytes s sp ≤ rowLen s * unitBytes m u.2 * rowRate q / 100))
  let slot (x : List Nat) := rowKind x == 1 || rowKind x == 3
  (rowKind w == 5 && slot w' && ok w' par' w) || (rowKind w' == 5 && slot w && ok w par w')

/-- Two rows conflict: they claim a resource in windows that meet, other than as R88 allows. -/
def rowsConflict (m : Chip) (w par w' par' : List Nat) : Bool :=
  unitsMeet (rowClaims w par) (rowClaims w' par') && !mayShare m w par w' par' && seriesMeet (rowSeries w) (rowSeries w')

/-- EXPECTED of a RECV row (R73). -/
def rowExpected (w par : List Nat) : Nat := if rowKind w = 2 then bitsN (nth par 1) 11 0 else 0

/-- The RECV rows' source entries exceed 512 at some instant (R544): at the start of some occurrence of some row the EXPECTED of the
windows open then add up to more. Occurrences are looked at up to a common period of the unlimited rows past every start. -/
def entriesExceed (rs : List (List Nat × List Nat)) : Bool :=
  let rv := rs.filter (fun r => rowKind r.1 == 2)
  if (rv.map (fun r => rowExpected r.1 r.2)).foldl (· + ·) 0 ≤ 512 then false
  else
    let hyper := (rv.map (fun r => max 1 (rowPeriod r.1))).foldl Nat.lcm 1
    let horizon := (rv.map (fun r => rowStart r.1 / 64 + rowPeriod r.1 * rowCount r.1)).foldl max 0 + hyper
    let openAt (t : Nat) (r : List Nat × List Nat) : Bool :=
      let (s, l, p, c) := rowSeries r.1
      meetsSeries t 1 s l p c
    rv.any (fun r =>
      let (s, _, p, c) := rowSeries r.1
      let n := if p = 0 then 1 else if c = 0 then (horizon - s) / p + 1 else c
      (List.range n).any (fun i => decide (512 < ((rv.filter (openAt (s + i * p))).map (fun q => rowExpected q.1 q.2)).foldl (· + ·) 0)))

/-- Bytes of a slot block (R396): its capacity and row bytes. -/
def slotBlock (cap rowBytes : Nat) : Nat := 128 * (1 + cdiv cap 8) + cap * rowBytes

/-- A list of words in groups of n, at most k of them. -/
def groupsOf (n : Nat) : Nat → List Nat → List (List Nat)
  | 0, _ => []
  | k + 1, ws => if ws = [] then [] else ws.take n :: groupsOf n k (ws.drop n)

/-- The send area of an EXCHANGE row: as far as its phase list reaches (R409). -/
def sendRange (m : Chip) (r : TtRow) : Nat × Nat :=
  let n := bitsN (nth r.par 2) 27 16
  let es := if r.list = [] then groupsOf 8 n (bytesWords (loadBytes m (nth r.par 6 + nth r.par 7 % 65536 * 2 ^ 32) (n * 32) true).1) else r.list
  let top := es.foldl (fun a e => max a (bitsN (nth e 0) 11 0 + bitsN (nth e 1) 12 0)) 0
  (nth r.par 4 + nth r.par 5 % 65536 * 2 ^ 32, top * slotBlock (nth r.par 11) (nth r.par 12))

/-- The ranges a row's parameter block names, with the block itself: source, destination, ready word, completion record, list (R301, R347). -/
def rowRanges (m : Chip) (r : TtRow) : List (Nat × Nat) :=
  let da (i : Nat) := nth r.par i + nth r.par (i + 1) % 65536 * 2 ^ 32
  let own := if hasParam r.w then [(rowParam r.w, 64)] else []
  own ++ (if r.par = [] then [] else match rowKind r.w with
    | 1 => [(da 4, nth r.par 3), (da 8, 4)]
    | 2 => [(da 2, nth r.par 4), (da 5, 32), (da 7, 4)]
    | 3 => [sendRange m r, (da 6, bitsN (nth r.par 2) 27 16 * 32), (da 8, 4)]
    | 8 => [(0xE00000000000 + 4 * bitsN (nth r.par 1) 30 0, 4)]
    | _ => [])

/-- Two byte ranges meet. -/
def rangesMeet (a n b k : Nat) : Bool := decide (a < b + k) && decide (b < a + n)

/-- A row that is not FREE names bytes of the range. -/
def rowTouches (m : Chip) (a n : Nat) : Bool := (rowsOf m).any (fun e => (rowRanges m e.2).any (fun q => rangesMeet a n q.1 q.2))

/-! ### The checks of a post (R87) -/

/-- The second check of R87: fields in range and suited to the KIND. -/
def rowSuits (m : Chip) (w : List Nat) : Bool :=
  let k := rowKind w
  let cls := rowClass w
  let soft := [1, 2, 3, 5, 8, 9].contains k
  let param := rowParam w
  !soft || (
    rowTag w != 0 && rowLen w != 0 && (rowPeriod w == 0 || decide (rowLen w ≤ rowPeriod w)) && (rowPeriod w != 0 || rowCount w == 1) &&
    (if k = 5 then decide (1 ≤ rowSub w) && decide (rowSub w ≤ 5) else rowSub w == 0) &&
    (if k = 5 then decide (25 ≤ rowRate w) && decide (rowRate w ≤ 100) else rowRate w == 0) &&
    ([1, 2, 3].contains k || (rowLate w == 0 && rowSpill w == 0)) && (k == 1 || !rowFeedHbm w) &&
    (if k = 1 ∨ k = 3 then cls == 1 || cls == 5 else if k = 5 then cls != 0 else cls == 0) &&
    (match cls with
      | 1 => decide (rowIndex w < 36)
      | 2 => decide (rowIndex w < 24)
      | 3 => decide (rowIndex w < 8)
      | _ => rowIndex w == 0) &&
    (if hasParam w then param % 64 == 0 && (scratch m param || (isHbm param && stackUp m (stackOf param))) else param == 0))

/-- The first row at which a check fails. -/
def firstBad (rs : List (List Nat × List Nat)) (p : Nat → List Nat × List Nat → Bool) : Option Nat :=
  (List.range rs.length).find? (fun i => p i (rs.getD i ([], [])))

/-- The checks of R87 from the second on, in order: status and row. Rows are words and parameter blocks. -/
def postChecks (m : Chip) (rs : List (List Nat × List Nat)) : Option (Nat × Nat) :=
  let old := (softRows m).map (fun e => (e.2.w, e.2.par))
  let tagOld (t : Nat) := old.any (fun r => rowTag r.1 == t)
  let chk (st : Nat) (p : Nat → List Nat × List Nat → Bool) : Option (Nat × Nat) := (firstBad rs p).map (fun i => (st, i))
  (chk 2 (fun _ r => !rowSuits m r.1)).or
  ((chk 0x0202 (fun _ r => [4, 6, 7].contains (rowKind r.1))).or
  ((chk 0x0203 (fun _ _ => !ltLocked m)).or
  ((chk 0x0204 (fun _ r => decide (rowStart r.1 < now m + 65536))).or
  ((chk 0x0205 (fun i r => tagOld (rowTag r.1) || (rs.take i).any (fun q => rowTag q.1 == rowTag r.1) ||
      (rowSpill r.1 != 0 && !tagOld (rowSpill r.1) && !rs.any (fun q => rowTag q.1 == rowSpill r.1)))).or
  ((chk 0x0201 (fun i _ => decide (3968 < old.length + i + 1))).or
  (chk 0x0206 (fun i r => (old ++ rs.take i).any (fun q => rowsConflict m r.1 r.2 q.1 q.2) ||
      (rowKind r.1 == 2 && entriesExceed (old ++ rs.take (i + 1))))))))))

/-- Put a new row at the lowest FREE index. -/
def addRow (m : Chip) (r : TtRow) : Chip :=
  match firstIdx 4096 (fun k => (rowAt m k).isNone) with
  | some k => setRow m k (some r)
  | none => m

/-- A new row from its words. -/
def newRow (w par : List Nat) (mioto : Bool) : TtRow := { w := w, par := par, mioto := mioto, start := rowStart w, base := rowStart w }

/-- The parameter block of a row as memory holds it. -/
def readParam (m : Chip) (w : List Nat) : List Nat × Option (Nat × Got) × Chip :=
  if hasParam w then
    let r := loadBytes m (rowParam w) 64 true
    (bytesWords r.1, r.2)
  else ([], none, m)

/-- Mioto's rows in the table. -/
def miotoRows (m : Chip) : Nat := ((rowsOf m).filter (·.2.mioto)).length

/-- Post one of Mioto's rows, in the 128 it holds (R67). -/
def postMioto (m : Chip) (w : List Nat) : Chip := if miotoRows m < 128 then addRow m (newRow w [] true) else m

/-- The words of one of Mioto's rows: kind, subkind, start (lt), length, period (units), count, rate, class, index. -/
def miotoWords (kind sub start len period count rate cls idx : Nat) : List Nat :=
  let u := start / 64
  [kind * 2 ^ 28 + sub * 2 ^ 24, u % 2 ^ 32, u / 2 ^ 32, len * 2 ^ 16, period, count * 2 ^ 16 + rate * 2 ^ 8, 0, cls * 2 ^ 24 + idx * 2 ^ 16]

/-! ### Occurrences -/

/-- The row has an occurrence after this one. -/
def rowMore (r : TtRow) : Bool :=
  rowPeriod r.w != 0 && !r.cancelled && (rowCount r.w == 0 || decide (r.run + r.skipped < rowCount r.w))

/-- The row retires: its record, when NOTIFY is 1, and FREE (R76, R656). -/
def retire (m : Chip) (k : Nat) (r : TtRow) : Chip :=
  let m1 := if rowNotify r.w then ttEvent m ([rowTag r.w, r.run, r.skipped] ++ lohi r.start) else m
  setRow m1 k none

/-- An occurrence ends, run or skipped: the row returns to PENDING with its next start, or retires (R76). -/
def endOccurrence (m : Chip) (k : Nat) (r : TtRow) (ran : Bool) : Chip :=
  let r1 := if ran then { r with run := r.run + 1 } else { r with skipped := r.skipped + 1 }
  if rowMore r1 then
    let t := r1.base + rowPeriod r.w * 64
    setRow m k (some { newRow r1.w r1.par r1.mioto with start := t, base := t, run := r1.run, skipped := r1.skipped, share := r1.share, own := r1.own })
  else retire m k r1

/-- An occurrence is skipped and counted (R78, R81). -/
def skipOccurrence (m : Chip) (k : Nat) (r : TtRow) : Chip := endOccurrence (bump m TT_SKIP_CTR 1) k r false

/-- Software's windows conflict with one of Mioto's windows at a start (R68, R88). -/
def miotoBlocked (m : Chip) (r : TtRow) (start : Nat) : Bool :=
  let w := setAt (setAt (setAt (setAt r.w 1 (start / 64 % 2 ^ 32)) 2 (start / 64 / 2 ^ 32)) 4 0) 5 (2 ^ 16 + rowRate r.w * 256)
  (softRows m).any (fun e => rowsConflict m w r.par e.2.w e.2.par)

/-- The first start from s on, in steps, at which one of Mioto's windows fits. -/
def fitStart : Nat → Chip → TtRow → Nat → Nat → Nat
  | 0, _, _, s, _ => s
  | n + 1, m, r, s, step => if miotoBlocked m r s then fitStart n m r (s + step) step else s

/-- The row's arm point has come. -/
def armDueAt (m : Chip) (r : TtRow) : Bool := r.st == .pending && decide (r.start ≤ now m + 4096)

/-- A line that failed in a parameter block or list: one contained record with the row as owner (R75). -/
def paramRecord (m : Chip) (r : TtRow) (bad : Option (Nat × Got)) : Chip :=
  match bad with
  | some (ln, g) => recFate m 5 (sideOf (ln * 128)) (ownRowTag r) 0 ln g
  | none => m

/-- Row event k happens when the row is in a state of a kind and its time has come. -/
def rowDue (m : Chip) (k : Nat) (kinds : List Nat) (st : RowSt) (at_ : TtRow → Nat) : Bool :=
  match rowAt m k with
  | some r => kinds.contains (rowKind r.w) && r.st == st && decide (at_ r ≤ now m)
  | none => false

/-- Open a window: a row that needs the fabric is skipped outside SYSTEM and HOLDOVER (R81); else it becomes ACTIVE and f acts. -/
def openRow (m : Chip) (k : Nat) (f : TtRow → Chip → Chip) : Chip :=
  match rowAt m k with
  | some r =>
    if [1, 2, 3, 7].contains (rowKind r.w) && !ltLocked m then skipOccurrence m k r
    else f { r with st := .active } (setRow m k (some { r with st := .active }))
  | none => m

/-- MARK_ROW_FIRE (R656): a time-mark record with the occurrence's number. -/
def doMarkRowFire (k : Nat) (m : Chip) : Chip :=
  openRow m k (fun r c => ttEvent c ([2 ^ 28 + rowTag r.w, r.run, 0] ++ lohi r.start))

/-- Meaning of MARK_ROW_FIRE. -/
def execMarkRowFire (row : Nat) (s : State) : Host.Outcome State Fault Refusal :=
  runIf s (fun m => rowDue m row [9] .armed (·.start)) (doMarkRowFire row)

/-! ### Commands -/

/-- TT.LOCK (R63, R64, R661): BUSY while ARM is 1; TT_LATE on the root; else the lock restarts under the root named. -/
def doTtLock (i : Nat) (p : List Nat) (m : Chip) : Chip :=
  let root := nth p 0
  let isRoot := moduleNum m == some root
  let epoch := nth p 1 + bitsN (nth p 2) 11 0 * 2 ^ 32
  if fon m TT_CTRL_ARM then fail m i 1
  else if isRoot && decide (epoch < now m / 2 ^ 20 + 64) then fail m i 0x0204
  else
    let m1 := fset m TT_CTRL_ROOT (b2n isRoot)
    let next := if !fon m1 TT_LT_STAT_LTREF_OK then 0 else if fon m1 TT_LT_STAT_LTEPOCH_OK then 2 else 1
    let m2 := if ltState m1 ≥ 2 then ltEnter m1 next else if ltState m1 = 0 ∧ fon m1 TT_LT_STAT_LTREF_OK then ltEnter m1 1 else m1
    cmdOn { m2 with twin := { m2.twin with lockWords := p.take 3 }, lt := { m2.lt with lock := some ⟨i, root, epoch, 64⟩, wanted := true, rootEpoch := epoch, parent := none, fresh := true, good := 0, bad := 0 } } i []

/-- Meaning of TT_LOCK. -/
def execTtLock (i : Nat) (s : State) : Host.Outcome State Fault Refusal := runCmd s i 0x0201 (doTtLock i)

/-- TT.NOW (R661). -/
def doTtNow (i : Nat) (_ : List Nat) (m : Chip) : Chip := respond m i 0 (lohi (now m) ++ [csr m TT_LT_STAT_STATE.off])

/-- Meaning of TT_NOW. -/
def execTtNow (i : Nat) (s : State) : Host.Outcome State Fault Refusal := runCmd s i 0x0202 (doTtNow i)

/-- Read the parameter blocks of a post. -/
def readParams (m : Chip) (ws : List (List Nat)) : List (List Nat × List Nat) × Chip :=
  ws.foldl (fun (p : List (List Nat × List Nat) × Chip) w =>
    let r := if hasParam w && rowSuits p.2 w then readParam p.2 w else ([], none, p.2)
    (p.1 ++ [(w, r.1)], r.2.2)) ([], m)

/-- TT.POST (R86, R87): all rows or none. -/
def doTtPost (i : Nat) (p : List Nat) (m : Chip) : Chip :=
  let r := readParams m (postRows p)
  match postChecks r.2 r.1 with
  | some e => respondD r.2 i e.1 e.2 []
  | none => respond (r.1.foldl (fun c q => addRow c (newRow q.1 q.2 false)) r.2) i 0 []

/-- Meaning of TT_POST. -/
def execTtPost (i : Nat) (s : State) : Host.Outcome State Fault Refusal := runCmd s i 0x0204 (doTtPost i)

/-- TT.CANCEL (R89). -/
def doTtCancel (i : Nat) (p : List Nat) (m : Chip) : Chip :=
  let tag := nth p 0
  match (softRows m).find? (fun e => rowTag e.2.w == tag) with
  | none => fail m i 0x0205
  | some (k, r) =>
    if (rowsOf m).any (fun e => rowSpill e.2.w == tag) then fail m i 0x0205
    else respond (if r.st == .active then setRow m k (some { r with cancelled := true }) else retire m k r) i 0 []

/-- Meaning of TT_CANCEL. -/
def execTtCancel (i : Nat) (s : State) : Host.Outcome State Fault Refusal := runCmd s i 0x0205 (doTtCancel i)

/-- The state code of a row (R661). -/
def rowStCode (r : TtRow) : Nat :=
  match r.st with
  | .pending => 1
  | .armed => 2
  | .active => 3

/-- TT.LIST (R661): up to 56 rows from FIRST, and the index after the last examined. -/
def doTtList (i : Nat) (p : List Nat) (m : Chip) : Chip :=
  let from_ := (rowsOf m).filter (fun e => decide (nth p 0 ≤ e.1))
  let rs := from_.take 56
  let next := if from_.length ≤ 56 then 4096 else ((rs.getLast?).map (fun e => e.1 + 1)).getD 4096
  respond m i 0 ((rs.length * 2 ^ 16 + next) :: rs.flatMap (fun e => (rowStCode e.2 * 2 ^ 28 + e.1) :: e.2.w))

/-- Meaning of TT_LIST. -/
def execTtList (i : Nat) (s : State) : Host.Outcome State Fault Refusal := runCmd s i 0x0206 (doTtList i)

/-- TT.ARM (R79, R80). -/
def doTtArm (i : Nat) (p : List Nat) (m : Chip) : Chip :=
  let arm := nth p 0
  let tw := fget m TWIN_STAT_STATE
  if arm = 1 ∧ ¬ ltLocked m then fail m i 0x0203
  else if arm = 1 ∧ (tw = 6 ∨ tw = 7) then fail m i 1
  else respond (fset { m with lt := { m.lt with armDue := false } } TT_CTRL_ARM arm) i 0 [fget m TT_CTRL_ARM]

/-- Meaning of TT_ARM. -/
def execTtArm (i : Nat) (s : State) : Host.Outcome State Fault Refusal := runCmd s i 0x0207 (doTtArm i)

end Sys2Proof.Machine
end

