-- ==== Sys2Proof/Machine/Serve.lean ====
section
/-! DEFINITION. Serving memory requests: the order of R278 and R431, what each kind of request does at its home, and where its answer goes. -/

namespace Sys2Proof.Machine

/-- An atomic's new value (R225): operation 0 ADD, 1 FADD, 2 SMIN, 3 SMAX, 4 UMIN, 5 UMAX, 6 AND, 7 OR, 8 XOR, 9 EXCH, 10 CAS; n bytes. -/
def atomOp (op n old b c : Nat) : Nat :=
  let w := 8 * n
  (match op with
    | 0 => old + b
    | 1 => fp32.round 0 ((fp32.decode old).add 0 (fp32.decode b))
    | 2 => if sgn w b < sgn w old then b else old
    | 3 => if sgn w old < sgn w b then b else old
    | 4 => min old b
    | 5 => max old b
    | 6 => old &&& b
    | 7 => old ||| b
    | 8 => old ^^^ b
    | 9 => b
    | _ => if old = c then b else old) % 2 ^ w

/-- An atomic at a Collect unit: a locked read-modify-write (R308, R312, R319). -/
def atomicAt (m : Chip) (ln op n o b c : Nat) : Fate × Nat × Chip :=
  if badAddress m (ln * 128) false then (.address, 0, m)
  else
    let r := readLine m ln false
    let sf := storedFate r.1
    let old := leNat ((r.1.ln.data.drop o).take n)
    let data := spliceBytes r.1.ln.data o n (atomOp op n old b c)
    let m1 := bump (noteWb r.2 ln sf) BUF_ATOM_CTR 1
    if sf = .good then (.good, old, putLine m1 ln (goodLine data)) else (sf, old, putLine m1 ln (poisonLine data))

/-- A reduction at a Collect unit (R310 to R313, R319): a failing operand line leaves the line unchanged. -/
def reduceAt (m : Chip) (ln op t : Nat) (l : Line) : Fate × Chip :=
  if badAddress m (ln * 128) false then (.address, m)
  else if !wbOk l then (.waybill, m)
  else
    let r := readLine m ln false
    let sf := storedFate r.1
    let data := reduceBytes op t r.1.ln.data l.data
    let m1 := noteWb r.2 ln sf
    if sf = .good then (.good, putLine m1 ln (goodLine data)) else (sf, putLine m1 ln (poisonLine data))

/-- Reason code of an error response for a fate (R518). -/
def respReason (f : Fate) : Nat := if f = .address then 0 else 1

/-- A RECV window's source had a line that failed: one record for the source, for the first such line (R313, R546, R756). -/
def windowBad (m : Chip) (row src ln : Nat) (l : Line) (source unit kind : Nat) : Chip :=
  match rowAt m row with
  | none => m
  | some r =>
    match r.srcs.find? (fun s => s.module == src) with
    | none => m
    | some s =>
      if s.recorded then m
      else recErr (setRow m row (some { r with srcs := r.srcs.map (fun x => if x.module = src then { x with recorded := true, bad := true } else x) }))
        1 source kind unit (ownRowTag r) (gaOf m (ln * 128)) 1 (if source = 7 then src else 0) l.wb (crc32c l.data)

/-- Change the consist of base die d. -/
def modCon (m : Chip) (d : Nat) (f : ConDie → ConDie) : Chip := { m with con := modAt m.con d f }

/-- Change a wagon. -/
def modWagon (m : Chip) (d id : Nat) (f : Wagon → Wagon) : Chip :=
  modCon m d (fun c => { c with wagons := c.wagons.map (fun w => if w.id = id then f w else w) })

/-- An active descriptor. -/
def desc (m : Chip) (d id : Nat) : Option Desc := tget none id (conDie m d).descs

/-- Owner of a descriptor's errors (R748). -/
def ownDesc (x : Desc) : Owner := (2, x.ring.getD 0, bitsN (nth x.w 1) 31 16)

/-- The slice whose tablet a write of Stage takes (R378); none for a line that no slice serves. -/
def stageSlice (m : Chip) (ln : Nat) : Option Nat :=
  if isBuf (ln * 128) then some (gSlice (halfOf (ln * 128)) (ln * 128)) else (backing m (ln * 128)).map (fun k => gSlice (k / 4) (ln * 128))

/-- A slice returns a Stage tablet. -/
def sliceBack (m : Chip) (d ln : Nat) : Chip :=
  match stageSlice m ln with
  | some g => modCon m d (fun c => { c with sliceOut := tmod 0 g (· - 1) c.sliceOut })
  | none => m

/-- A write of a wagon is acknowledged: its tablet returns, and an error is noted with one record for the wagon (R372, R756). -/
def stageAck (m : Chip) (d id ln : Nat) (f : Fate) (l : Line) : Chip :=
  let m1 := sliceBack m d ln
  match (conDie m d).wagons.find? (fun w => w.id == id) with
  | none => m1
  | some w =>
    let m2 := modWagon m1 d id (fun w => { w with acks := w.acks - 1, failed := w.failed || f != .good })
    if f = .good ∨ w.failed then m2
    else match desc m d w.desc with
      | some x => recFate m2 5 d (ownDesc x) w.idx ln { ln := l, fate := f }
      | none => m2

/-- The keeper answers JACK (SUB 3) once it has every line of the occurrence and each is acknowledged at its home (R712, R718). -/
def keeperAck (m : Chip) : Chip :=
  match m.twin.rxEnd with
  | some (p, pages, start) =>
    if m.twin.rxLines = 32 * pages && !m.reqs.any (fun r => r.who == .journal 17 || r.who == .journal 34) then
      sendCtl { m with twin := { m.twin with rxEnd := none } } p 9 ([3, 0] ++ lohi start)
    else m
  | none => m

/-- Send the answer of a request to whoever made it: a peer gets its response flit; a window keeps only errors; others take it from the queue. -/
def answer (m : Chip) (r : Req) (f : Fate) (l : Line) (val : Nat) : Chip :=
  match r.who with
  | .fix => m
  | .journal p => keeperAck (if f = .good then m else recFate m 9 p (6, 0, 0) m.twin.twin r.line { ln := l, fate := f })
  | .peer p vc tag src =>
    let fl := if f ≠ .good ∧ r.kind ≠ .atomic then mkFlit m 3 0 3 (respReason f) src r.line tag []
      else match r.kind with
        | .read => mkFlit m 3 1 0 0 src r.line tag (l.data ++ leBytes 4 l.wb)
        | .atomic => mkFlit m 3 0 2 0 src r.line tag (wordBytes ([b2n (f != .good), 0] ++ lohi val))
        | _ => mkFlit m 3 0 1 0 src r.line tag []
    sendVc m p vc fl
  | .window row src => if f = .good then m else windowBad m row src r.line l (if r.kind = .reduce then 3 else 2) (gSlice (halfOf (r.line * 128)) (r.line * 128)) (kindOf f)
  | .stage d w => stageAck m d w r.line f l
  | .coreStore c b slot t a => storeAck m c b slot r.line (t, a) f l
  | .coreAtom c b slot t rd low a => atomAck m c b slot t rd r.line (low, a) f l val
  | .coreFill c i => if (core m c).fills.any (fun x => x.id == i) then linkMove { m with resps := m.resps ++ [⟨r.id, r.who, r.line, l, f⟩] } (returnKeys r.who r.line) (· + 1) else m
  | _ => { m with resps := m.resps ++ [⟨r.id, r.who, r.line, l, f⟩] }

/-- Take a request off the queue. -/
def dropReq (m : Chip) (id : Nat) : Chip := dropReqs m (fun r => r.id == id)

/-- Change a waiting request. -/
def modReq (m : Chip) (id : Nat) (f : Req → Req) : Chip := { m with reqs := m.reqs.map (fun r => if r.id = id then f r else r) }

/-- Perform a request at its home and answer it. A correction write-back merges no bytes and leaves a poisoned line poisoned (R315, R319, R320). -/
def perform (m : Chip) (r : Req) : Chip :=
  let m := dropReq m r.id
  match r.kind with
  | .read =>
    let g := readLine m r.line false
    answer g.2 r g.1.fate g.1.ln 0
  | .write =>
    let w := writeLine m r.line r.ln false
    answer w.2 r w.1 r.ln 0
  | .partialWrite =>
    let w := if r.who = .fix then
        (let g := peekLine m r.line
         let f := storedFate g
         let c := noteWb (noteRmw m r.line) r.line f
         if badAddress m (r.line * 128) true then (Fate.address, m)
         else (f, putLine c r.line (if f = .good then goodLine g.ln.data else if f = .poisoned then { g.ln with errs := [], poison := true } else poisonLine g.ln.data)))
      else partialWrite m r.line r.ln.data r.mask (r.ln.wb == crc32c r.ln.data) false
    answer w.2 r w.1 (failLine m r.line r.ln w.1) 0
  | .atomic =>
    let w := atomicAt m r.line r.op r.size r.at_ r.a r.b
    answer w.2.2 r w.1 (failLine m r.line r.ln w.1) w.2.1
  | .reduce =>
    let w := reduceAt m r.line r.op r.size r.ln
    answer w.2 r w.1 (if wbOk r.ln then failLine m r.line r.ln w.1 else r.ln) 0

/-- An older request of the same ingress to the same line waits (R280, R284). -/
def behind (m : Chip) (r : Req) : Bool := m.reqs.any (fun q => q.line == r.line && q.ing == r.ing && decide (q.id < r.id))

/-- a comes before b in the order of R278 and R431: class, then age, then ingress. -/
def reqBefore (a b : Req) : Bool :=
  decide (a.cls < b.cls) || (a.cls == b.cls && (decide (a.since < b.since) || (a.since == b.since && (decide (a.ing < b.ing) || (a.ing == b.ing && decide (a.id < b.id))))))

/-- The request that is served next among those chosen. -/
def pickReq (m : Chip) (p : Req → Bool) : Option Req :=
  (m.reqs.filter (fun r => p r && !behind m r)).foldl (fun b r => match b with
    | none => some r
    | some q => if reqBefore r q then some r else some q) none

/-- The next request of a kind at slice g. -/
def sliceNext (m : Chip) (g : Nat) (ks : List ReqKind) : Option Req :=
  pickReq m (fun r => r.st == 0 && ks.contains r.kind && servingSlice m r.line == some g)

/-- The next request of a kind at stack s: lines of no cache region. -/
def stackNext (m : Chip) (s : Nat) (ks : List ReqKind) : Option Req :=
  pickReq m (fun r => r.st == 0 && ks.contains r.kind && isHbm (r.line * 128) && stackOf (r.line * 128) == s && (backing m (r.line * 128)).isNone)

/-- A write of the line would have to park in a full siding (R306). -/
def sidingFull (m : Chip) (ln : Nat) : Bool :=
  fon m BUF_CTRL_SIDING_EN && pathShut m (pathOf (ln * 128)) && decide (32768 ≤ (sidingOf m (sidingHalf (ln * 128))).length)

/-- Serve a request at its slice: a line in the eviction buffer waits (R296), a miss waits for its fill (R293, R295), a write with no room in the
siding waits (R306). -/
def serve (m : Chip) (r : Req) : Chip :=
  match backing m (r.line * 128) with
  | some k =>
    if (cacheGet m k r.line).isSome then perform m r
    else if (evOf m (k / 4)).any (fun p => p.line == r.line) then m
    else if r.kind = .write then (if (cacheRoom m k r.line).isSome then perform m r else modReq m r.id (fun q => { q with st := 2 }))
    else modReq (bump m BUF_MISS_CTR 1) r.id (fun q => { q with st := 1 })
  | none => if r.kind ≠ .read ∧ sidingFull m r.line then modReq m r.id (fun q => { q with st := 3 }) else perform m r

/-- The fill of a waiting request returns (R293 to R297): an error is answered and nothing allocated; without room the fill waits. -/
def fillReturn (m : Chip) (r : Req) : Chip :=
  match backing m (r.line * 128) with
  | none => modReq m r.id (fun q => { q with st := 0 })
  | some k =>
    if (cacheGet m k r.line).isSome then perform m r
    else if r.kind = .write then (if (cacheRoom m k r.line).isSome then perform m r else m)
    else
      let g := readHbmLine m r.line
      let f := if g.1.fate = .good ∧ ¬ wbOk g.1.ln then .waybill else g.1.fate
      if f = .uncorrectable ∨ f = .waybill then answer (dropReq (noteWb g.2 r.line f) r.id) r f g.1.ln 0
      else match cacheRoom g.2 k r.line with
        | some w => perform (cachePut w.2 k r.line { way := w.1, dirty := false, ln := g.1.ln }) r
        | none => modReq m r.id (fun q => { q with st := 2 })

end Sys2Proof.Machine
end

