-- ==== Sys2Proof/Machine/Consist.lean ====
section
/-! DEFINITION. The consist's descriptors, wagons and tablets: shapes, checks, completion, failure, Fetch, the hand-offs and Stage's writes (R327 to
R352, R366 to R373, R378 to R382). -/

namespace Sys2Proof.Machine

/-! ### The shape of a descriptor (R334, R335) -/

/-- OP: 1 EXPAND, 2 COPY, 3 ACTIVATE, 4 REDUCE. -/
def dOp (w : List Nat) : Nat := bitsN (nth w 0) 31 28
/-- MASK_ONLY of an ACTIVATE. -/
def dMaskOnly (w : List Nat) : Bool := dOp w == 3 && tb (nth w 0) 11
/-- SRC_DA. -/
def dSrc (w : List Nat) : Nat := nth w 2 + nth w 3 % 65536 * 2 ^ 32
/-- DST_DA. -/
def dDst (w : List Nat) : Nat := nth w 4 + nth w 5 % 65536 * 2 ^ 32
/-- AUX_DA. -/
def dAux (w : List Nat) : Nat := nth w 6 + nth w 7 % 65536 * 2 ^ 32
/-- COUNT. -/
def dCount (w : List Nat) : Nat := nth w 8
/-- PARAM. -/
def dParam (w : List Nat) : Nat := nth w 9
/-- SPARSE of an EXPAND. -/
def dSparse (w : List Nat) : Nat := bitsN (nth w 0) 7 6
/-- FMT_A of an EXPAND, FMT of an ACTIVATE, ROP of a REDUCE. -/
def dFmt (w : List Nat) : Nat := bitsN (nth w 0) 15 12
/-- FMT_B of an EXPAND, DTYPE of a REDUCE. -/
def dFmtB (w : List Nat) : Nat := bitsN (nth w 0) 11 8
/-- The wait word's address, with WAIT_EN. -/
def dWait (w : List Nat) : Option Nat := if tb (nth w 10) 31 then some (0xE00000000000 + 4 * bitsN (nth w 10) 30 0) else none
/-- The done word's address, with DONE_EN. -/
def dDone (w : List Nat) : Option Nat := if tb (nth w 12) 31 then some (0xE00000000000 + 4 * bitsN (nth w 12) 30 0) else none
/-- The class of an EXPAND's formats. -/
def dClass (w : List Nat) : MmaClass := (mmaClass (dFmt w) (dFmtB w)).getD ⟨32, 16, 16, false, false⟩
/-- Bits of an element in memory, for a format of R230: FP6 elements take a byte (R246). -/
def fmtBits (f : Nat) : Nat := if f ≤ 1 then 16 else if f = 9 ∨ f = 10 ∨ f = 11 then 4 else 8
/-- Bytes of the A operand of a fragment (R246, R248). -/
def aBytes (c : MmaClass) : Nat := 32 * c.kd * c.abits / 8
/-- Fragments of a wagon: F_w. -/
def fragsPer (c : MmaClass) : Nat := if aBytes c = 2048 then 2 else 4
/-- IMAGE, the bytes of a fragment image (R362). -/
def imageBytes (c : MmaClass) (sp : Nat) : Nat :=
  aBytes c + (if sp = 0 then 0 else 8 * c.kd) + (if c.mx then cdiv (mmaKl c sp) 128 * 128 else 0)
/-- Source lines of a descriptor. -/
def dLines (w : List Nat) : Nat :=
  match dOp w with
  | 1 => dParam w
  | 3 => dCount w * dParam w * fmtBits (dFmt w) / 8 / 128
  | _ => dCount w
/-- Wagons of a descriptor (R335). -/
def dWagons (w : List Nat) : Nat := if dOp w = 1 then dCount w else cdiv (dLines w) 32
/-- Bytes written at DST_DA. -/
def dDstBytes (w : List Nat) : Nat :=
  if dMaskOnly w then 0
  else if dOp w = 1 then dCount w * fragsPer (dClass w) * imageBytes (dClass w) (dSparse w) else dLines w * 128
/-- Lines of the bitmap at AUX_DA (R365, R369). -/
def dAuxLines (w : List Nat) : Nat :=
  match dOp w with
  | 1 => cdiv (dCount w * fragsPer (dClass w)) 1024
  | 3 => cdiv (dCount w * dParam w / 256) 1024
  | _ => 0
/-- The byte ranges that a descriptor reads and writes: source, destination, bitmap. -/
def dRanges (w : List Nat) : List (Nat × Nat) :=
  ((dSrc w, dLines w * 128) :: (if dDstBytes w = 0 then [] else [(dDst w, dDstBytes w)])) ++ (if dAuxLines w = 0 then [] else [(dAux w, dAuxLines w * 128)])

/-- The base die on which Mioto submits a CON.RUN. -/
def dDie (w : List Nat) : Nat := sideOf (if dMaskOnly w then dAux w else dDst w)

/-- A byte that a descriptor may name: HBM, or the buffer outside its reserved range. -/
def dMapped (da : Nat) : Bool := isHbm da || (isBuf da && !reservedBuf da)

/-- The shape check of R336. -/
def dShapeBad (w : List Nat) : Bool :=
  (dOp w == 1 && (mmaClass (dFmt w) (dFmtB w)).isNone) || dSrc w % 128 != 0 || dDst w % 128 != 0 || dAux w % 128 != 0 || dCount w == 0 ||
  (dOp w == 3 && (dCount w % 8 != 0 || dParam w % 32 != 0 || dParam w == 0)) ||
  (!dMaskOnly w && (dRanges w).tail.any (fun r => rangesMeet (dSrc w) (dLines w * 128) r.1 r.2))

/-- The address check of R336. -/
def dAddrBad (m : Chip) (w : List Nat) : Bool :=
  (dRanges w).any (fun r => r.2 != 0 && !rangeAll dMapped r.1 r.2) ||
  (dAuxLines w != 0 && !scratchRange m (dAux w) (dAuxLines w * 128)) || (dOp w == 4 && !scratchRange m (dDst w) (dDstBytes w)) ||
  (dWait w).any (fun a => !scratch m a) || (dDone w).any (fun a => !scratch m a)

/-- A range of the descriptor touches a stack out of service. -/
def dStackBad (m : Chip) (w : List Nat) : Bool :=
  (dRanges w).any (fun r => r.2 != 0 && !rangeAll (fun a => !isHbm a || stackUp m (stackOf a)) r.1 r.2)

/-- The STATUS of the first failing check of R336. -/
def dChecks (m : Chip) (w : List Nat) : Option Nat :=
  if !descFieldsOk w then some 1
  else if dShapeBad w then some 2
  else if dAddrBad m w then some 6
  else if dStackBad m w then some 7
  else none

/-! ### Descriptors -/

/-- Change a descriptor. -/
def modDesc (m : Chip) (d id : Nat) (f : Desc → Desc) : Chip := modCon m d (fun c => { c with descs := tmod none id (·.map f) c.descs })

/-- The active descriptors of a die, in order of acceptance. -/
def descsOf (m : Chip) (d : Nat) : List (Nat × Desc) := (conDie m d).descs.filterMap (fun e => e.2.map (fun x => (e.1, x)))

/-- Bring CON_STAT up to date. -/
def conNote (m : Chip) : Chip :=
  let m1 := fset (fset m CON_STAT_ACTIVE_N (descsOf m 0).length) CON_STAT_ACTIVE_S (descsOf m 1).length
  fset m1 CON_STAT_RECLAIM_BUSY (b2n (!(conDie m 0).reclaim.isEmpty || !(conDie m 1).reclaim.isEmpty))

/-- Give back n tablets of hand-off h, or take them with n negative counted in back. -/
def tabBack (m : Chip) (d h n : Nat) : Chip := modCon m d (fun c => { c with avail := modAt c.avail h (· + n) })

/-- Take n tablets of hand-off h. -/
def tabTake (m : Chip) (d h n : Nat) : Chip := modCon m d (fun c => { c with avail := modAt c.avail h (· - n) })

/-- Tablets of hand-off h available (0 Ring to Fetch, 1 Fetch to Expand, 2 Expand to Stage). -/
def tabOf (m : Chip) (d h : Nat) : Nat := nth (conDie m d).avail h

/-- Hand-off h is being reclaimed: its sender issues nothing (R382). -/
def reclaiming (m : Chip) (d h : Nat) : Bool := (conDie m d).reclaim.contains h

/-- A request made for a wagon. -/
def ofWagon (d id : Nat) : Who → Bool
  | .fetch e w _ => e == d && w == id
  | .stage e w => e == d && w == id
  | _ => false

/-- Abandon a wagon: its requests are dropped, its tablets return, and what it has written or issued is kept or lost (R332, R342). -/
def dropWagon (d : Nat) (m : Chip) (w : Wagon) : Chip :=
  let mine := m.reqs.filter (fun r => ofWagon d w.id r.who)
  let m1 := dropReqs { m with resps := m.resps.filter (fun r => !ofWagon d w.id r.who) } (fun r => ofWagon d w.id r.who)
  let m2 := mine.foldl (fun c r => if r.kind = .read then c else sliceBack c d r.line) m1
  let m3 := w.issued.foldl (fun c o => loosen c o.line (if o.kind = 2 then leNat o.ln.data else 2 ^ 1024 - 1) (o.kind == 0)) m2
  let m4 := if w.st = 3 then tabBack m3 d 2 1 else tabBack m3 d 1 w.asked
  modCon (bump m4 CON_ABANDON_CTR 1) d (fun c => { c with wagons := c.wagons.filter (fun x => x.id != w.id), abandoned := c.abandoned + 1 })

/-- A descriptor completes with a STATUS and the index of its failing wagon (R341 to R344). -/
def conEnd (m : Chip) (d id st bad : Nat) : Chip :=
  match desc m d id with
  | none => m
  | some x =>
    let m1 := ((conDie m d).wagons.filter (fun w => w.desc == id)).foldl (dropWagon d) m
    let m2 := if st = 0 then (match dDone x.w with
      | some a => incWord m1 (ownDesc x) a
      | none => m1) else m1
    let rec_ := [st * 65536 + bitsN (nth x.w 1) 31 16, x.retired, bad, elapsed m x.t0]
    let m3 := tabBack (modCon m2 d (fun c => { c with descs := tput none id none c.descs })) d 0 1
    let m4 := match x.ring with
      | some n => ringDone (if st ≠ 0 ∨ tb (nth x.w 0) 27 then putCompletion m3 n x.seq rec_ else m3) n
      | none => respond m3 x.seq 0 rec_
    conNote m4

/-- No failing wagon (R343). -/
def noBad : Nat := 0xFFFFFFFF

/-- A descriptor with a range on a stack that goes out of service fails with CON_OOS (R351, R463). -/
def conStackGone (m : Chip) (s : Nat) : Chip :=
  [0, 1].foldl (fun c d => (descsOf c d).foldl (fun c e =>
    if (dRanges e.2.w).any (fun r => rangesMeet r.1 r.2 (s * 2 ^ 36) (2 ^ 36))
    then conEnd c d e.1 7 ((((conDie c d).wagons.filter (fun w => w.desc == e.1)).map (·.idx)).foldl min noBad) else c) c) m

/-- The descriptor starts: Stage writes zero to every line of its bitmap (R368). -/
def conStart (m : Chip) (d id : Nat) : Chip :=
  match desc m d id with
  | none => m
  | some x =>
    let m1 := (List.range (dAuxLines x.w)).foldl (fun c i => (writeLine c (dAux x.w / 128 + i) zeroLine false).2) m
    modDesc m1 d id (fun x => { x with run := true })

/-- A CON.RESET of the die is under way: it accepts nothing. -/
def conHeld (m : Chip) (d : Nat) : Bool := (List.range 4).any (fun i => cmdGoing m i 0x0403 && nth (cmdAux m i) 0 == d)

/-- The die accepts a descriptor now (R333, R389). -/
def conOpen (m : Chip) (d : Nat) : Bool :=
  fon m (if d = 0 then CON_CTRL_ACCEPT_N else CON_CTRL_ACCEPT_S) && !conHeld m d && decide ((descsOf m d).length < 64) &&
  decide (0 < tabOf m d 0) && !reclaiming m d 0

/-- Accept a descriptor: its checks, its wait, or its start (R336 to R338, R352). -/
def conAccept (m : Chip) (d : Nat) (ring : Option Nat) (seq : Nat) (w : List Nat) : Chip :=
  let id := (conDie m d).nextDesc
  let x : Desc := { ring := ring, seq := seq, w := w, t0 := m.ns }
  let m1 := conNote (tabTake (modCon m d (fun c => { c with descs := tput none id (some x) c.descs, nextDesc := id + 1 })) d 0 1)
  match dChecks m w with
  | some st => conEnd m1 d id st noBad
  | none => if (dWait w).isSome then m1 else conStart m1 d id

/-! ### Fetch -/

/-- Ingress of a request of die d's consist (R277, R430). -/
def conIng (d ln : Nat) : Nat := if sideOf (ln * 128) = d then 5 else 4

/-- Request one more line of a wagon. -/
def fetchOne (d : Nat) (m : Chip) (w : Wagon) (pos : Nat) : Chip :=
  pushReq m { id := 0, kind := .read, line := w.src + pos, ing := conIng d (w.src + pos), who := .fetch d w.id pos }

/-- Request the lines that a wagon still wants, as far as tablets go (R349). -/
def fetchWagon (d : Nat) (m : Chip) (w : Wagon) : Chip :=
  let n := if w.st = 0 ∧ ¬ reclaiming m d 1 then min (w.want - w.asked) (tabOf m d 1) else 0
  let m1 := (List.range n).foldl (fun c i => fetchOne d c w (w.asked + i)) m
  modWagon (tabTake m1 d 1 n) d w.id (fun w => { w with asked := w.asked + n })

/-- Request the lines still wanted, oldest wagon first. -/
def fetchIssue (m : Chip) (d : Nat) : Chip := (conDie m d).wagons.foldl (fetchWagon d) m

/-- The descriptor that gets the next wagon: round-robin in order of acceptance (R348). -/
def nextFetch (m : Chip) (d : Nat) : Option (Nat × Desc) :=
  let c := (descsOf m d).filter (fun e => e.2.run && e.2.known && decide (e.2.next < dWagons e.2.w))
  (c.find? (fun e => decide ((conDie m d).last < e.1))).or c.head?

/-- Fetch may create a wagon: a descriptor has one to create, and a tablet is available. -/
def fetchReady (m : Chip) (d : Nat) : Bool :=
  (nextFetch m d).isSome && decide (0 < tabOf m d 1) && !reclaiming m d 0 && !reclaiming m d 1

/-- The wagon that a descriptor gets next. An EXPAND asks first for the line that holds the record's header. -/
def newWagon (id did : Nat) (x : Desc) : Wagon :=
  if dOp x.w = 1 then
    { id := id, desc := did, idx := x.next, src := dSrc x.w / 128 + x.pos / 128, off := x.pos % 128, want := if x.pos / 128 < dParam x.w then 1 else 0,
      st := if x.pos / 128 < dParam x.w then 0 else 1 }
  else { id := id, desc := did, idx := x.next, src := dSrc x.w / 128 + 32 * x.next, want := min 32 (dLines x.w - 32 * x.next) }

/-- FETCH_WAGON_START (R330, R339, R348, R349). -/
def doFetchWagonStart (d : Nat) (m : Chip) : Chip :=
  match nextFetch m d with
  | none => m
  | some (did, x) =>
    let id := (conDie m d).nextWagon
    let m1 := modCon m d (fun c => { c with wagons := c.wagons ++ [newWagon id did x], nextWagon := id + 1, last := did, created := c.created + 1 })
    fetchIssue (modDesc m1 d did (fun x => { x with next := x.next + 1, known := dOp x.w != 1 })) d

/-- Meaning of FETCH_WAGON_START. -/
def execFetchWagonStart (die : Nat) (s : State) : Host.Outcome State Fault Refusal := runIf s (fun m => fetchReady m die) (doFetchWagonStart die)

/-! ### What Stage writes -/

/-- A line of a wagon as Fetch checked it. -/
def gotLine (w : Wagon) (i : Nat) : Line :=
  match w.got.find? (fun g => g.1 == i) with
  | some g => ⟨g.2.1, g.2.2, false, []⟩
  | none => zeroLine

/-- A 128-byte line whose bits in a list are 1. -/
def bitLine (bs : List Nat) : Line := goodLine (leBytes 128 (bs.eraseDups.foldl (fun a b => a + 2 ^ b) 0))

/-- OR operations that set the given bits of a bitmap at a line, one a line (R365, R369). -/
def mapOps (base : Nat) (bits : List Nat) : List StageOp :=
  ((bits.map (· / 1024)).eraseDups).map (fun q => ⟨base + q, 2, bitLine ((bits.filter (fun b => b / 1024 == q)).map (· % 1024))⟩)

/-- The elements of a chunk of bytes are not all zero in a format (R262, R370). -/
def chunkLive (f : Nat) (bs : List Byte) : Bool :=
  let n := fmtBits f
  (List.range 32).any (fun k =>
    let e := if n = 16 then leNat ((bs.drop (2 * k)).take 2) else if n = 8 then leNat ((bs.drop k).take 1) else leNat ((bs.drop (k / 2)).take 1) / (if k % 2 = 0 then 1 else 16) % 16
    let z := match f with
      | 0 => e % 32768 == 0
      | 1 => e % 32768 == 0
      | 6 => e % 32 == 0
      | 7 => e % 32 == 0
      | 8 => e == 0
      | 9 => e % 8 == 0
      | 10 => e % 8 == 0
      | 11 => e == 0
      | _ => e % 128 == 0
    !z)

/-- The mask bits of a wagon of an ACTIVATE: a chunk of 32 elements lies in one row and one block column (R369, R370). -/
def activeBlocks (w : List Nat) (g : Wagon) : List Nat :=
  let f := dFmt w
  let cb := 4 * fmtBits f
  let cols := dParam w / 32
  (List.range g.want).flatMap (fun i =>
    (List.range (128 / cb)).filterMap (fun c =>
      let q := ((32 * g.idx + i) * 128) / cb + c
      if chunkLive f (((gotLine g i).data.drop (c * cb)).take cb) then some (q / cols / 8 * cols + q % cols) else none))

/-- The writes of a COPY, ACTIVATE or REDUCE wagon, in ascending address order (R367 to R373). -/
def bypassOps (w : List Nat) (g : Wagon) : List StageOp :=
  let lines := (List.range g.want).map (fun i => (⟨dDst w / 128 + 32 * g.idx + i, if dOp w = 4 then 1 else 0, gotLine g i⟩ : StageOp))
  (if dMaskOnly w then [] else lines) ++ (if dOp w = 3 then mapOps (dAux w / 128) (activeBlocks w g) else [])

/-- A wagon goes to Stage: it takes an Expand-to-Stage tablet and returns its Fetch-to-Expand tablets (R366). -/
def handWagon (m : Chip) (d : Nat) (w : Wagon) (ops : List StageOp) : Chip :=
  modWagon (tabBack (tabTake m d 2 1) d 1 w.asked) d w.id (fun w => { w with st := 3, todo := ops })

/-- Whole wagons on the bypass path go to Stage while tablets last. -/
def bypassOne (d : Nat) (m : Chip) (w : Wagon) : Chip :=
  match desc m d w.desc with
  | some x => if w.st = 1 ∧ dOp x.w ≠ 1 ∧ 0 < tabOf m d 2 ∧ ¬ reclaiming m d 2 then handWagon m d w (bypassOps x.w w) else m
  | none => m

/-- Move the bypass path on, then Fetch. -/
def conMove (m : Chip) (d : Nat) : Chip := fetchIssue ((conDie m d).wagons.foldl (bypassOne d) m) d

/-! ### Source lines -/

/-- A line of an EXPAND's first comes: the header tells how many lines the record takes and where the next one starts (R354). -/
def recordKnown (m : Chip) (d : Nat) (w : Wagon) (data : List Byte) : Chip :=
  match desc m d w.desc with
  | none => m
  | some x =>
    if dOp x.w ≠ 1 ∨ x.known ∨ x.next ≠ w.idx + 1 then m
    else
      let len := 16 * max 1 (bitsN (leNat ((data.drop w.off).take 4)) 31 20)
      let left := dParam x.w - (w.src - dSrc x.w / 128)
      modDesc (modWagon m d w.id (fun w => { w with want := min (cdiv (w.off + len) 128) left })) d w.desc (fun x => { x with known := true, pos := x.pos + len })

/-- A good line joins its wagon; with the last one the wagon is whole. -/
def lineIn (m : Chip) (d : Nat) (w : Wagon) (pos : Nat) (l : Line) : Chip :=
  let m1 := if pos = 0 then recordKnown m d w l.data else m
  conMove (modWagon m1 d w.id (fun w =>
    let g := w.got ++ [(pos, l.data, l.wb)]
    { w with got := g, st := if g.length = w.want then 1 else 0 })) d

/-- The response of a source line, by its request. -/
def fetchResp (m : Chip) (d id : Nat) : Option (Resp × Nat × Nat) :=
  m.resps.findSome? (fun r => match r.who with
    | .fetch e w p => if e = d ∧ r.id = id then some (r, w, p) else none
    | _ => none)

/-- FETCH_LINE_RETURN (R350, R351): the waybill and the error marker are checked; a bad line fails the descriptor. -/
def doFetchLineReturn (d id : Nat) (m : Chip) : Chip :=
  match fetchResp m d id with
  | none => m
  | some (r, wid, pos) =>
    let m1 := { m with resps := m.resps.filter (fun x => x != r) }
    match (conDie m d).wagons.find? (fun w => w.id == wid) with
    | none => m1
    | some w =>
      match desc m d w.desc with
      | none => m1
      | some x =>
        let f := if r.fate = .good ∧ ¬ wbOk r.ln then .waybill else r.fate
        if f = .good then lineIn m1 d w pos r.ln
        else
          let m2 := if f = .waybill then bump m1 CON_WBILL_CTR 1 else m1
          let st := if f = .waybill then 4 else if f = .address ∧ isHbm (r.line * 128) ∧ ¬ stackUp m (stackOf (r.line * 128)) then 7 else 5
          conEnd (recFate m2 5 d (ownDesc x) w.idx r.line { ln := r.ln, fate := f }) d w.desc st w.idx

/-- Meaning of FETCH_LINE_RETURN. -/
def execFetchLineReturn (die id : Nat) (s : State) : Host.Outcome State Fault Refusal := run s (doFetchLineReturn die id)

/-! ### Stage -/

/-- Issue one operation of a wagon. -/
def stagePush (d : Nat) (w : List Nat) (id : Nat) (m : Chip) (o : StageOp) : Chip :=
  let m1 := match stageSlice m o.line with
    | some g => modCon m d (fun c => { c with sliceOut := tmod 0 g (· + 1) c.sliceOut })
    | none => m
  let r : Req := { id := 0, kind := if o.kind = 0 then .write else .reduce, line := o.line, ln := o.ln, op := if o.kind = 2 then 4 else dFmt w, size := if o.kind = 2 then 0 else dFmtB w,
                   ing := conIng d o.line, who := .stage d id }
  pushReq m1 r

/-- Issue operations in order while the slices' tablets last (R372, R378): what is left, what was issued. -/
def stageIssue (d : Nat) (w : List Nat) (id : Nat) : List StageOp → Chip → List StageOp × List StageOp × Chip
  | [], m => ([], [], m)
  | o :: r, m =>
    if (stageSlice m o.line).any (fun g => decide (16 ≤ tget 0 g (conDie m d).sliceOut)) then (o :: r, [], m)
    else
      let q := stageIssue d w id r (stagePush d w id m o)
      (q.1, o :: q.2.1, q.2.2)

/-- STAGE_WAGON_WRITE (R367 to R373). -/
def doStageWagonWrite (d id : Nat) (m : Chip) : Chip :=
  match (conDie m d).wagons.find? (fun w => w.id == id && w.st == 3) with
  | none => m
  | some w =>
    match desc m d w.desc with
    | none => m
    | some x =>
      let q := stageIssue d x.w id w.todo m
      modWagon q.2.2 d id (fun v => { v with todo := q.1, issued := v.issued ++ q.2.1, acks := v.acks + q.2.1.length })

/-- Meaning of STAGE_WAGON_WRITE. -/
def execStageWagonWrite (die wagon : Nat) (s : State) : Host.Outcome State Fault Refusal :=
  runIf s (fun m => !reclaiming m die 3) (doStageWagonWrite die wagon)

/-- STAGE_WAGON_RETIRE (R331, R341, R372): every write is acknowledged, or one failed. -/
def doStageWagonRetire (d id : Nat) (m : Chip) : Chip :=
  match (conDie m d).wagons.find? (fun w => w.id == id && w.st == 3) with
  | none => m
  | some w =>
    if w.failed then conMove (conEnd m d w.desc 5 w.idx) d
    else if w.todo = [] ∧ w.acks = 0 then
      let m1 := modCon (bump m CON_WAGON_CTR 1) d (fun c => { c with wagons := c.wagons.filter (fun v => v.id != id), retired := c.retired + 1 })
      let m2 := modDesc (tabBack m1 d 2 1) d w.desc (fun x => { x with retired := x.retired + 1 })
      let m3 := if (desc m2 d w.desc).any (fun x => x.retired == dWagons x.w) then conEnd m2 d w.desc 0 noBad else m2
      conMove m3 d
    else m

/-- Meaning of STAGE_WAGON_RETIRE. -/
def execStageWagonRetire (die wagon : Nat) (s : State) : Host.Outcome State Fault Refusal := run s (doStageWagonRetire die wagon)

/-! ### Audit and reclaim (R379 to R382) -/

/-- Tablets of hand-off h on units in flight and held by the receiver. -/
def tabsHeld (m : Chip) (d h : Nat) : Nat :=
  match h with
  | 0 => (descsOf m d).length
  | 1 => (((conDie m d).wagons.filter (fun w => w.st != 3)).map (·.asked)).foldl (· + ·) 0
  | _ => ((conDie m d).wagons.filter (fun w => w.st == 3)).length

/-- Total tablets of hand-off h (R378). -/
def tabTotal (h : Nat) : Nat := nth [64, 8192, 256] h

/-- Requests of Stage waiting at slice g. -/
def sliceReqs (m : Chip) (d g : Nat) : Nat :=
  (m.reqs.filter (fun r => (match r.who with
    | .stage e _ => e == d
    | _ => false) && stageSlice m r.line == some g)).length

/-- The hand-offs of a die that fail R379. -/
def conAudit (m : Chip) (d : Nat) : List Nat :=
  ([0, 1, 2].filter (fun h => tabOf m d h + tabsHeld m d h != tabTotal h)) ++
  (if (List.range 128).all (fun g => tget 0 g (conDie m d).sliceOut == sliceReqs m d g) then [] else [3])

/-- Wagons created are retired, abandoned or held (R380). -/
def wagonAudit (m : Chip) (d : Nat) : Bool :=
  let c := conDie m d
  c.created == c.retired + c.abandoned + c.wagons.length

/-- Start the reclaim of hand-offs. -/
def startReclaim (m : Chip) (d : Nat) (hs : List Nat) : Chip := conNote (modCon m d (fun c => { c with reclaim := (c.reclaim ++ hs).eraseDups }))

/-- Units of a hand-off are in flight: lines requested by Fetch, operations at the slices. -/
def inFlight (m : Chip) (d h : Nat) : Bool :=
  let is (w : Who) : Bool := match h, w with
    | 1, .fetch e _ _ => e == d
    | 3, .stage e _ => e == d
    | _, _ => false
  m.reqs.any (fun r => is r.who) || m.resps.any (fun r => is r.who)

/-- CONSIST_RECLAIM_DONE (R382). -/
def doConsistReclaimDone (d h : Nat) (m : Chip) : Chip :=
  let held := tabsHeld m d h
  let m1 := modCon m d (fun c => { c with
    avail := if h < 3 then setAt c.avail h (tabTotal h - held) else c.avail, sliceOut := if h = 3 then [] else c.sliceOut, reclaim := c.reclaim.filter (· != h) })
  let m2 := conNote (bump m1 CON_RECLAIM_CTR 1)
  let m3 := if (conDie m2 d).reclaim = [] then
      (match firstIdx 4 (fun i => cmdGoing m2 i 0x0403 && nth (cmdAux m2 i) 0 == d) with
       | some i => respond m2 i 0 [nth (cmdAux m2 i) 1]
       | none => m2)
    else m2
  conMove m3 d

/-- Meaning of CONSIST_RECLAIM_DONE. -/
def execConsistReclaimDone (die handoff : Nat) (s : State) : Host.Outcome State Fault Refusal :=
  runIf s (fun m => reclaiming m die handoff && !inFlight m die handoff) (doConsistReclaimDone die handoff)

/-- The hand-offs of a stage (0 Fetch, 1 Expand, 2 Stage, 3 Despatch): those it receives and those it sends. -/
def stageHandoffs (s : Nat) : List Nat := if s = 3 then [4] else [s, s + 1]

/-- A wagon is in a stage. -/
def inStage (s : Nat) (w : Wagon) : Bool :=
  match s with
  | 0 => w.st == 0
  | 1 => w.st == 1 || w.st == 2
  | 2 => w.st == 3
  | _ => false

/-- The descriptors of a die that hold wagons in a chosen stage. -/
def resetDescs (m : Chip) (d stages : Nat) : List Nat :=
  ((descsOf m d).filter (fun e => (conDie m d).wagons.any (fun w => w.desc == e.1 && (List.range 4).any (fun s => tb stages s && inStage s w)))).map (·.1)

/-- Reset stages of a die: the descriptors abort and the hand-offs are reclaimed (R382). -/
def resetStages (m : Chip) (d stages : Nat) : Chip :=
  if stages % 16 = 0 then m
  else startReclaim ((resetDescs m d stages).foldl (fun c id => conEnd c d id 9 noBad) m) d ((idxs 4 (tb stages)).flatMap stageHandoffs)

/-- The stage that R770 resets for a hand-off: the one that receives it, or Stage for the slices' operations. -/
def auditStage (h : Nat) : Nat := min h 2

/-- An audit of a die's hand-off has failed: reclaim, and after four epochs in a row the stage's reset with a contained record (R381, R770). -/
def conAuditFail (m : Chip) (d h : Nat) : Chip :=
  let r := auditRun m (256 + d * 8 + h)
  if r.1 then resetStages (recErr r.2 1 5 3 d ownMioto 0 0 0 0 0) d (2 ^ auditStage h) else startReclaim r.2 d [h]

/-- The audit of the epoch (R380, R381, R768). Wagons that do not add up reclaim every hand-off. -/
def conAuditEpoch (m : Chip) : Chip :=
  if !fon m CON_CTRL_AUDIT_EN then m
  else [0, 1].foldl (fun c d =>
    let hs := if wagonAudit c d then (conAudit c d).filter (fun h => !reclaiming c d h) else (List.range 4).filter (fun h => !reclaiming c d h)
    if hs = [] then c
    else
      let c1 := notice (bump (fset c (if d = 0 then CON_STAT_AUDIT_FAIL_N else CON_STAT_AUDIT_FAIL_S) 1) CON_AUDIT_CTR 1) 11 [1 + d * 256]
      hs.foldl (fun c h => conAuditFail c d h) c1) m

/-- Meaning of CON_RESET_WRITE (R389). -/
def execConResetWrite (val : Word) (s : State) : Host.Outcome State Fault Refusal :=
  run s (fun m => resetStages (resetStages m 0 (bitsN val.toNat 3 0)) 1 (bitsN val.toNat 7 4))

/-- CON.RESET (R663): acceptance stops, the descriptors in the stages abort, and the command completes when the reclaims have. -/
def doConReset (i : Nat) (p : List Nat) (m : Chip) : Chip :=
  let d := bitN (nth p 0) 0
  let st := bitsN (nth p 0) 7 4
  resetStages (cmdOn m i [d, (resetDescs m d st).length]) d st

/-- Meaning of CON.RESET. -/
def execConReset (i : Nat) (s : State) : Host.Outcome State Fault Refusal := runCmd s i 0x0403 (doConReset i)

/-! ### Regulators (R383 to R388) -/

/-- Release what a regulator holds, oldest first, while it has credits or is off. -/
def releaseHeldReqs (k : Nat) : List Nat → Chip → Chip
  | [], m => m
  | id :: r, m =>
    match m.reqs.find? (fun q => q.id == id) with
    | none => releaseHeldReqs k r m
    | some q =>
      if fget m (CON_REGk_CFG_MODE k) = 2 ∧ tget 0 k m.credits = 0 then m
      else if fget m (CON_REGk_CFG_MODE k) = 0 then releaseHeldReqs k r (modReq m id (fun q => { q with st := 0, reg := 0 }))
      else
        let s := spendCredit m k q
        releaseHeldReqs k r (modReq s.2 id (fun _ => s.1))

/-- REGULATOR_REFILL (R385): 4 × RATE credits, up to 8 × RATE, and held requests proceed. -/
def doRegulatorRefill (k : Nat) (m : Chip) : Chip :=
  let rate := fget m (CON_REGk_CFG_RATE k)
  let m1 := if fget m (CON_REGk_CFG_MODE k) = 0 then m
    else { m with credits := tput 0 k (min (8 * rate) (tget 0 k m.credits + 4 * rate)) m.credits, refillAt := tput 0 k m.ns m.refillAt }
  releaseHeldReqs k ((m1.reqs.filter (fun r => r.st == 4 && r.reg == k)).map (·.id)) m1

/-- 1,024 BCLK have passed since the last gain: 512 ns, twice that while BCLK is halved. -/
def refillDue (m : Chip) (k : Nat) : Bool :=
  decide (k < 64) && decide (tget 0 k m.refillAt + (if fon m PWR_STAT_BCLK_HALF then 1024 else 512) ≤ m.ns)

/-- Meaning of REGULATOR_REFILL. -/
def execRegulatorRefill (k : Nat) (s : State) : Host.Outcome State Fault Refusal := runIf s (fun m => refillDue m k) (doRegulatorRefill k)

/-- The regulator that CON.REGULATE uses: the one named, the master's own, or the lowest unused. -/
def chooseReg (m : Chip) (w0 : Nat) : Option Nat :=
  if tb w0 6 then some (bitsN w0 5 0)
  else (regulatorOf m (bitsN w0 23 16)).or (if bitsN w0 31 30 = 0 then none else firstIdx 64 (fun k => fget m (CON_REGk_CFG_MODE k) == 0))

/-- CON.REGULATE (R388). -/
def doConRegulate (i : Nat) (p : List Nat) (m : Chip) : Chip :=
  let w0 := nth p 0
  match chooseReg m w0 with
  | some k => respond (regStart m (setCsr m (CON_REGk_CFG_MODE k).off (bitsN w0 31 30 * 2 ^ 30 + bitsN w0 23 16 * 2 ^ 16 + nth p 1 % 65536)) k) i 0 [k]
  | none => respond m i 0 [if bitsN w0 31 30 = 0 then 0 else 2 ^ 31]

/-- Meaning of CON.REGULATE. -/
def execConRegulate (i : Nat) (s : State) : Host.Outcome State Fault Refusal := runCmd s i 0x0402 (doConRegulate i)

/-! ### CON.RUN -/

/-- A range of the descriptor meets a range of an active descriptor or of a timetable row (R347). -/
def runMeets (m : Chip) (w : List Nat) : Bool :=
  (dRanges w).any (fun r => [0, 1].any (fun d => (descsOf m d).any (fun e => (dRanges e.2.w).any (fun q => rangesMeet r.1 r.2 q.1 q.2))) || rowTouches m r.1 r.2)

/-- CON.RUN (R347): BUSY on an overlap; it waits while the die accepts none; it completes with the descriptor. -/
def doConRun (i : Nat) (p : List Nat) (m : Chip) : Chip :=
  let w := fit 14 0 p
  let d := dDie w
  if runMeets m w then fail m i 1
  else if !conOpen m d then m
  else conAccept (cmdOn m i [d]) d none i w

/-- Meaning of CON.RUN. -/
def execConRun (i : Nat) (s : State) : Host.Outcome State Fault Refusal := runCmd s i 0x0401 (doConRun i)

end Sys2Proof.Machine
end

