-- ==== Sys2Proof/Machine/Buffer.lean ====
section
/-! DEFINITION. The shared buffer: slices, Collect units, cache regions, the siding, scrub, and the BUF commands (R275 to R326, R663). -/

namespace Sys2Proof.Machine

/-- Serve the next request of a kind at a slice; a line in HOST bias waits for its flip (R598). -/
def serveSlice (g : Nat) (ks : List ReqKind) (m : Chip) : Chip :=
  match sliceNext m g ks with
  | some r => if deviceReady m (r.line * 128) 128 then serve m r else flipRange m (r.line * 128) 128
  | none => m

/-- Meaning of SLICE_READ (R280, R315, R316). -/
def execSliceRead (g : Nat) (s : State) : Host.Outcome State Fault Refusal := run s (serveSlice g [.read])

/-- Meaning of SLICE_WRITE (R282). -/
def execSliceWrite (g : Nat) (s : State) : Host.Outcome State Fault Refusal := run s (serveSlice g [.write])

/-- Meaning of SLICE_PARTIAL_WRITE (R317 to R319). -/
def execSlicePartialWrite (g : Nat) (s : State) : Host.Outcome State Fault Refusal := run s (serveSlice g [.partialWrite])

/-- Meaning of COLLECT_ATOMIC (R308). -/
def execCollectAtomic (g : Nat) (s : State) : Host.Outcome State Fault Refusal := run s (serveSlice g [.atomic])

/-- Meaning of COLLECT_REDUCE (R310). -/
def execCollectReduce (g : Nat) (s : State) : Host.Outcome State Fault Refusal := run s (serveSlice g [.reduce])

/-- A class D request has waited 2^log2 BCLK cycles of half an ns (R279, R431). -/
def promoteDue (m : Chip) (id log2 : Nat) : Bool :=
  m.reqs.any (fun r => r.id == id && r.cls == 3 && decide (2 ^ log2 ≤ 2 * (m.ns - r.since)))

/-- SLICE_CLASS_D_PROMOTE (R279): the request is served as class C. -/
def doClassDPromote (id : Nat) (m : Chip) : Chip := modReq m id (fun r => { r with cls := 2 })

/-- Meaning of SLICE_CLASS_D_PROMOTE. -/
def execSliceClassDPromote (g id : Nat) (s : State) : Host.Outcome State Fault Refusal :=
  runIf s (fun m => promoteDue m id (fget m BUF_CTRL_PROMOTE_LOG2) && m.reqs.any (fun r => r.id == id && servingSlice m r.line == some g)) (doClassDPromote id)

/-- The fill of request id (R293, R297). -/
def doCacheFillReturn (id : Nat) (m : Chip) : Chip :=
  match m.reqs.find? (fun r => r.id == id && r.st == 1) with
  | some r => fillReturn m r
  | none => m

/-- Meaning of CACHE_FILL_RETURN. -/
def execCacheFillReturn (id : Nat) (s : State) : Host.Outcome State Fault Refusal := run s (doCacheFillReturn id)

/-! ### Flushing and the eviction buffer -/

/-- Write back a cached line if it is dirty; it stays cached and clean. -/
def cleanLine (m : Chip) (k ln : Nat) : Chip :=
  match cacheGet m k ln with
  | some c => if c.dirty then
      bump (writeCell { m with buf := { m.buf with cache := tput {} (cKey k ln) { c with dirty := false } m.buf.cache } } ln c.ln) BUF_WRBACK_CTR 1 else m
  | none => m

/-- The lines of region k that the cache holds; only the dirty ones when asked. -/
def regionLines (m : Chip) (k : Nat) (dirty : Bool) : List Nat :=
  m.buf.cache.filterMap (fun e => if e.1 / 2 ^ 40 = k ∧ (e.2.dirty || !dirty) then some (e.1 % 2 ^ 40) else none)

/-- Empty region k: every dirty line is written back, then no line is held. -/
def emptyRegion (m : Chip) (k : Nat) : Chip :=
  let m1 := (regionLines m k true).foldl (fun c ln => cleanLine c k ln) m
  { m1 with buf := { m1.buf with cache := m1.buf.cache.filter (fun e => e.1 / 2 ^ 40 ≠ k) } }

/-- Set or clear a slot's FLUSH_BUSY. -/
def setFlushBusy (m : Chip) (k : Nat) (b : Bool) : Chip := fset m BUF_STAT_FLUSH_BUSY (putBit (fget m BUF_STAT_FLUSH_BUSY) k b)

/-- Start a flush of region slot k (R326). -/
def startFlush (m : Chip) (k : Nat) : Chip :=
  if rgnOn m k && bitN (fget m BUF_STAT_FLUSH_BUSY) k == 0 then
    setFlushBusy { m with buf := { m.buf with flush := tput [] k (regionLines m k true) m.buf.flush } } k true
  else m

/-- A flush of slot k has no line left: FLUSH_BUSY clears and BUF.FLUSH completes. -/
def endFlush (m : Chip) (k : Nat) : Chip :=
  let m1 := setFlushBusy m k false
  match tget 0 k m.buf.flushMb with
  | 0 => m1
  | i1 + 1 =>
    let i := i1 % 4
    let m2 := { m1 with buf := { m1.buf with flushMb := tput 0 k 0 m1.buf.flushMb } }
    let m3 := if i1 / 4 % 2 = 1 then emptyRegion m2 k else m2
    respond m3 i 0 [nth (cmdAux m3 i) 0]

/-- The region slots of a half whose flush is running. -/
def flushing (m : Chip) (half : Nat) : List Nat := (List.range 4).map (· + 4 * half) |>.filter (fun k => bitN (fget m BUF_STAT_FLUSH_BUSY) k == 1)

/-- One step of a flush. -/
def flushStep (m : Chip) (k : Nat) : Chip :=
  match tget [] k m.buf.flush with
  | [] => endFlush m k
  | ln :: r => cleanLine { m with buf := { m.buf with flush := tput [] k r m.buf.flush } } k ln

/-- EVICTION_WRITEBACK (R294): the oldest line of the eviction buffer goes to HBM; with none, a running flush writes its next line. -/
def doEvictionWriteback (half : Nat) (m : Chip) : Chip :=
  if evOf m half ≠ [] then evDrain m half
  else match flushing m half with
    | k :: _ => flushStep m k
    | [] => m

/-- Meaning of EVICTION_WRITEBACK. -/
def execEvictionWriteback (half : Nat) (s : State) : Host.Outcome State Fault Refusal := run s (doEvictionWriteback (half % 2))

/-- EVICTION_ROOM_RESUME (R295): the oldest fill waiting for room in the half's eviction buffer proceeds. -/
def doEvictionRoomResume (half : Nat) (m : Chip) : Chip :=
  match pickReq m (fun r => r.st == 2 && (backing m (r.line * 128)).any (fun k => k / 4 == half)) with
  | some r => if (evOf m half).length < 512 then fillReturn m r else m
  | none => m

/-- Meaning of EVICTION_ROOM_RESUME. -/
def execEvictionRoomResume (half : Nat) (s : State) : Host.Outcome State Fault Refusal := run s (doEvictionRoomResume half)

/-! ### The siding -/

/-- SIDING_DRAIN (R305, R307): the oldest parked line whose path accepts writes goes home; Mioto closes an empty siding once every path accepts. -/
def doSidingDrain (half : Nat) (m : Chip) : Chip :=
  match (sidingOf m half).find? (fun p => !pathShut m (pathOf (p.line * 128))) with
  | some p =>
    let m1 := storeCell (setSiding m half ((sidingOf m half).erase p)) p.line p.ln
    if sidingOf m1 0 = [] ∧ sidingOf m1 1 = [] ∧ m1.buf.pathShut = [] then fset m1 BUF_CTRL_SIDING_EN 0 else m1
  | none => if sidingOf m 0 = [] ∧ sidingOf m 1 = [] ∧ m.buf.pathShut = [] ∧ m.start.phase = 5 then fset m BUF_CTRL_SIDING_EN 0 else m

/-- Meaning of SIDING_DRAIN. -/
def execSidingDrain (half : Nat) (s : State) : Host.Outcome State Fault Refusal := run s (doSidingDrain half)

/-- SIDING_ROOM_RESUME (R306): the oldest writer waiting on a full siding proceeds once there is room. -/
def doSidingRoomResume (half : Nat) (m : Chip) : Chip :=
  match pickReq m (fun r => r.st == 3 && sidingHalf (r.line * 128) == half) with
  | some r => if sidingFull m r.line then m else perform m r
  | none => m

/-- Meaning of SIDING_ROOM_RESUME. -/
def execSidingRoomResume (half : Nat) (s : State) : Host.Outcome State Fault Refusal := run s (doSidingRoomResume half)

/-! ### Scrub -/

/-- The scrub of a half. -/
def bufScrub (m : Chip) (half : Nat) : Option Scrub := m.buf.scrub.getD half none

/-- Set the scrub of a half. -/
def setBufScrub (m : Chip) (half : Nat) (q : Option Scrub) : Chip := { m with buf := { m.buf with scrub := setAt m.buf.scrub half q } }

/-- The region slot that holds a granule. -/
def rgnAt (m : Chip) (half g : Nat) : Option Nat := firstIdx 8 (fun k => rgnHas m k half g)

/-- The backing line cached at a line of a CACHE granule: lines of the region's part of a slice are taken in order, sixteen ways a set. -/
def cachedAt (m : Chip) (k ln : Nat) : Option Nat :=
  let (_, s, i) := sliceOf (ln * 128)
  let off := i - fget m (BUF_RGNk_CFG_FIRST_GRANULE k) * 8192
  let set := (k * 128 + s) * 2 ^ 15 + off / 16
  ((cacheSet m k set).find? (fun e => e.2.way == off % 16)).map (·.1)

/-- What a scrub read found, added to its counts. -/
def scrubCount (q : Scrub) (da : Nat) (corr : Nat) (f : Fate) : Scrub :=
  let bad := f == .uncorrectable || f == .waybill || f == .poisoned
  { q with next := q.next + 1, left := q.left - 1, done := q.done + 1, corr := q.corr + b2n (corr != 0), unc := q.unc + b2n (f == .uncorrectable), wb := q.wb + b2n (f == .waybill), poi := q.poi + b2n (f == .poisoned), firstBad := if bad && q.firstBad.isNone then some da else q.firstBad }

/-- The response words of a scrub (R324). -/
def scrubWords (m : Chip) (q : Scrub) : List Nat :=
  [q.done, q.corr, q.unc, q.wb, q.poi] ++ lohi (q.firstBad.getD 0) ++ [elapsed m q.t0]

/-- The record of a bad line found by a scrub, one each (R756). -/
def scrubRecord (m : Chip) (src unit : Nat) (ln : Nat) (g : Got) (f : Fate) : Chip :=
  if f = .uncorrectable ∨ f = .waybill ∨ f = .poisoned then recFate m src unit (7, 0, 0) 0 ln { g with fate := f } else m

/-- Read a line for a scrub of the buffer: the line as it stands in the cells or in its cached copy. -/
def scrubRead (m : Chip) (ln : Nat) : Option (Nat × Got) :=
  match rgnAt m (halfOf (ln * 128)) (granuleOf (ln * 128)) with
  | some k => (cachedAt m k ln).bind (fun b => (cacheGet m k b).map (fun c => (b, decodeBuf m.freeCtr c.ln)))
  | none => some (ln, decodeBuf m.freeCtr ((parkedCopy m ln).getD (rawLine m ln)))

/-- BUF_SCRUB_LINE (R322 to R324): the next line is read, counted and corrected; the last one completes the command. -/
def doBufScrubLine (half : Nat) (m : Chip) : Chip :=
  match bufScrub m half with
  | none => m
  | some q =>
    let g := gSlice half (q.next * 128)
    let (q1, m1) := match scrubRead m q.next with
      | none => ({ q with next := q.next + 1, left := q.left - 1 }, m)
      | some (ln, got) =>
        let f := storedFate got
        let c := { m with freeCtr := m.freeCtr + 1 }
        let c := bump c BUF_CE_CTR got.corr
        let c := if got.corr = 0 ∨ f ≠ Fate.good then c else recErr c 0 2 1 g (7, 0, 0) (gaOf c (ln * 128)) 1 got.word 0 0
        let c := if f == Fate.uncorrectable then bump c BUF_UE_CTR 1 else c
        let c := scrubRecord c 2 g ln got f
        let c := if got.corr ≠ 0 ∧ ¬ q.noFix then queueFix c ln else c
        (scrubCount q (ln * 128) got.corr f, c)
    if q1.left = 0 then respond (setBufScrub m1 half none) q1.m 0 (scrubWords m1 q1) else setBufScrub m1 half (some q1)

/-- Meaning of BUF_SCRUB_LINE. -/
def execBufScrubLine (half : Nat) (s : State) : Host.Outcome State Fault Refusal := run s (doBufScrubLine half)

/-! ### Commands -/

/-- BUF_CTRL_FLUSH (R326): bits 16 to 23 of the write start flushes; the other fields are written as their types say. -/
def doBufCtrlFlush (v : Nat) (m : Chip) : Chip :=
  (List.range 8).foldl (fun c k => if tb v (16 + k) then startFlush c k else c) (writeFields m 0x30000 v)

/-- Meaning of BUF_CTRL_FLUSH. -/
def execBufCtrlFlush (val : Word) (s : State) : Host.Outcome State Fault Refusal :=
  runIf s (fun _ => bitsN val.toNat 23 16 != 0) (doBufCtrlFlush val.toNat)

/-- A line-aligned range of the buffer outside its reserved ranges (R323). -/
def scrubRange (da n : Nat) : Bool :=
  da % 128 == 0 && isBuf da && isBuf (da + n - 1) && halfOf da == halfOf (da + n - 1) && granuleOf (da + n - 1) != 63

/-- DA of words 0 and 1. -/
def da01 (p : List Nat) : Nat := nth p 0 + nth p 1 * 2 ^ 32

/-- BUF.SCRUB (R322 to R324). -/
def doBufScrub (i : Nat) (p : List Nat) (m : Chip) : Chip :=
  let da := da01 p
  if !scrubRange da (nth p 2 * 128) then fail m i 0x0302
  else if (bufScrub m (halfOf da)).isSome then fail m i 1
  else cmdOn (setBufScrub m (halfOf da) (some { m := i, next := da / 128, left := nth p 2, t0 := m.ns, noFix := tb (nth p 3) 7 })) i []

/-- Meaning of BUF_SCRUB. -/
def execBufScrub (i : Nat) (s : State) : Host.Outcome State Fault Refusal := runCmd s i 0x0303 (doBufScrub i)

/-- BUF.CLEAR (R663): the zero writes run until BUF_CLEAR_DONE. -/
def doBufClear (i : Nat) (p : List Nat) (m : Chip) : Chip :=
  let da := da01 p
  let n := nth p 2 * 128
  if !scrubRange da n || (List.range (n / 0x4000000 + 2)).any (fun j => inCache m (min (da + n - 1) (da + j * 0x4000000))) then fail m i 0x0302
  else cmdOn m i [halfOf da, da, n]

/-- Meaning of BUF_CLEAR. -/
def execBufClear (i : Nat) (s : State) : Host.Outcome State Fault Refusal := runCmd s i 0x0304 (doBufClear i)

/-- Set the dirty bit of every page of a source range that a byte range meets (R706). -/
def dirtyRange (m : Chip) (da n : Nat) (t : Tab Bool) (k : Nat) : Tab Bool :=
  match tget none k m.twin.regions with
  | some r => (List.range (r.units * 16)).foldl (fun t pg => if rangesMeet da n (r.src + pg * 4096) 4096 then tput false (k * 2 ^ 20 + pg) true t else t) t
  | none => t

/-- The cells outside a byte range. -/
def cellsOutside (mem : Memory) (da n : Nat) : Memory := mem.filter (fun c => decide (c.1 < da) || decide (da + n ≤ c.1))

/-- Zero a line-aligned range of the cells with valid protection: nothing is listed there; dirty bits of the twin are set. -/
def clearRange (m : Chip) (da n : Nat) : Chip :=
  let lm := m.lmeta.filter (fun e => decide (e.1 < da / 128) || decide ((da + n) / 128 ≤ e.1))
  { m with mem := cellsOutside m.mem da n, lmeta := lm, twin := { m.twin with dirty := (List.range 32).foldl (dirtyRange m da n) m.twin.dirty } }

/-- The mailbox whose BUF.CLEAR runs in a half. -/
def clearMb (m : Chip) (half : Nat) : Option Nat := firstIdx 4 (fun i => cmdGoing m i 0x0304 && nth (cmdAux m i) 0 == half)

/-- BUF_CLEAR_DONE: every line of the range is zero, and the command completes with ELAPSED. -/
def doBufClearDone (half : Nat) (m : Chip) : Chip :=
  match clearMb m half with
  | some i => respond (clearRange m (nth (cmdAux m i) 1) (nth (cmdAux m i) 2)) i 0 [elapsed m (cmdT0 m i)]
  | none => m

/-- Meaning of BUF_CLEAR_DONE. -/
def execBufClearDone (half : Nat) (s : State) : Host.Outcome State Fault Refusal := run s (doBufClearDone half)

/-- BUF.FLIP (R321, R663): Mioto arms the flip and rewrites the line with its own contents. -/
def doBufFlip (i : Nat) (p : List Nat) (m : Chip) : Chip :=
  let da := da01 p
  if !scratch m da then fail m i 0x0302
  else
    let ln := da / 128
    let r := readLine m ln true
    let k := nth p 2
    let g := gSlice (halfOf da) da
    let m1 := setCsr (setCsr r.2 0x30008 (if k = 1 then 3 else 1)) 0x3000C 0
    let m2 := setCsr m1 0x30004 (2 ^ 31 + (if k = 2 then 2 else 0) * 2 ^ 29 + g)
    respond (putLine m2 ln { r.1.ln with errs := [] }) i 0 []

/-- Meaning of BUF_FLIP. -/
def execBufFlip (i : Nat) (s : State) : Host.Outcome State Fault Refusal := runCmd s i 0x0305 (doBufFlip i)

/-- BUF.FLUSH (R663): completes when the lines dirty at its start have been written back. -/
def doBufFlush (i : Nat) (p : List Nat) (m : Chip) : Chip :=
  let k := bitsN (nth p 0) 2 0
  if !rgnOn m k then fail m i 0x0302
  else
    let m1 := cmdOn (startFlush m k) i [(regionLines m k true).length]
    { m1 with buf := { m1.buf with flushMb := tput 0 k (1 + i + 4 * bitN (nth p 0) 8) m1.buf.flushMb } }

/-- Meaning of BUF_FLUSH. -/
def execBufFlush (i : Nat) (s : State) : Host.Outcome State Fault Refusal := runCmd s i 0x0302 (doBufFlush i)

/-- Granules of a half taken by its cache regions. -/
def granulesUsed (m : Chip) (half : Nat) : Nat :=
  sumN 4 (fun k => if rgnOn m (4 * half + k) then 2 ^ fget m (BUF_RGNk_CFG_SIZE (4 * half + k)) else 0)

/-- The granules g to g + n - 1 of a half are in SCRATCH mode. -/
def granulesFree (m : Chip) (half g n : Nat) : Bool := (List.range n).all (fun i => (rgnAt m half (g + i)).isNone)

/-- The first granule for a region of 2^size granules: the one named, or the lowest that fits (R286). -/
def chooseGranule (m : Chip) (half size named : Nat) : Option Nat :=
  let fits (g : Nat) : Bool := g % 2 ^ size == 0 && decide (g + 2 ^ size ≤ 63) && granulesFree m half g (2 ^ size)
  if named = 63 then firstIdx 63 fits else if fits named then some named else none

/-- The byte range of granules. -/
def granuleDa (half g : Nat) : Nat := 0xE00000000000 + half * 2 ^ 32 + g * 0x4000000

/-- Create a cache region (R286 to R288, R301). -/
def createRegion (i : Nat) (p : List Nat) (m : Chip) : Chip :=
  let w0 := nth p 0
  let half := bitN w0 27
  let size := bitsN w0 26 24
  let base := bitsN (nth p 1) 18 8
  let gib := bitsN (nth p 1) 7 0
  match firstIdx 4 (fun k => !rgnOn m (4 * half + k)) with
  | none => fail m i 0x0301
  | some k0 =>
    if granulesUsed m half + 2 ^ size > 32 then fail m i 0x0301
    else match chooseGranule m half size (bitsN w0 21 16) with
      | none => fail m i 0x0302
      | some g =>
        if base + gib > 1536 then fail m i 0x0302
        else if (List.range 8).any (fun k => rgnOn m k && rangesMeet base gib (fget m (BUF_RGNk_BACK_BASE k)) (fget m (BUF_RGNk_CFG_BACK_GIB k))) then fail m i 0x0303
        else if (List.range gib).any (fun j => !stackUp m ((base + j) / 64)) || rowTouches m (granuleDa half g) (2 ^ size * 0x4000000) then fail m i 1
        else
          let k := 4 * half + k0
          let m1 := clearRange m (granuleDa half g) (2 ^ size * 0x4000000)
          let m2 := setCsr (setCsr m1 (0x30044 + 8 * k) base) (0x30040 + 8 * k) (2 ^ 31 + size * 2 ^ 24 + g * 2 ^ 16 + gib * 2 ^ 8)
          respond m2 i 0 [g * 2 ^ 16 + k]

/-- Remove a cache region: flush, invalidate, and clear its granules to zero. -/
def removeRegion (i : Nat) (p : List Nat) (m : Chip) : Chip :=
  let k := bitsN (nth p 2) 2 0
  if !rgnOn m k then fail m i 0x0302
  else
    let g := fget m (BUF_RGNk_CFG_FIRST_GRANULE k)
    let n := 2 ^ fget m (BUF_RGNk_CFG_SIZE k)
    if rowTouches m (granuleDa (k / 4) g) (n * 0x4000000) then fail m i 1
    else
      let m1 := (List.range 512).foldl (fun c _ => evDrain c (k / 4)) (emptyRegion m k)
      let m2 := setCsr (setCsr m1 (0x30040 + 8 * k) 0) (0x30044 + 8 * k) 0
      respond (clearRange m2 (granuleDa (k / 4) g) (n * 0x4000000)) i 0 [g * 2 ^ 16 + k]

/-- BUF.REGION (R301, R302). -/
def doBufRegion (i : Nat) (p : List Nat) (m : Chip) : Chip :=
  if bitsN (nth p 0) 31 28 = 0 then createRegion i p m else removeRegion i p m

/-- Meaning of BUF_REGION. -/
def execBufRegion (i : Nat) (s : State) : Host.Outcome State Fault Refusal := runCmd s i 0x0301 (doBufRegion i)

end Sys2Proof.Machine
end

