-- ==== Sys2Proof/Machine/Hbm.lean ====
section
/-! DEFINITION. Stacks and stack controllers: service of requests, refresh, training, temperature, scrub, out of service, array tests, and the
HBM commands (R427 to R471). -/

namespace Sys2Proof.Machine

/-- Serve the next request of a kind at stack s. At level 3 requests to a stack in service wait (R455); a full siding holds a write back (R306). -/
def serveStack (s : Nat) (ks : List ReqKind) (m : Chip) : Chip :=
  if stackUp m s ∧ fget m (HBMs_STAT_LEVEL s) = 3 then m
  else match stackNext m s ks with
    | some r =>
      if !deviceReady m (r.line * 128) 128 then flipRange m (r.line * 128) 128
      else if r.kind != .read && sidingFull m r.line then modReq m r.id (fun q => { q with st := 3 }) else perform m r
    | none => m

/-- Meaning of HBM_READ (R439 to R442). -/
def execHbmRead (stack : Nat) (s : State) : Host.Outcome State Fault Refusal := run s (serveStack stack [.read])

/-- Meaning of HBM_WRITE (R434). -/
def execHbmWrite (stack : Nat) (s : State) : Host.Outcome State Fault Refusal := run s (serveStack stack [.write])

/-- Meaning of HBM_PARTIAL_WRITE (R436). An atomic or reduction never reaches a stack. -/
def execHbmPartialWrite (stack : Nat) (s : State) : Host.Outcome State Fault Refusal := run s (serveStack stack [.partialWrite])

/-- Meaning of HBM_CLASS_D_PROMOTE (R431). -/
def execHbmClassDPromote (stack id : Nat) (s : State) : Host.Outcome State Fault Refusal :=
  runIf s (fun m => promoteDue m id (fget m HBM_CTRL_PROMOTE_LOG2) && m.reqs.any (fun r => r.id == id && isHbm (r.line * 128) && stackOf (r.line * 128) == stack)) (doClassDPromote id)

/-! ### Refresh and training -/

/-- Run the refresh passes: 4, or 8 while hot (R443, R445). At level 3 self-refresh keeps the data and no passes run (R455). -/
def refreshPasses (s : Nat) (m : Chip) : Chip :=
  if fget m (HBMs_STAT_LEVEL s) = 3 then m
  else modStack m s (fun q => { q with refresh := q.refresh + (if fon m (HBMs_STAT_HOT s) then 8 else 4), lastRefresh := m.ns })

/-- Meaning of REFRESH_WINDOW_OPEN (R444, R445). -/
def execRefreshWindowOpen (row : Nat) (s : State) : Host.Outcome State Fault Refusal :=
  runIf s (fun m => rowDue m row [4] .armed (·.start)) (openRow · row (fun r c => refreshPasses (rowIndex r.w) c))

/-- The stack has a REFRESH row whose next occurrence will run (R447). -/
def refreshRowed (m : Chip) (s : Nat) : Bool :=
  (rowsOf m).any (fun e => rowKind e.2.w == 4 && rowIndex e.2.w == s && (e.2.st != .pending || decide (e.2.start ≤ now m + 16384)))

/-- REFRESH_TIMER (R447): without a row in force the controller runs the passes on its own timer. -/
def execRefreshTimer (stk : Nat) (s : State) : Host.Outcome State Fault Refusal :=
  runIf s (fun m => stackUp m stk && !refreshRowed m stk && decide ((stack m stk).lastRefresh + 16384 ≤ m.ns)) (refreshPasses stk)

/-- The ACTIVE training possession of a stack, with fewer than four pseudo-channels trained. -/
def trainRow (m : Chip) (s : Nat) : Option (Nat × TtRow) :=
  (rowsOf m).find? (fun e => rowKind e.2.w == 5 && rowSub e.2.w == 5 && rowIndex e.2.w == s && e.2.st == .active && decide (nth e.2.sent 0 < 4))

/-- HBM_TRAINING_FINISH (R449, R450): the pseudo-channel in turn takes its new setting, or keeps the old one and is counted. -/
def doHbmTrainingFinish (s : Nat) (pass : Bool) (setting : Nat) (m : Chip) : Chip :=
  match trainRow m s with
  | none => m
  | some (k, r) =>
    let pc := (stack m s).trainPc
    let m1 := setRow m k (some { r with sent := [nth r.sent 0 + 1, 0] })
    if pass then modStack (recMark m1) s (fun q => { q with setting := tput 0 pc setting q.setting, trainPc := (pc + 1) % 64 })
    else bump (modStack m1 s (fun q => { q with trainPc := (pc + 1) % 64 })) HBM_TRAIN_FAIL_CTR 1

/-- Meaning of HBM_TRAINING_FINISH. -/
def execHbmTrainingFinish (stack : Nat) (pass : Bool) (setting : Nat) (s : State) : Host.Outcome State Fault Refusal :=
  run s (doHbmTrainingFinish stack pass setting)

/-! ### Temperature -/

/-- The level a reading gives from the level before (R452). -/
def tempLevel (old t : Nat) : Nat :=
  let enter := if t ≥ 105 then 3 else if t ≥ 100 then 2 else if t ≥ 95 then 1 else 0
  let exit := if old = 3 then 100 else if old = 2 then 95 else 90
  if old ≤ enter then enter
  else if t ≤ exit then enter else old

/-- HBM_TEMP_READ (R443, R451 to R456). -/
def doHbmTempRead (s t : Nat) (m : Chip) : Chip :=
  let hot := if t ≥ 85 then 1 else if t ≤ 80 then 0 else fget m (HBMs_STAT_HOT s)
  let m1 := fset (fset m (HBMs_STAT_TEMP s) (sat 255 t)) (HBMs_STAT_HOT s) hot
  setLevel (modStack m1 s (fun q => { q with level := tempLevel q.level t })) s

/-- Meaning of HBM_TEMP_READ. -/
def execHbmTempRead (stack temp : Nat) (s : State) : Host.Outcome State Fault Refusal :=
  runIf s (fun _ => decide (stack < 24)) (doHbmTempRead stack temp)

/-! ### Scrub -/

/-- TEST_BUSY follows the stack's scrub and array test. -/
def setTestBusy (m : Chip) (s : Nat) : Chip := fset m (HBMs_STAT_TEST_BUSY s) (b2n ((stack m s).scrub.isSome || (stack m s).test.isSome))

/-- HBM_SCRUB_LINE (R457 to R459): the stack's own copy is read, counted and corrected. -/
def doHbmScrubLine (s : Nat) (m : Chip) : Chip :=
  match (stack m s).scrub with
  | none => m
  | some q =>
    let ln := q.next
    let r := hbmRead m (7, 0, 0) false ln
    let f := storedFate r.1
    let c := scrubRecord (noteWb r.2 ln f) 4 s ln r.1 f
    let c := if r.1.corr ≠ 0 ∧ ¬ q.noFix then queueFix c ln else c
    let q1 := scrubCount q (ln * 128) r.1.corr f
    if q1.left = 0 then respond (setTestBusy (modStack c s (fun k => { k with scrub := none })) s) q1.m 0 (scrubWords c q1)
    else modStack c s (fun k => { k with scrub := some q1 })

/-- Meaning of HBM_SCRUB_LINE. -/
def execHbmScrubLine (stack : Nat) (s : State) : Host.Outcome State Fault Refusal := run s (doHbmScrubLine stack)

/-- HBM.SCRUB (R457, R458). -/
def doHbmScrub (i : Nat) (p : List Nat) (m : Chip) : Chip :=
  let da := da01 p
  let n := nth p 2 * 128
  let s := stackOf da
  if da % 128 ≠ 0 ∨ ¬ isHbm (da + n - 1) ∨ stackOf (da + n - 1) ≠ s then fail m i 0x0601
  else if (stack m s).scrub.isSome || (stack m s).test.isSome then fail m i 1
  else cmdOn (setTestBusy (modStack m s (fun q => { q with scrub := some { m := i, next := da / 128, left := nth p 2, t0 := m.ns, noFix := tb (nth p 3) 7 } })) s) i []

/-- Meaning of HBM_SCRUB. -/
def execHbmScrub (i : Nat) (s : State) : Host.Outcome State Fault Refusal := runCmd s i 0x0603 (doHbmScrub i)

/-! ### Out of service -/

/-- Complete the requests queued at a stack (R463, step 2). -/
def drainStack : Nat → Nat → Chip → Chip
  | 0, _, m => m
  | n + 1, s, m =>
    match pickReq m (fun r => isHbm (r.line * 128) && stackOf (r.line * 128) == s && (backing m (r.line * 128)).isNone) with
    | some r => drainStack n s (perform m r)
    | none => m

/-- The stack stops accepting requests; those queued complete, and consist descriptors on the stack fail (R463, steps 1 and 2). -/
def stackOut (m : Chip) (s : Nat) (mb : Option Nat) (byReg : Bool) : Chip :=
  modStack (recMark (conStackGone (drainStack m.reqs.length s m) s)) s (fun q => { q with svc := 1, byCmd := true, byReg := byReg, svcMb := mb, destroyed := false })

/-- Retire Mioto's REFRESH and training rows of a stack (R463, step 4). -/
def retireStackRows (m : Chip) (s : Nat) : Chip :=
  ((rowsOf m).filter (fun e => e.2.mioto && rowIndex e.2.w == s && (rowKind e.2.w == 4 || (rowKind e.2.w == 5 && rowSub e.2.w == 5)))).foldl (fun c e => retire c e.1 e.2) m

/-- Post a stack's REFRESH row at the next multiple of 16,384 lt and its training row in the next epoch (R444, R448, R464). -/
def postStackRows (m : Chip) (s : Nat) : Chip :=
  let t := (now m / 16384 + 1) * 16384 + 640 * s
  let e := (now m / 2 ^ 20 + 1) * 2 ^ 20 + 640 * s + 4096
  postMioto (postMioto m (miotoWords 4 0 t 48 256 0 0 2 s)) (miotoWords 5 5 e 128 (16 * 16384) 0 75 2 s)

/-- HBM_DRAIN_DONE (R463): the stack is in self-refresh; its rows retire; a waiting command completes. -/
def doHbmDrainDone (s : Nat) (m : Chip) : Chip :=
  let q := stack m s
  let m1 := fset (retireStackRows (modStack m s (fun q => { q with svc := 2, svcMb := none })) s) (HBMs_STAT_OOS_DONE s) 1
  match q.svcMb with
  | some i => respond m1 i 0 [0]
  | none => m1

/-- Meaning of HBM_DRAIN_DONE. -/
def execHbmDrainDone (stk : Nat) (s : State) : Host.Outcome State Fault Refusal :=
  runIf s (fun m => decide (stk < 24) && (stack m stk).svc == 1) (doHbmDrainDone stk)

/-- HBM_OOS_WRITE (R463, R464): 1 takes the stack out; 0 returns it with its last settings, without training or clearing. -/
def doHbmOosWrite (s v : Nat) (m : Chip) : Chip :=
  let m1 := fset (fset m (HBMs_CTRL_OOS s) (bitN v 0)) (HBMs_CTRL_FORCE_LEVEL s) (bitsN v 5 4)
  let m2 := setLevel m1 s
  if bitN v 0 = 1 then (if (stack m2 s).svc = 0 then stackOut m2 s none true else m2)
  else if (stack m2 s).svc = 2 then fset (modStack (recMark m2) s (fun q => { q with svc := 0, byCmd := false, byReg := false, rowsDue := true })) (HBMs_STAT_OOS_DONE s) 0
  else m2

/-- Meaning of HBM_OOS_WRITE: a write that changes OOS. -/
def execHbmOosWrite (stack : Nat) (val : Word) (s : State) : Host.Outcome State Fault Refusal :=
  runIf s (fun m => decide (stack < 24) && bitN val.toNat 0 != fget m (HBMs_CTRL_OOS stack)) (doHbmOosWrite stack val.toNat)

/-- A cache region backs a range on the stack (R298). -/
def backsStack (m : Chip) (s : Nat) : Bool :=
  (List.range 8).any (fun k => rgnOn m k && rangesMeet (s * 64) 64 (fget m (BUF_RGNk_BACK_BASE k)) (fget m (BUF_RGNk_CFG_BACK_GIB k)))

/-- A source or keeper range of twinning lies on the stack (R709). -/
def twinOnStack (m : Chip) (s : Nat) : Bool :=
  m.twin.regions.any (fun e => e.2.any (fun r => rangesMeet (s * 2 ^ 36) (2 ^ 36) r.src (r.units * 65536))) ||
  m.twin.keepers.any (fun e => e.2.any (fun r => rangesMeet (s * 2 ^ 36) (2 ^ 36) r.1 (r.2 * 65536)))

/-- HBM.SERVICE (R461 to R464, R709). -/
def doHbmService (i : Nat) (p : List Nat) (m : Chip) : Chip :=
  let w0 := nth p 0
  let s := bitsN w0 4 0
  let q := stack m s
  if bitsN w0 31 28 = 0 then
    if q.svc = 2 ∨ q.svc = 1 then respond m i 0 [0]
    else if backsStack m s || (List.range 64).any (fun k => fon m (HOST_SEGk_VALID k) && fget m (HOST_SEGk_TARGET k) / 64 == s) || rowTouches m (s * 2 ^ 36) (2 ^ 36) || twinOnStack m s then fail m i 1
    else cmdOn (stackOut m s (some i) false) i []
  else if q.svc = 0 then respond m i 0 [2]
  else if q.svc = 2 then cmdOn (modStack m s (fun q => { q with svc := 3, svcMb := some i, noClear := tb w0 5 })) i []
  else m

/-- Meaning of HBM_SERVICE. -/
def execHbmService (i : Nat) (s : State) : Host.Outcome State Fault Refusal := runCmd s i 0x0601 (doHbmService i)

/-- HBM_RETURN_DONE (R464, R465): trained, and cleared after a destructive test unless NO_CLEAR; or HBM_TRAIN. -/
def doHbmReturnDone (s : Nat) (pass : Bool) (m : Chip) : Chip :=
  let q := stack m s
  let done (c : Chip) (st : Nat) (ws : List Nat) : Chip := match q.svcMb with
    | some i => respond c i st ws
    | none => c
  if !pass then done (modStack m s (fun q => { q with svc := 2, svcMb := none })) 0x0602 []
  else
    let clear := q.destroyed && !q.noClear
    let m1 := if clear then clearRange m (s * 2 ^ 36) (2 ^ 36) else m
    let m2 := modStack (recMark m1) s (fun q => { q with svc := 0, byCmd := false, byReg := false, svcMb := none, destroyed := false, lostPc := if clear then 0 else q.lostPc })
    let m3 := fset (fset m2 (HBMs_STAT_OOS_DONE s) 0) (HBMs_CTRL_OOS s) 0
    let m4 := if ltState m3 = 3 then postStackRows m3 s else modStack m3 s (fun q => { q with rowsDue := true })
    done m4 0 [b2n clear + 2 * b2n (!q.destroyed)]

/-- Meaning of HBM_RETURN_DONE. -/
def execHbmReturnDone (stk : Nat) (pass : Bool) (s : State) : Host.Outcome State Fault Refusal :=
  runIf s (fun m => decide (stk < 24) && (stack m stk).svc == 3) (doHbmReturnDone stk pass)

/-! ### The other commands -/

/-- HBM.THROTTLE (R456). -/
def doHbmThrottle (i : Nat) (p : List Nat) (m : Chip) : Chip :=
  let s := bitsN (nth p 0) 4 0
  respond (setLevel (fset m (HBMs_CTRL_FORCE_LEVEL s) (bitsN (nth p 0) 9 8)) s) i 0 []

/-- Meaning of HBM_THROTTLE. -/
def execHbmThrottle (i : Nat) (s : State) : Host.Outcome State Fault Refusal := runCmd s i 0x0602 (doHbmThrottle i)

/-- HBM.FLIP (R469): Mioto arms the flip and rewrites the line with its own contents. -/
def doHbmFlip (i : Nat) (p : List Nat) (m : Chip) : Chip :=
  let da := da01 p
  if !isHbm da || !stackUp m (stackOf da) then fail m i 0x0601
  else
    let ln := da / 128
    let k := nth p 2
    let r := readHbmLine m ln
    let m1 := setCsr r.2 0x6000C 1
    let m2 := setCsr m1 0x60008 (2 ^ 31 + (if k = 3 then 2 ^ 30 else k * 2 ^ 23) + stackOf da * 2 ^ 8)
    respond (writeCell m2 ln { r.1.ln with errs := [] }) i 0 []

/-- Meaning of HBM_FLIP. -/
def execHbmFlip (i : Nat) (s : State) : Host.Outcome State Fault Refusal := runCmd s i 0x0604 (doHbmFlip i)

/-- HBM.STATUS (R470). -/
def doHbmStatus (i : Nat) (p : List Nat) (m : Chip) : Chip :=
  let b := 0x60100 + 0x100 * bitsN (nth p 0) 4 0
  respond m i 0 ([0x04, 0x18, 0x1C, 0x20, 0x24, 0x08, 0x10, 0x14].map (fun o => csr m (b + o)))

/-- Meaning of HBM_STATUS. -/
def execHbmStatus (i : Nat) (s : State) : Host.Outcome State Fault Refusal := runCmd s i 0x0605 (doHbmStatus i)

/-- DIAG.HBM (R466 to R468). -/
def doDiagHbm (i : Nat) (p : List Nat) (m : Chip) : Chip :=
  let s := bitsN (nth p 0) 4 0
  let sel := nth p 1 + nth p 2 * 2 ^ 32
  if (stack m s).svc ≠ 2 ∨ (stack m s).scrub.isSome ∨ (stack m s).test.isSome then fail m i 1
  else
    let q : Nat × Nat × Nat × Nat := (i, bitsN (nth p 0) 31 28, if sel = 0 then 2 ^ 64 - 1 else sel, m.ns)
    cmdOn (setTestBusy (modStack m s (fun k => { k with test := some q })) s) i []

/-- Meaning of DIAG_HBM. -/
def execDiagHbm (i : Nat) (s : State) : Host.Outcome State Fault Refusal := runCmd s i 0x0D02 (doDiagHbm i)

/-- A destructive test leaves the selected pseudo-channels undefined: no line of them is known until it is written (R468). -/
def losePcs (m : Chip) (s sel : Nat) : Chip :=
  let inSel (ln : Nat) : Bool := isHbm (ln * 128) && stackOf (ln * 128) == s && tb sel (hbmPlace (ln * 128)).2.1
  let m1 := { m with lmeta := m.lmeta.filter (fun e => !inSel e.1) }
  modStack m1 s (fun q => { q with destroyed := true, tests := q.tests + 1, lostPc := q.lostPc ||| sel })

/-- HBM_ARRAY_TEST_END (R467): TEST_BUSY clears and the command returns what the test found. -/
def doHbmArrayTestEnd (s banks pcs first : Nat) (m : Chip) : Chip :=
  match (stack m s).test with
  | none => m
  | some (i, kind, sel, t0) =>
    let m1 := setTestBusy (modStack m s (fun k => { k with test := none })) s
    let m2 := if kind = 1 then m1 else losePcs m1 s sel
    respond m2 i 0 ([banks % 2 ^ 32] ++ lohi pcs ++ lohi (first % 2 ^ 48) ++ [elapsed m2 t0])

/-- Meaning of HBM_ARRAY_TEST_END. -/
def execHbmArrayTestEnd (stack banks pcs first : Nat) (s : State) : Host.Outcome State Fault Refusal :=
  run s (doHbmArrayTestEnd stack banks pcs first)

end Sys2Proof.Machine
end

