-- ==== Sys2Proof/Machine/Windows.lean ====
section
/-! DEFINITION. Timetable occurrences: arming, the parameter checks, the windows of SLOT, EXCHANGE, RECV, SIGNAL and POSSESSION rows, Despatch, late
contributions, and completion records (R72 to R98, R374 to R377, R408 to R412, R421, R542 to R548). -/

namespace Sys2Proof.Machine

/-! ### Parameter blocks -/

/-- The 48-bit address in words i and i + 1. -/
def parDa (par : List Nat) (i : Nat) : Nat := nth par i + nth par (i + 1) % 65536 * 2 ^ 32
/-- OP of a SLOT, RECV or EXCHANGE block. -/
def parOp (par : List Nat) : Nat := bitsN (nth par 0) 31 28
/-- DTYPE. -/
def parType (par : List Nat) : Nat := bitsN (nth par 0) 27 24
/-- The ports a block names, ascending. -/
def parPorts (par : List Nat) : List Nat := portsOf (nth par 1) (nth par 2)
/-- READY_DA of a SLOT or EXCHANGE block. -/
def parReady (par : List Nat) : Nat := parDa par 8
/-- READY_VALUE. -/
def parValue (par : List Nat) : Nat := nth par 10

/-- Words of a block that must be 0. -/
def zeros (par : List Nat) (is : List Nat) : Bool := is.all (fun i => nth par i == 0)
/-- Words of a block whose upper half must be 0. -/
def halves (par : List Nat) (is : List Nat) : Bool := is.all (fun i => decide (nth par i < 65536))

/-- A port leads to a module (R511, R513, R514, R542). -/
def leadsTo (m : Chip) (p dest : Nat) : Bool :=
  match farEnd m p with
  | some f => f.1 == dest
  | none => isTwinPort p && fget m TWIN_STAT_STATE != 0 && m.twin.twin == dest

/-- OP and DTYPE in range, the rest of word 0 clear. -/
def opWordOk (par : List Nat) : Bool :=
  bitsN (nth par 0) 23 0 == 0 && decide (parOp par ≤ 3) && decide (parType par ≤ 3) && (parOp par != 0 || parType par == 0)

/-- A ready word is aligned and a word of a SCRATCH granule. -/
def readyOk (m : Chip) (da : Nat) : Bool := da % 4 == 0 && scratch m da

/-- The block of a SLOT row passes R75. -/
def slotOk (m : Chip) (w par : List Nat) : Bool :=
  let bytes := nth par 3
  opWordOk par && decide (nth par 2 < 16) && zeros par [11, 12, 13, 14, 15] && halves par [5, 9] && decide (nth par 7 < 2 ^ 27) &&
  !(parPorts par).isEmpty && (parPorts par).all (fun p => leadsTo m p (nth par 7 / 65536)) &&
  bytes != 0 && bytes % 128 == 0 && parDa par 4 % 128 == 0 && parDa par 6 % 128 == 0 && readyOk m (parReady par) &&
  (if rowFeedHbm w then hbmRange m (parDa par 4) bytes else scratchRange m (parDa par 4) bytes)

/-- The block of a RECV row passes R75. -/
def recvOk (m : Chip) (par : List Nat) : Bool :=
  let bytes := nth par 4
  opWordOk par && decide (1 ≤ nth par 1) && decide (nth par 1 ≤ 512) && halves par [3, 6, 8] && zeros par [9, 10, 11, 12, 13, 14, 15] &&
  parDa par 2 % 128 == 0 && bytes != 0 && bytes % 128 == 0 && scratchRange m (parDa par 2) bytes &&
  parDa par 5 % 64 == 0 && scratchRange m (parDa par 5) 32 && readyOk m (parDa par 7)

/-- DEST of a phase-list entry. -/
def entDest (e : List Nat) : Nat := bitsN (nth e 0) 26 16
/-- FIRST_POS. -/
def entFirst (e : List Nat) : Nat := bitsN (nth e 0) 11 0
/-- COUNT. -/
def entCount (e : List Nat) : Nat := bitsN (nth e 1) 12 0
/-- The ports of an entry. -/
def entPorts (e : List Nat) : List Nat := portsOf (nth e 2) (nth e 3)
/-- DST_DA of an entry. -/
def entDst (e : List Nat) : Nat := nth e 4 + nth e 5 % 65536 * 2 ^ 32
/-- BLOCK of an EXCHANGE block. -/
def exchBlock (par : List Nat) : Nat := slotBlock (nth par 11) (nth par 12)
/-- Lines of an entry. -/
def entLines (par e : List Nat) : Nat := entCount e * exchBlock par / 128

/-- One entry passes R409 to R412. -/
def entryOk (m : Chip) (par e : List Nat) : Bool :=
  bitsN (nth e 0) 31 27 == 0 && bitsN (nth e 0) 15 12 == 0 && decide (nth e 1 < 2 ^ 13) && decide (nth e 3 < 16) && decide (nth e 5 < 65536) &&
  nth e 6 == 0 && nth e 7 == 0 && entCount e != 0 && entDst e % 128 == 0 &&
  (if (entPorts e).isEmpty then entDest e == selfNum m else (entPorts e).all (fun p => (parPorts par).contains p && leadsTo m p (entDest e))) &&
  decide (entFirst e + entCount e ≤ 4096) && scratchRange m (parDa par 4 + entFirst e * exchBlock par) (entCount e * exchBlock par)

/-- Lines that fall on one of n ports, at place j of the ascending ports (R375). -/
def portLines (lines n j : Nat) : Nat := (lines + n - 1 - j) / n

/-- The bytes that the entries put on a port. -/
def exchLoad (par : List Nat) (es : List (List Nat)) (p : Nat) : Nat :=
  es.foldl (fun a e => match (entPorts e).findIdx? (· == p) with
    | some j => a + portLines (entLines par e) (entPorts e).length j * 128
    | none => a) 0

/-- The fields of an EXCHANGE block pass R75. -/
def exchFieldsOk (m : Chip) (par : List Nat) : Bool :=
  let n := bitsN (nth par 2) 27 16
  nth par 0 == 0 && bitsN (nth par 2) 31 28 == 0 && bitsN (nth par 2) 15 4 == 0 && decide (1 ≤ n) && decide (n ≤ 2048) && halves par [5, 7, 9, 11] &&
  zeros par [13, 14, 15] && nth par 11 != 0 && nth par 12 != 0 && nth par 12 % 128 == 0 && decide (nth par 12 ≤ 65536) &&
  !(parPorts par).isEmpty && parDa par 4 % 128 == 0 && parDa par 6 % 32 == 0 && scratchRange m (parDa par 6) (32 * n) && readyOk m (parReady par)

/-- The phase list passes R412. -/
def exchListOk (m : Chip) (par : List Nat) (es : List (List Nat)) : Bool :=
  es.all (entryOk m par) && (parPorts par).all (fun p => decide (exchLoad par es p ≤ nth par 3))

/-- The word that a SIGNAL row's block names (R421). -/
def sigDa (par : List Nat) : Nat := 0xE00000000000 + 4 * bitsN (nth par 1) 30 0

/-- The block of a SIGNAL row passes R75. -/
def signalOk (m : Chip) (par : List Nat) : Bool :=
  bitsN (nth par 0) 27 0 == 0 && decide (parOp par ≤ 2) && decide (nth par 1 < 2 ^ 31) && zeros par [3, 4, 5, 6, 7, 8, 9, 10, 11, 12, 13, 14, 15] && scratch m (sigDa par)

/-- The block of a POSSESSION of class 5 passes R827. -/
def possOk (par : List Nat) : Bool :=
  zeros par [0, 3, 4, 5, 6, 7, 8, 9, 10, 11, 12, 13, 14, 15] && decide (nth par 2 < 16) && !(parPorts par).isEmpty

/-! ### Arming (R76 to R78) -/

/-- The phase list of an EXCHANGE row (R410). -/
def loadList (m : Chip) (par : List Nat) : List (List Nat) × Option (Nat × Got) × Chip :=
  let n := bitsN (nth par 2) 27 16
  let r := loadBytes m (parDa par 6) (32 * n) true
  (groupsOf 8 n (bytesWords r.1), r.2)

/-- The block of an occurrence passes its check; es is the phase list. -/
def blockOk (m : Chip) (w par : List Nat) (es : List (List Nat)) : Bool :=
  match rowKind w with
  | 1 => slotOk m w par
  | 2 => recvOk m par
  | 3 => exchFieldsOk m par && exchListOk m par es
  | 5 => rowClass w != 5 || possOk par
  | 8 => signalOk m par
  | _ => true

/-- The owning unit loads the row and checks its block (R75); one record for a bad line, one count for a bad block. -/
def armRow (m : Chip) (k : Nat) (r : TtRow) : Chip :=
  let a := readParam m r.w
  let exch := rowKind r.w == 3 && a.2.1.isNone && exchFieldsOk m a.1
  let l := if exch then loadList a.2.2 a.1 else ([], none, a.2.2)
  let bad := a.2.1.isSome || l.2.1.isSome || !blockOk l.2.2 r.w a.1 l.1
  let m1 := setRow l.2.2 k (some { r with st := .armed, par := a.1, list := if l.2.1.isSome then [] else l.1, bad := bad })
  let m2 := paramRecord (paramRecord m1 r a.2.1) r l.2.1
  if bad then bump m2 TT_BADPARAM_CTR 1 else m2

/-- One of Mioto's rows gives way to software's windows (R68): a JOURNAL occurrence is skipped, any other moves by epochs, a REFRESH by periods. -/
def displace (m : Chip) (k : Nat) (r : TtRow) : Chip :=
  if rowKind r.w = 7 then bump (endOccurrence m k r false) TWIN_INCOMPLETE_CTR 1
  else
    let step := if rowKind r.w = 4 then 16384 else 2 ^ 20
    setRow m k (some { r with start := fitStart 4096 m r (r.start + step) step })

/-- ROW_ARM (R68, R75, R77, R78). -/
def doRowArm (k : Nat) (m : Chip) : Chip :=
  match rowAt m k with
  | none => m
  | some r =>
    if r.mioto && miotoBlocked m r r.start then displace m k r
    else if !fon m TT_CTRL_ARM then skipOccurrence m k r
    else armRow m k r

/-- Meaning of ROW_ARM. -/
def execRowArm (row : Nat) (s : State) : Host.Outcome State Fault Refusal := runIf s (fun m => (rowAt m row).any (armDueAt m)) (doRowArm row)

/-! ### Contributions -/

/-- A part of a contribution: its ports ascending, its first source and destination lines, its destination and its lines. -/
structure Part where
  ports : List Nat
  src : Nat
  dst : Nat
  dest : Nat
  lines : Nat
  deriving DecidableEq, Repr

/-- The parts that a SLOT or EXCHANGE occurrence sends on ports, in order. -/
def parts (r : TtRow) : List Part :=
  if rowKind r.w = 1 then [⟨parPorts r.par, parDa r.par 4 / 128, parDa r.par 6 / 128, nth r.par 7 / 65536, nth r.par 3 / 128⟩]
  else (r.list.filter (fun e => !(entPorts e).isEmpty)).map (fun e =>
    ⟨entPorts e, (parDa r.par 4 + entFirst e * exchBlock r.par) / 128, entDst e / 128, entDest e, entLines r.par e⟩)

/-- The places among a part's ports that lie on base die d. -/
def diePlaces (p : Part) (d : Nat) : List Nat := (List.range p.ports.length).filter (fun j => portDie (nth p.ports j) == d)

/-- Lines of a part that die d sends. -/
def dieLines (p : Part) (d : Nat) : Nat := (diePlaces p d).foldl (fun a j => a + portLines p.lines p.ports.length j) 0

/-- The k-th line that die d sends, counted over the parts: its part, its index in the part, the parts before. -/
def nthLine (d : Nat) : List Part → List Part → Nat → Option (Part × Nat × List Part)
  | _, [], _ => none
  | before, p :: r, k =>
    if k < dieLines p d then
      let ps := diePlaces p d
      some (p, k / ps.length * p.ports.length + nth ps (k % ps.length), before)
    else nthLine d (before ++ [p]) r (k - dieLines p d)

/-- Lines of earlier parts on a port. -/
def linesBefore (before : List Part) (port_ : Nat) : Nat :=
  before.foldl (fun a p => match p.ports.findIdx? (· == port_) with
    | some j => a + portLines p.lines p.ports.length j
    | none => a) 0

/-- The window of row r can carry line number n of a port: the link is ACTIVE and n lies below its capacity (R88, R98, R503). -/
def portCarries (m : Chip) (r : TtRow) (port_ n : Nat) : Bool := linkActive m port_ && decide (n < rowLen r.w * unitBytes m port_ / 128)

/-- Every line of the occurrence has left. -/
def allSent (r : TtRow) : Bool := [0, 1].all (fun d => decide ((parts r).foldl (fun a p => a + dieLines p d) 0 ≤ nth r.sent d))

/-- Some row names this one as its spill row. -/
def spillOf (m : Chip) (r : TtRow) : List (Nat × TtRow) :=
  (softRows m).filter (fun e => rowTag e.2.w == rowSpill r.w && rowSpill r.w != 0)

/-- OMIT applies to a void contribution of the occurrence: by its LATE, for want of a spill row, or in the spill slot itself (R94, R95). -/
def omits (r : TtRow) : Bool := rowLate r.w == 1 || rowSpill r.w == 0 || r.late

/-- This module leaves its own part out of its own receive windows that contain the opening and have the same OP (R95). -/
def leaveOwn (m : Chip) (r : TtRow) : Chip :=
  (softRows m).foldl (fun c e =>
    if rowKind e.2.w == 2 && e.2.st != .pending && !e.2.bad && parOp e.2.par == parOp r.par && decide (e.2.start ≤ r.start) && decide (r.start < rowEnd e.2)
    then modRow c e.1 (fun x => { x with selfOut := true }) else c) m

/-- Under NEXT the own part of a template's receive window waits, as the contribution does, for the close of its spill window (R94, R95). -/
def deferOwn (m : Chip) (r : TtRow) : Chip :=
  (softRows m).foldl (fun c e =>
    if rowKind e.2.w == 2 && e.2.own.isSome && e.2.st == .active && parOp e.2.par == parOp r.par && decide (e.2.start ≤ r.start) && decide (r.start < rowEnd e.2)
    then (spillOf c e.2).foldl (fun x q => modRow x q.1 (fun y => { y with own := e.2.own })) (modRow c e.1 (fun x => { x with own := none })) else c) m

/-- A void marker on one port (R518). -/
def voidMarker (m : Chip) (port_ dest line : Nat) : Chip :=
  if linkActive m port_ then bump (sendVc m port_ 0 (mkFlit m 1 0 7 0 dest line 0 [])) TT_VOID_CTR 1 else m

/-- The far module of a port, for a marker whose list is unreadable. -/
def farModule (m : Chip) (p : Nat) : Nat := ((farEnd m p).map (·.1)).getD m.twin.twin

/-- The contribution is void: markers on every port, and the late policy (R93 to R95, R98, R412). -/
def voidRow (m : Chip) (k : Nat) (r : TtRow) : Chip :=
  let ps := parts r
  let m1 := if ps = [] then (parPorts r.par).foldl (fun c p => voidMarker c p (farModule c p) 0) m
    else ps.foldl (fun c p => p.ports.foldl (fun c q => voidMarker c q p.dest p.dst) c) m
  let m2 := modRow m1 k (fun x => { x with void := true })
  if omits r then leaveOwn m2 r else (spillOf m2 r).foldl (fun c e => modRow c e.1 (fun x => { x with late := true })) (deferOwn m2 r)

/-- The ready check of an opening (R93, R825): the word is at least READY_VALUE. -/
def readyNow (m : Chip) (k : Nat) (r : TtRow) : Bool × Chip :=
  if !deviceReady m (parReady r.par) 4 then (false, flipRange m (parReady r.par) 4)
  else
    let q := loadWord m (parReady r.par) true
    match q.2.1 with
    | some (ln, g) => (false, if r.polled then q.2.2 else recFate (modRow q.2.2 k (fun x => { x with polled := true })) 5 (sideOf (ln * 128)) (ownRowTag r) 0 ln g)
    | none => (decide (parValue r.par ≤ q.1), q.2.2)

/-- Copy an entry that has no ports within the buffer, through ingress 5 (R411). A bad line is written poisoned. -/
def selfCopy (r : TtRow) (m : Chip) (e : List Nat) : Chip :=
  (List.range (entLines r.par e)).foldl (fun c i =>
    let g := readExit c ((parDa r.par 4 + entFirst e * exchBlock r.par) / 128 + i) false
    let l : Line := if g.1.fate = .good then ⟨g.1.ln.data, g.1.ln.wb, false, []⟩ else poisonLine g.1.ln.data
    let c1 := if g.1.fate = .good then g.2 else recFate g.2 5 (sideOf (parDa r.par 4)) (ownRowTag r) 0 ((parDa r.par 4 + entFirst e * exchBlock r.par) / 128 + i) g.1
    (writeLine c1 (entDst e / 128 + i) l false).2) m

/-- A SLOT or EXCHANGE window opens (R93, R374, R410). A template's spill row sends only a late contribution. -/
def sendOpen (k : Nat) (r : TtRow) (m : Chip) : Chip :=
  if r.lateOnly && !r.late then modRow m k (fun x => { x with void := true, counted := true })
  else if r.bad then voidRow m k r
  else
    let q := readyNow m k r
    if q.1 then (r.list.filter (fun e => (entPorts e).isEmpty)).foldl (selfCopy r) q.2 else voidRow q.2 k r

/-- Meaning of SLOT_WINDOW_OPEN. -/
def execSlotWindowOpen (row : Nat) (s : State) : Host.Outcome State Fault Refusal :=
  runIf s (fun m => rowDue m row [1] .armed (·.start)) (fun m => openRow m row (sendOpen row))

/-- Meaning of EXCHANGE_WINDOW_OPEN. -/
def execExchangeWindowOpen (row : Nat) (s : State) : Host.Outcome State Fault Refusal :=
  runIf s (fun m => rowDue m row [3] .armed (·.start)) (fun m => openRow m row (sendOpen row))

/-- Meaning of RECV_WINDOW_OPEN (R71, R544): the window stands open with its entries free. -/
def execRecvWindowOpen (row : Nat) (s : State) : Host.Outcome State Fault Refusal :=
  runIf s (fun m => rowDue m row [2] .armed (·.start)) (fun m => openRow m row (fun _ c => modRow c row (fun x => { x with srcs := [] })))

/-- The status bits that tell of an ACTIVE possession of a row's resource: of each port, or of a stack (R471, R509). -/
def possBits (r : TtRow) (v : Nat) (m : Chip) : Chip :=
  (rowClaims r.w r.par).foldl (fun c u => if u.1 = 2 then fset c (LNKp_STAT_POSSESSION u.2) v else if u.1 = 1 then fset c (HBMs_STAT_TRAINING u.2) v else c) m

/-- Meaning of POSSESSION_WINDOW_OPEN (R90): the calibration of the resource may run until the window ends. -/
def execPossessionWindowOpen (row : Nat) (s : State) : Host.Outcome State Fault Refusal :=
  runIf s (fun m => rowDue m row [5] .armed (·.start)) (fun m => openRow m row (fun r c => possBits r 1 c))

/-- A SIGNAL row's atomic on its word, with release (R421). -/
def signalFire (r : TtRow) (m : Chip) : Chip :=
  if r.bad then m
  else
    let da := sigDa r.par
    let q := atomicAt m (da / 128) (if parOp r.par = 0 then 9 else if parOp r.par = 1 then 0 else 5) 4 (da % 128) (nth r.par 2) 0
    noteFail q.2.2 m (ownRowTag r) true da q.1

/-- Meaning of SIGNAL_ROW_FIRE (R421). -/
def execSignalRowFire (row : Nat) (s : State) : Host.Outcome State Fault Refusal :=
  runIf s (fun m => rowDue m row [8] .armed (·.start)) (fun m => openRow m row signalFire)

/-! ### Despatch (R375 to R377) -/

/-- Lines of a part on their way to a flit: the part, the place of the first among its lines, and the data and waybill of each. -/
structure Run where
  part : Part
  first : Nat
  lines : List (List Byte × Nat)
  deriving DecidableEq, Repr

/-- Read one line of a part: a bad line leaves poisoned, with the complement of its waybill (R376, R745). -/
def readOut (r : TtRow) (d : Nat) (p : Part) (i : Nat) (m : Chip) : (List Byte × Nat) × Chip :=
  let g := readExit m (p.src + i) false
  if g.1.fate = .good then ((g.1.ln.data, g.1.ln.wb), g.2)
  else ((g.1.ln.data, 2 ^ 32 - 1 - crc32c g.1.ln.data),
    recFate (if g.1.fate = .waybill then bump g.2 CON_WBILL_CTR 1 else g.2) 5 d (ownRowTag r) 0 (p.src + i) g.1)

/-- Lines of a part that goes out on one port, and whose addresses follow one another, share a flit. -/
def packRun (x : Run) (l : List Run) : List Run :=
  match l with
  | y :: t => if x.part = y.part ∧ x.part.ports.length = 1 ∧ y.first = x.first + x.lines.length then ⟨x.part, x.first, x.lines ++ y.lines⟩ :: t else x :: l
  | [] => [x]

/-- A DATA flit of lines (R518), on the port of R375. -/
def sendRun (r : TtRow) (m : Chip) (x : Run) : Chip :=
  let one := decide (rowKind r.w = 1)
  sendVc m (nth x.part.ports (x.first % x.part.ports.length)) 0 (mkFlit m 1 x.lines.length (if one then parOp r.par else 0) (if one then parType r.par else 0)
    x.part.dest (x.part.dst + x.first) 0 (x.lines.flatMap (·.1) ++ x.lines.flatMap (fun l => leBytes 4 l.2)))

/-- Read up to n of die d's next lines, and whether the window can no longer carry the line that follows (R98). A line of HOST bias waits for its flip (R598), and
one of a stack at level 3 for the stack (R455). -/
def takeLines : Nat → Nat → Nat → Chip → List Run × Bool × Chip
  | 0, _, _, m => ([], false, m)
  | n + 1, k, d, m =>
    match rowAt m k with
    | none => ([], false, m)
    | some r =>
      if r.void then ([], false, m)
      else match nthLine d [] (parts r) (nth r.sent d) with
        | none => ([], false, m)
        | some (p, i, before) =>
          let port_ := nth p.ports (i % p.ports.length)
          if !deviceReady m ((p.src + i) * 128) 128 then ([], false, flipRange m ((p.src + i) * 128) 128)
          else if stackHeld m (p.src + i) then ([], false, m)
          else if portCarries m r port_ (linesBefore before port_ + i / p.ports.length) then
            let g := readOut r d p i m
            let t := takeLines n k d (modRow g.2 k (fun x => { x with sent := modAt x.sent d (· + 1) }))
            (⟨p, i, [g.1]⟩ :: t.1, t.2)
          else ([], true, m)

/-- Send up to n of die d's next lines. A line that the window can no longer carry makes the contribution void (R98). -/
def sendLines (n k d : Nat) (m : Chip) : Chip :=
  match rowAt m k with
  | none => m
  | some r =>
    let t := takeLines n k d m
    let m1 := (t.1.foldr packRun []).foldl (sendRun r) t.2.2
    if t.2.1 then voidRow m1 k ((rowAt m1 k).getD r) else m1

/-- A window of Despatch is ACTIVE with lines to send. -/
def despatching (m : Chip) (k : Nat) : Bool :=
  (rowAt m k).any (fun r => (rowKind r.w == 1 || rowKind r.w == 3) && r.st == .active && !r.void && decide (now m < rowEnd r))

/-! ### The end of a window -/

/-- The wagons that Despatch made of an occurrence: one for each 32 lines that a base die sent (R330). -/
def wagonsSent (r : TtRow) : Nat := (nth r.sent 0 + 31) / 32 + (nth r.sent 1 + 31) / 32

/-- A SLOT or EXCHANGE window ends: what is still unsent makes it void (R98), and its wagons are retired (R331, R374). -/
def sendEnd (m : Chip) (k : Nat) (r : TtRow) : Chip := bump (if r.void || allSent r then m else voidRow m k r) CON_WAGON_CTR (wagonsSent r)

/-- Requests of a receive window are still to be settled. -/
def windowBusy (m : Chip) (k : Nat) : Bool := m.reqs.any (fun q => match q.who with
  | .window row _ => row == k
  | _ => false)

/-- The bytes that make a source of the window whole: BYTES, or a template's share (R547). -/
def wholeBytes (r : TtRow) : Nat := if r.share = 0 then nth r.par 4 else r.share

/-- A source arrived whole. -/
def whole (r : TtRow) (s : Source) : Bool := !s.void && decide (wholeBytes r ≤ s.bytes)

/-- Poison every line into which a source that did not arrive whole was reduced (R547). -/
def poisonParts (r : TtRow) (m : Chip) : Chip :=
  if parOp r.par = 0 then m
  else ((r.srcs.filter (fun s => !whole r s)).flatMap (·.das)).eraseDups.foldl (fun c ln =>
    let g := readLine c ln false
    putLine g.2 ln (poisonLine g.1.ln.data)) m

/-- The completion record of R74 and whether the window is deferred to its spill row. -/
def recvRecord (m : Chip) (r : TtRow) : List Nat × Bool :=
  let n := nth r.par 1
  let got := (r.srcs.filter (whole r)).length
  let voids := r.srcs.filter (·.void)
  let missing := n - got - voids.length
  let short := voids.length + missing
  let defer := decide (short ≠ 0) && !omits r
  let omitted := if defer then b2n r.selfOut else short + b2n r.selfOut
  let known := (if defer then [] else voids.map (·.module)) ++ (if r.selfOut then [selfNum m] else [])
  let first := known.foldl min 2048
  let status := if defer then 2 else if omitted = 0 then 0 else 1
  ([status * 65536 + rowTag r.w, r.run, got * 65536 + voids.length, missing * 65536 + omitted, if first = 2048 then 0 else 2048 + first] ++ lohi (now m) ++ [0], defer)

/-- A template's own part joins the result at the close, unless it was left out (R95). -/
def ownPart (r : TtRow) (m : Chip) : Chip :=
  match r.own with
  | none => m
  | some (src, dst, n) =>
    if r.selfOut then m
    else (List.range (n / 128)).foldl (fun c i =>
      let g := readExit c (src / 128 + i) false
      let l : Line := if g.1.fate = .good then ⟨g.1.ln.data, g.1.ln.wb, false, []⟩ else poisonLine g.1.ln.data
      if parOp r.par = 0 then (writeLine g.2 (dst / 128 + i) l false).2 else (reduceAt g.2 (dst / 128 + i) (parOp r.par) (parType r.par) l).2) m

/-- A round of placements: every line is read before any is written. A bad line is placed poisoned. -/
def placeRound (m : Chip) (mv : List (Nat × Nat × Nat)) : Chip :=
  let ls := mv.flatMap (fun (q : Nat × Nat × Nat) => (List.range (q.2.2 / 128)).map (fun i => (q.1 / 128 + i, q.2.1 / 128 + i)))
  let rd := ls.foldl (fun (a : List (Nat × Line) × Chip) (q : Nat × Nat) =>
    let g := readExit a.2 q.1 false
    ((q.2, if g.1.fate = .good then ⟨g.1.ln.data, g.1.ln.wb, false, []⟩ else poisonLine g.1.ln.data) :: a.1, g.2)) ([], m)
  rd.1.foldl (fun c (q : Nat × Line) => (writeLine c q.1 q.2 false).2) rd.2

/-- The close of a receive window (R74, R94 to R97, R547). -/
def recvClose (k : Nat) (m : Chip) : Chip :=
  match rowAt m k with
  | none => m
  | some r =>
    if r.bad then endOccurrence m k r true
    else
      let rec_ := recvRecord m r
      let m1 := r.moves.foldl placeRound (ownPart r (poisonParts r m))
      let m2 := incWord (mioStore m1 (some (ownRowTag r)) (parDa r.par 5) (wordBytes rec_.1)) (ownRowTag r) (parDa r.par 7)
      let m3 := if rec_.2 then (spillOf m2 r).foldl (fun c e => modRow c e.1 (fun x => { x with late := true })) m2 else m2
      endOccurrence m3 k r true

/-- Meaning of RECV_WINDOW_CLOSE. -/
def execRecvWindowClose (row : Nat) (s : State) : Host.Outcome State Fault Refusal :=
  runIf s (fun m => rowDue m row [2] .active rowEnd && !windowBusy m row) (recvClose row)

/-- A void contribution under OMIT, not counted yet, whose window is open and which was void for its ready word (R96). -/
def lateWatched (m : Chip) (r : TtRow) : Bool :=
  (rowKind r.w == 1 || rowKind r.w == 3) && r.st == .active && r.void && omits r && !r.counted && !r.bad && r.sent == [0, 0] && decide (now m < rowEnd r)

/-- LATE_READY_OMIT (R96): counted once when the ready word reaches READY_VALUE before the close. -/
def doLateReadyOmit (k : Nat) (m : Chip) : Chip :=
  match rowAt m k with
  | none => m
  | some r =>
    let q := readyNow m k r
    if q.1 then modRow (bump q.2 TT_OMIT_CTR 1) k (fun x => { x with counted := true }) else q.2

/-- Meaning of LATE_READY_OMIT. -/
def execLateReadyOmit (row : Nat) (s : State) : Host.Outcome State Fault Refusal :=
  runIf s (fun m => (rowAt m row).any (lateWatched m)) (doLateReadyOmit row)

end Sys2Proof.Machine
end

