-- ==== Sys2Proof/Machine/Lanes.lean ====
section
/-! DEFINITION. Fervin lanes and the state of a link: bring-up, lane failure and width, eye scans, loops, service, and the LNK commands (R472 to R509,
R529 to R532, R828). -/

namespace Sys2Proof.Machine

/-- n frame times of port p in ns (R472). -/
def frameNs (m : Chip) (p n : Nat) : Nat := n * 22224 / (28 * 2 ^ fget m (LNKp_STAT_RATE p))

/-- The state of lane n of port p (R484). -/
def laneSt (m : Chip) (p n : Nat) : Nat := bitsN (csr m (LNKp_LSTATE_STATE0 p).off) (4 * n + 3) (4 * n)

/-- Set the state of lane n. -/
def setLane (m : Chip) (p n st : Nat) : Chip :=
  setCsr m (LNKp_LSTATE_STATE0 p).off (setBitsN (csr m (LNKp_LSTATE_STATE0 p).off) (4 * n + 3) (4 * n) st)

/-- Set the state of each lane of a mask. -/
def setLanes (m : Chip) (p mask st : Nat) : Chip := ((List.range 4).filter (tb mask)).foldl (fun c n => setLane c p n st) m

/-- Change the kept part of lane n. -/
def modLane (m : Chip) (p n : Nat) (f : Lane → Lane) : Chip := modPort m p (fun q => { q with lanes := modAt q.lanes n f })

/-- The lanes in one of some states, as a mask. -/
def lanesIn (m : Chip) (p : Nat) (sts : List Nat) : Nat := maskN 4 (fun n => sts.contains (laneSt m p n))

/-- The lanes that pass: READY here, and received by the far end (R488). -/
def passing (m : Chip) (p : Nat) : Nat := lanesIn m p [5] &&& (port m p).farOk

/-- The lanes in use. -/
def lanesUsed (m : Chip) (p : Nat) : Nat := fget m (LNKp_STAT_LANES p)

/-- The lanes that both ends choose from those that pass (R488). -/
def selectLanes (pass : Nat) : Nat :=
  if pass % 16 = 15 then 15
  else if pass % 4 = 3 then 3
  else if pass / 4 % 4 = 3 then 12
  else match (List.range 4).find? (tb pass) with
    | some n => 2 ^ n
    | none => 0

/-- WIDTH of a lane mask. -/
def widthCode (mask : Nat) : Nat :=
  match popN 4 mask with
  | 0 => 0
  | 1 => 1
  | 2 => 2
  | _ => 3

/-- Take a lane set into use. -/
def useLanes (m : Chip) (p mask : Nat) : Chip := fset (fset m (LNKp_STAT_LANES p) mask) (LNKp_STAT_WIDTH p) (widthCode mask)

/-- Set the link state of a port. -/
def setLink (m : Chip) (p st : Nat) : Chip := fset m (LNKp_LINK_STATE p) st

/-- The port carries traffic or is about to: its link is past TRAIN. -/
def linkLive (m : Chip) (p : Nat) : Bool := decide (3 ≤ linkSt m p) && decide (linkSt m p ≤ 6)

/-- A change of width after bring-up: the status bit and the notice (R504). -/
def widthNote (m : Chip) (p old : Nat) : Chip :=
  notice (fset m (LNKp_STAT_WIDTH_CHANGE p) 1) 3 [p + old * 256 + lanesUsed m p * 4096 + fget m (LNKp_STAT_RATE p) * 65536]

/-! ### Bring-up -/

/-- Start the lanes that LANE_EN allows from SIGNAL at 28 Gb/s (R484, R489). -/
def trainLanes (m : Chip) (p : Nat) : Chip :=
  let en := fget m (LNKp_CFG_LANE_EN p)
  let m1 := fset (useLanes (setLanes (setLanes m p 15 7) p en 1) p 0) (LNKp_STAT_RATE p) 0
  modPort m1 p (fun q => { q with
    passed := [0, 0, 0, 0], tryRate := 0, verify := false, bringT0 := m.ns, restore := 0, stream := [], synced := false, rx := [], txRest := [], goodFrames := 0 })

/-- Bring a port up (R529): the link enters DETECT. -/
def bringUp (m : Chip) (p : Nat) : Chip :=
  modPort (setLink (trainLanes (fset (recMark m) (LNKp_STAT_OOS_DONE p) 0) p) p 1) p (fun q => { q with retrained := false, oos := false })

/-- The limit of CDR, FRAME and ADAPT at a rate, in ns (R486), or of the verification of R489. -/
def laneLimit (m : Chip) (p : Nat) : Nat := if (port m p).verify then 500000 else 500000 * 2 ^ fget m (LNKp_STAT_RATE p)

/-- Answer every request outstanding on a port with an error to its requester (R531, R532, R537). -/
def failOut (m : Chip) (p : Nat) (f : OutReq → Bool) : Chip :=
  let os := (port m p).out.filter f
  os.foldl (fun c o => answer c { id := 0, kind := o.kind, line := (o.peer + 1) * 2 ^ 41 + o.line, who := o.who } .address zeroLine 0)
    (modPort m p (fun q => { q with out := q.out.filter (fun o => !f o) }))

/-- The entries of routed flits that wait on port p go free at the ports they came in by. -/
def freeHeld (m : Chip) (p : Nat) : Chip :=
  (port m p).held.foldl (fun c h => match h with
    | some i => modPort c i (fun q => { q with owed := modAt q.owed 3 (· + 1) })
    | none => c) m

/-- A link-live port's far end is forgotten. -/
def linkClear (m : Chip) (p : Nat) : Chip :=
  modPort (fset (freeHeld m p) (LNKp_LINK_FAR_VALID p) 0) p (fun q => { q with
    replay := [], replayDue := none, nakAt := none, vcq := [[], [], [], []], ctl := [], held := [], avail := [0, 0, 0, 0], reclaim := false, reclaimSent := false,
    stream := [], synced := false, rx := [], txRest := [], retrained := false, goodFrames := 0, farOk := 0 })

/-- The link goes DOWN (R529, R531): requests end, buffers are discarded, the lanes power down but those that FAILED, or enter TEST for a port going out of service, and
its command completes (R507). -/
def linkDown (m : Chip) (p : Nat) : Chip :=
  let q := port m p
  let m1 := setLink (useLanes (linkClear (failOut m p (fun _ => true)) p) p 0) p 0
  let m2 := if q.oos then fset (setLanes m1 p 15 8) (LNKp_STAT_OOS_DONE p) 1 else setLanes m1 p (15 - lanesIn m1 p [7]) 0
  match q.svcMb with
  | none => m2
  | some i =>
    let m3 := modPort m2 p (fun q => { q with svcMb := none })
    if q.oos then respond m3 i 0 [fget m3 (LNKp_STAT_RATE p)] else fail (fset (modPort (setLanes (recMark m3) p 15 8) p (fun q => { q with oos := true })) (LNKp_STAT_OOS_DONE p) 1) i 0x0701

/-- Every lane in use of a link has failed (R531): an ACTIVE link returns to TRAIN and keeps its buffers; one not yet ACTIVE goes DOWN; a draining one
ends with its time. -/
def linkLost (m : Chip) (p : Nat) : Chip :=
  if linkSt m p = 5 then modPort (setLink (trainLanes m p) p 2) p (fun q => { q with retrained := true, replayDue := none })
  else if linkSt m p = 3 ∨ linkSt m p = 4 then linkDown m p
  else m

/-! ### Eye scans under LNK.EYE -/

/-- The response of an eye scan (R492): the lanes completed, the edges of each eye, MARGIN_OK by LNKp_EYE_LIM. -/
def eyeWords (m : Chip) (p : Nat) (e : EyeScan) : List Nat :=
  let nrz := fget m (LNKp_STAT_RATE p) = 0
  let x (n k : Nat) : Nat := tget 0 (16 * n + k) e.found
  let word (n eye : Nat) : Nat :=
    if !tb e.lanes n || (nrz && eye != 1) then 0
    else unsgn 8 (-Int.ofNat (x n (4 * eye))) * 2 ^ 24 + x n (4 * eye + 1) * 2 ^ 16 + unsgn 8 (-Int.ofNat (x n (4 * eye + 2))) * 2 ^ 8 + x n (4 * eye + 3)
  let ok (n eye : Nat) : Bool := (nrz && eye != 1) ||
    (decide (fget m (LNKp_EYE_LIM_WIDTH_MIN p) ≤ x n (4 * eye) + x n (4 * eye + 1)) && decide (fget m (LNKp_EYE_LIM_HEIGHT_MIN p) ≤ x n (4 * eye + 2) + x n (4 * eye + 3)))
  let margin := maskN 4 (fun n => tb e.lanes n && (List.range 3).all (ok n))
  (e.lanes * 16 + margin) :: (List.range 12).map (fun i => word (i / 3) (i % 3)) ++ [elapsed m (cmdT0 m e.m)]

/-- The possession row that Mioto posted for the scan of a port. -/
def eyeRow (m : Chip) (p : Nat) : Option (Nat × TtRow) :=
  (rowsOf m).find? (fun e => e.2.mioto && rowKind e.2.w == 5 && rowSub e.2.w == 2 && rowIndex e.2.w == p)

/-- The scan ends: its row retires unless it is ACTIVE, and the command completes. -/
def eyeEnd (m : Chip) (p : Nat) (e : EyeScan) : Chip :=
  let m1 := modPort m p (fun q => { q with eye := none })
  let m2 := match eyeRow m1 p with
    | some (k, r) => if r.st = .active then m1 else retire m1 k r
    | none => m1
  respond m2 e.m 0 (eyeWords m2 p e)

/-- A scanned lane fails or is dropped (R494). -/
def eyeDrop (m : Chip) (p mask : Nat) : Chip :=
  match (port m p).eye with
  | none => m
  | some e =>
    let e1 := { e with lanes := maskN 4 (fun n => tb e.lanes n && !tb mask n) }
    if e1.lanes = 0 then eyeEnd m p e1 else modPort m p (fun q => { q with eye := some e1 })

/-- Post the possession for the next windows of a scan: subkind 2, RATE_PCT 75, 1,024 units, in the next epoch (R92). -/
def postEye (m : Chip) (p : Nat) : Chip := postMioto m (miotoWords 5 2 ((now m / 2 ^ 20 + 1) * 2 ^ 20 + 0x20000) 1024 0 1 75 1 p)

/-! ### Failure and width -/

/-- Lanes fail or are dropped (R500, R501, R504): their bits are set, both ends choose anew among the lanes that remain, and the port narrows or
goes down. -/
def lanesFail (m : Chip) (p mask : Nat) : Chip :=
  let old := lanesUsed m p
  let bad := maskN 4 (fun n => tb mask n && tb old n)
  let m1 := setLanes m p mask 7
  if bad = 0 then m1
  else
    let m2 := fset m1 (LNKp_STAT_LANE_FAIL p) (fget m1 (LNKp_STAT_LANE_FAIL p) ||| bad)
    let new := selectLanes (passing m2 p)
    let m3 := widthNote (useLanes m2 p new) p old
    let m4 := eyeDrop m3 p bad
    if new = 0 then linkLost m4 p else bump m4 (LNKp_DROP_CTR p) 1

/-- A lane of LNK.LANE is decided: it failed, or it is READY and the far end receives it. -/
def laneDecided (m : Chip) (p n : Nat) : Bool := laneSt m p n == 7 || (laneSt m p n == 5 && tb (port m p).farOk n)

/-- The restoring of lanes ends once every named lane is decided (R504, R505): the port widens when that gives a larger set. -/
def restoreDone (m : Chip) (p : Nat) : Chip :=
  let q := port m p
  if q.restore = 0 || !((List.range 4).filter (tb q.restore)).all (laneDecided m p) then m
  else
    let old := lanesUsed m p
    let pass := maskN 4 (fun n => tb q.restore n && laneSt m p n == 5)
    let new := selectLanes (passing m p)
    let m1 := if popN 4 old < popN 4 new then widthNote (useLanes m p new) p old else m
    let m2 := modPort m1 p (fun q => { q with restore := 0, laneMb := none })
    match q.laneMb with
    | none => m2
    | some i =>
      let named := bitsN (nth (cmdPay m2 i) 0) 11 8
      if pass != 0 || (named &&& old) != 0 then respond m2 i 0 [lanesUsed m2 p] else fail m2 i 0x0703

/-- Train lanes of a port in traffic at its current rate (R504). -/
def restoreLanes (m : Chip) (p mask : Nat) : Chip :=
  let m1 := setLanes m p mask 2
  ((List.range 4).filter (tb mask)).foldl (fun c n => modLane c p n (fun l => { l with t0 := m.ns })) (modPort m1 p (fun q => { q with restore := q.restore ||| mask, farOk := maskN 4 (fun n => tb q.farOk n && !tb mask n) }))

/-! ### Lane events -/

/-- The lane exists. -/
def laneOk (p n : Nat) : Bool := decide (p < 36) && decide (n < 4)

/-- LANE_SIGNAL_DETECT (R484, R529). -/
def doLaneSignalDetect (p n : Nat) (m : Chip) : Chip :=
  let m1 := modLane (setLane m p n 2) p n (fun l => { l with t0 := m.ns })
  if linkSt m1 p = 1 then setLink m1 p 2 else m1

/-- Meaning of LANE_SIGNAL_DETECT. -/
def execLaneSignalDetect (port lane : Nat) (s : State) : Host.Outcome State Fault Refusal :=
  runIf s (fun m => laneOk port lane && laneSt m port lane == 1 && (linkSt m port == 1 || linkSt m port == 2)) (doLaneSignalDetect port lane)

/-- Meaning of LANE_CDR_LOCK (R484). A lane in STEP is at its new rate once its clock is locked. -/
def execLaneCdrLock (port lane : Nat) (s : State) : Host.Outcome State Fault Refusal :=
  runIf s (fun m => laneOk port lane && (laneSt m port lane == 2 || laneSt m port lane == 6)) (fun m => setLane m port lane 3)

/-- LANE_FRAME_LOCK (R476, R487): the skew to the earliest lane in ns and the LANE field received. -/
def doLaneFrameLock (p n skew field : Nat) (m : Chip) : Chip :=
  if skew ≤ 16 ∧ field = n then setLane m p n 4 else restoreDone (setLane m p n 7) p

/-- Meaning of LANE_FRAME_LOCK. -/
def execLaneFrameLock (port lane skew field : Nat) (s : State) : Host.Outcome State Fault Refusal :=
  runIf s (fun m => laneOk port lane && laneSt m port lane == 3) (doLaneFrameLock port lane skew field)

/-- Meaning of LANE_ADAPT_PASS (R485): over 2^24 symbols, no uncorrectable codeword and at most 128 corrected symbols. -/
def execLaneAdaptPass (port lane corrected uncorr : Nat) (s : State) : Host.Outcome State Fault Refusal :=
  runIf s (fun m => laneOk port lane && laneSt m port lane == 4 && uncorr == 0 && decide (corrected ≤ 128)) (fun m => restoreDone (setLane m port lane 5) port)

/-- The lane's time for CDR, FRAME and ADAPT, or for the far end's RX_OK while it is restored, is over. -/
def laneLate (m : Chip) (p n : Nat) : Bool :=
  ([2, 3, 4, 6].contains (laneSt m p n) || (laneSt m p n == 5 && tb (port m p).restore n)) && decide ((((port m p).lanes.getD n {}).t0) + laneLimit m p ≤ m.ns)

/-- Meaning of LANE_ADAPT_TIMEOUT (R486). -/
def execLaneAdaptTimeout (port lane : Nat) (s : State) : Host.Outcome State Fault Refusal :=
  runIf s (fun m => laneOk port lane && laneLate m port lane) (fun m => restoreDone (setLane m port lane 7) port)

/-! ### Rates (R488, R489) -/

/-- The rate and lanes of the largest capacity among the rates tried, a tie to the greater width (R489). passed holds one more than the passing lanes. -/
def bestRate (passed : List Nat) : Nat × Nat :=
  (List.range 4).foldl (fun b r =>
    let l := selectLanes (nth passed r - 1)
    let c := 2 ^ r * popN 4 l
    let c0 := 2 ^ b.1 * popN 4 b.2
    if c0 < c ∨ (c0 = c ∧ popN 4 b.2 < popN 4 l) then (r, l) else b) (0, 0)

/-- Bring-up has chosen its rate and lanes: the link enters LOCK (R489, R529). -/
def settleRate (m : Chip) (p lanes_ : Nat) : Chip :=
  modPort (setLink (useLanes m p lanes_) p 3) p (fun q => { q with lockT0 := m.ns, goodFrames := 0, marked := false, stream := [], synced := false, verify := false })

/-- LANE_RATE_STEP: the far end's RX_OK, its RATE_REQ in 16 frames, and its MAX_RATE. -/
def doLaneRateStep (p farOk farReq farMax : Nat) (m : Chip) : Chip :=
  let q := port m p
  let pass := lanesIn m p [5] &&& farOk
  let m0 := modPort m p (fun q => { q with farOk := farOk })
  if q.verify then (let l := selectLanes pass; if l = 0 then linkDown m0 p else settleRate m0 p l)
  else
    let passed := setAt q.passed q.tryRate (pass + 1)
    let m1 := modPort m0 p (fun q => { q with passed := passed })
    if pass != 0 && decide (q.tryRate < min (fget m (LNKp_CFG_MAX_RATE p)) farMax) then
      if farReq = q.tryRate + 1 then
        let m2 := fset (setLanes (setLanes m1 p (15 - pass) 7) p pass 6) (LNKp_STAT_RATE p) (q.tryRate + 1)
        ((List.range 4).filter (tb pass)).foldl (fun c n => modLane c p n (fun l => { l with t0 := m.ns })) (modPort m2 p (fun q => { q with tryRate := q.tryRate + 1 }))
      else m
    else
      let b := bestRate passed
      if b.2 = 0 then m1
      else if b.1 < q.tryRate then
        let m2 := fset (fset (setLanes m1 p b.2 4) (LNKp_STAT_RATE p) b.1) (LNKp_STAT_RATE_FALLBACK p) 1
        ((List.range 4).filter (tb b.2)).foldl (fun c n => modLane c p n (fun l => { l with t0 := m.ns })) (modPort m2 p (fun q => { q with verify := true }))
      else settleRate m1 p b.2

/-- Meaning of LANE_RATE_STEP: every lane of a link in TRAIN is READY or FAILED. -/
def execLaneRateStep (port farOk farReq farMax : Nat) (s : State) : Host.Outcome State Fault Refusal :=
  runIf s (fun m => decide (port < 36) && linkSt m port == 2 && lanesIn m port [5, 7] == 15) (doLaneRateStep port (farOk % 16) farReq (min 3 farMax))

/-- Meaning of PORT_BRINGUP_TIMEOUT (R484, R490): no lane has passed at 28 Gb/s within 100 ms; the lanes are FAILED. -/
def execPortBringupTimeout (port_ : Nat) (s : State) : Host.Outcome State Fault Refusal :=
  runIf s (fun m => decide (port_ < 36) && (linkSt m port_ == 1 || linkSt m port_ == 2) && (port m port_).tryRate == 0 && decide ((port m port_).bringT0 + 100000000 ≤ m.ns))
    (fun m => linkDown (setLanes m port_ 15 7) port_)

/-! ### Failure events -/

/-- A cause of R500 holds for a lane in use, or for one that is READY beside them (R484, R488): 0 signal loss for 1,000 lt, 1 four frames without a comma in place, 2 too many uncorrectable codewords in
the epoch, 3 the far end's RX_OK bit 0. -/
def failCause (m : Chip) (p n cause : Nat) : Bool :=
  (tb (lanesUsed m p) n || laneSt m p n == 5) && (match cause with
    | 0 => true
    | 1 => true
    | 2 => decide (fget m LNK_CTRL_UE_MAX < ((port m p).lanes.getD n {}).ueEpoch)
    | 3 => !tb (port m p).farOk n
    | _ => false)

/-- Meaning of LANE_FAIL (R500, R501, R504). -/
def execLaneFail (port lane cause : Nat) (s : State) : Host.Outcome State Fault Refusal :=
  runIf s (fun m => laneOk port lane && failCause m port lane cause)
    (fun m => lanesFail (if cause = 1 then bump m (LNKp_LOCK_CTR port) 1 else m) port (2 ^ lane))

/-! ### Expert eye points (R495) -/

/-- A possession of a subkind is ACTIVE on the port. -/
def possOn (m : Chip) (p : Nat) (subs : List Nat) : Bool :=
  (rowsOf m).any (fun e => rowKind e.2.w == 5 && e.2.st == .active && subs.contains (rowSub e.2.w) && (rowClaims e.2.w e.2.par).contains (2, p))

/-- The EYE counter of a lane. -/
def eyeCtr (p n : Nat) : Nat := LNKp_Ln_EYE_CTR p n

/-- EYE_START_WRITE: the point's settings, and a measurement or REFUSED. -/
def doEyeStartWrite (p v : Nat) (m : Chip) : Chip :=
  let m1 := writeFields m (LNKp_EYE_CTRL_START p).off v
  if possOn m1 p [1, 2] then
    let m2 := ((List.range 4).filter (tb (fget m1 (LNKp_EYE_CTRL_LANES p)))).foldl (fun c n => setCtr c (eyeCtr p n) 0) m1
    fset (fset m2 (LNKp_EYE_STAT_BUSY p) 1) (LNKp_EYE_STAT_DONE p) 0
  else fset m1 (LNKp_EYE_STAT_REFUSED p) 1

/-- Meaning of EYE_START_WRITE. -/
def execEyeStartWrite (port : Nat) (val : Word) (s : State) : Host.Outcome State Fault Refusal :=
  runIf s (fun _ => decide (port < 36) && tb val.toNat 31) (doEyeStartWrite port val.toNat)

/-- The edges of an eye scan in order: the middle eye only at NRZ. -/
def nextEdge (nrz : Bool) (e : Nat) : Nat := if nrz && e == 7 then 12 else e + 1

/-- The points of an edge: 5 along PHASE, 7 along VOLT. -/
def edgePoints (e : Nat) : Nat := if e % 4 < 2 then 5 else 7

/-- A point of LNK.EYE is measured on every scanned lane: the bisection moves outward past a point without errors (R492). -/
def scanPoint (m : Chip) (p : Nat) (e : EyeScan) (errs : List Nat) : Chip :=
  let n := edgePoints e.edge
  let half := 2 ^ (n - 1 - e.step)
  let at1 := (List.range 4).map (fun i => if nth errs i = 0 then nth e.at_ i + half else nth e.at_ i)
  if e.step + 1 < n then modPort m p (fun q => { q with eye := some { e with step := e.step + 1, at_ := at1 } })
  else
    let found := ((List.range 4).filter (tb e.lanes)).foldl (fun t i => tput 0 (16 * i + e.edge) (nth at1 i) t) e.found
    let e1 : EyeScan := { e with edge := nextEdge (fget m (LNKp_STAT_RATE p) == 0) e.edge, step := 0, at_ := [0, 0, 0, 0], found := found }
    if e1.edge = 12 then eyeEnd m p e1 else modPort m p (fun q => { q with eye := some e1 })

/-- EYE_POINT_DONE: the errors of each lane at the point. Software's point comes before LNK.EYE's. -/
def doEyePointDone (p : Nat) (errs : List Nat) (m : Chip) : Chip :=
  if fon m (LNKp_EYE_STAT_BUSY p) then
    let ls := fget m (LNKp_EYE_CTRL_LANES p)
    let m1 := ((List.range 4).filter (tb ls)).foldl (fun c n => bump c (eyeCtr p n) (nth errs n)) m
    fset (fset m1 (LNKp_EYE_STAT_BUSY p) 0) (LNKp_EYE_STAT_DONE p) ls
  else match (port m p).eye with
    | some e => if possOn m p [2] then scanPoint m p e errs else m
    | none => m

/-- Meaning of EYE_POINT_DONE. -/
def execEyePointDone (port : Nat) (errs : List Nat) (s : State) : Host.Outcome State Fault Refusal :=
  runIf s (fun _ => decide (port < 36)) (doEyePointDone port errs)

/-- A point still running at the end of its window stops; its counters keep a count that the spec does not give (R495). -/
def eyeStop (m : Chip) (p : Nat) : Chip :=
  if fon m (LNKp_EYE_STAT_BUSY p) then
    ((List.range 4).filter (tb (fget m (LNKp_EYE_CTRL_LANES p)))).foldl (fun c n => let d := draw c; bump d.2 (eyeCtr p n) (d.1 % 2 ^ 31)) (fset m (LNKp_EYE_STAT_BUSY p) 0)
  else m

/-! ### Loops (R496, R497) -/

/-- Meaning of FAR_LOOP_EXIT (R497): 16 frame times without LOOP_REQ. -/
def execFarLoopExit (port_ : Nat) (s : State) : Host.Outcome State Fault Refusal :=
  runIf s (fun m => decide (port_ < 36) && (port m port_).farLoop && decide ((port m port_).loopT0 + frameNs m port_ 16 ≤ m.ns))
    (fun m => modPort m port_ (fun q => { q with farLoop := false }))

/-! ### Service -/

/-- Begin to take a port out of service (R507, R529): an ACTIVE link drains, any other goes DOWN at once. -/
def portOut (m : Chip) (p : Nat) (mb : Option Nat) : Chip :=
  let m1 := modPort (recMark m) p (fun q => { q with oos := true, svcMb := mb })
  if linkActive m1 p then modPort (setLink m1 p 6) p (fun q => { q with drainT0 := m.ns })
  else if linkSt m1 p = 6 then m1
  else linkDown m1 p

/-- Software's rows that are not FREE claim the port (R507). -/
def portClaimed (m : Chip) (p : Nat) : Bool := (softRows m).any (fun e => (rowClaims e.2.w e.2.par).contains (2, p))

/-- TWIN_VALID of the size table (R704). -/
def twinValid (m : Chip) : Bool := tb (csr m 0x440) 11

/-- LNK.SERVICE (R506 to R508). -/
def doLnkService (i : Nat) (pay : List Nat) (m : Chip) : Chip :=
  let w := nth pay 0
  let p := bitsN w 5 0
  let now_ := [fget m (LNKp_STAT_RATE p) + fget m (LNKp_STAT_WIDTH p) * 16 + lanesUsed m p * 256]
  if bitsN w 31 28 = 0 then
    if (port m p).oos then respond m i 0 now_
    else if portClaimed m p || (isTwinPort p && twinValid m) then fail m i 1
    else portOut (cmdOn m i []) p (some i)
  else if 5 ≤ linkSt m p then respond m i 0 now_
  else if linkSt m p ≠ 0 then modPort (cmdOn m i []) p (fun q => { q with svcMb := some i })
  else modPort (bringUp (cmdOn m i []) p) p (fun q => { q with svcMb := some i })

/-- Meaning of LNK_SERVICE. -/
def execLnkService (i : Nat) (s : State) : Host.Outcome State Fault Refusal := runCmd s i 0x0701 (doLnkService i)

/-! ### Writes of LNKp_CFG -/

/-- What a write of LNKp_CFG brings: the fields, then lanes dropped or restored (R505), a loop on a port in traffic (R499), and service (R507, R508). -/
def cfgWrite (p v : Nat) (m : Chip) : Chip :=
  let old := csr m (LNKp_CFG_OOS p).off
  let m1 := writeFields m (LNKp_CFG_OOS p).off v
  let en := fget m1 (LNKp_CFG_LANE_EN p)
  let off := bitsN old 19 16 - (bitsN old 19 16 &&& en)
  let on := en - (bitsN old 19 16 &&& en)
  let m2 := if off ≠ 0 then lanesFail m1 p (maskN 4 (fun n => tb off n && laneSt m1 p n != 0 && laneSt m1 p n != 8)) else m1
  let m3 := if on ≠ 0 ∧ linkActive m2 p then restoreLanes m2 p (maskN 4 (fun n => tb on n && !tb (lanesUsed m2 p) n)) else m2
  let loop := fget m3 (LNKp_CFG_LOOP p)
  let m4 := if loop ≠ bitsN old 10 8 ∧ loop ≠ 0 ∧ linkLive m3 p then lanesFail m3 p (lanesUsed m3 p) else m3
  if fon m4 (LNKp_CFG_OOS p) && !tb old 31 then (if (port m4 p).oos then m4 else portOut m4 p none)
  else if !fon m4 (LNKp_CFG_OOS p) && tb old 31 then (if linkSt m4 p = 0 then bringUp m4 p else m4)
  else m4

/-- Meaning of LANE_EN_WRITE (R500, R505): a write of LNKp_CFG that changes LANE_EN. -/
def execLaneEnWrite (port : Nat) (val : Word) (s : State) : Host.Outcome State Fault Refusal :=
  runIf s (fun m => decide (port < 36) && bitsN val.toNat 19 16 != fget m (LNKp_CFG_LANE_EN port)) (cfgWrite port val.toNat)

/-- Meaning of LOOP_SELECT_WRITE (R499): a write that changes LOOP. -/
def execLoopSelectWrite (port : Nat) (val : Word) (s : State) : Host.Outcome State Fault Refusal :=
  runIf s (fun m => decide (port < 36) && bitsN val.toNat 10 8 != fget m (LNKp_CFG_LOOP port)) (cfgWrite port val.toNat)

/-- Meaning of LNK_OOS_WRITE (R508): a write that changes OOS. -/
def execLnkOosWrite (port : Nat) (val : Word) (s : State) : Host.Outcome State Fault Refusal :=
  runIf s (fun m => decide (port < 36) && bitN val.toNat 31 != fget m (LNKp_CFG_OOS port)) (cfgWrite port val.toNat)

/-! ### The other commands -/

/-- The port is out of service or down. -/
def portDown (m : Chip) (p : Nat) : Bool := (port m p).oos || fget m (LNKp_STAT_WIDTH p) == 0

/-- LNK.EYE (R492, R493). It waits while Mioto's 128 rows are in use (R68). -/
def doLnkEye (i : Nat) (pay : List Nat) (m : Chip) : Chip :=
  let p := bitsN (nth pay 0) 5 0
  let named := bitsN (nth pay 0) 11 8
  let lanes_ := if named = 0 then lanesUsed m p else named &&& lanesUsed m p
  if portDown m p then fail m i 0x0701
  else if (port m p).eye.isSome then fail m i 1
  else if 128 ≤ miotoRows m then m
  else
    let e : EyeScan := { m := i, lanes := lanes_, edge := if fget m (LNKp_STAT_RATE p) = 0 then 4 else 0 }
    let m1 := cmdOn m i []
    if lanes_ = 0 then eyeEnd m1 p e else postEye (modPort m1 p (fun q => { q with eye := some e })) p

/-- Meaning of LNK_EYE. -/
def execLnkEye (i : Nat) (s : State) : Host.Outcome State Fault Refusal := runCmd s i 0x0703 (doLnkEye i)

/-- A PATTERN that R496 allows with LOOP. -/
def loopAllows (loop pattern : Nat) : Bool := if loop = 2 then pattern == 2 else decide (pattern ≤ 2)

/-- LNK.LOOP (R498, R499): loop, pattern, the test's time and its start are kept until the test ends. -/
def doLnkLoop (i : Nat) (pay : List Nat) (m : Chip) : Chip :=
  let w := nth pay 0
  let p := bitsN w 5 0
  let t := if nth pay 1 = 0 then 24 else nth pay 1
  if !loopAllows (bitsN w 31 28) (bitsN w 27 26) then fail m i 2
  else if !fon m (LNKp_STAT_OOS_DONE p) || (port m p).loop.isSome then fail m i 1
  else modPort (cmdOn m i []) p (fun q => { q with loop := some (i, bitsN w 31 28 * 4 + bitsN w 27 26, t, m.ns) })

/-- Meaning of LNK_LOOP. -/
def execLnkLoop (i : Nat) (s : State) : Host.Outcome State Fault Refusal := runCmd s i 0x0704 (doLnkLoop i)

/-- The loop test of a port is over: its time has passed, or no lane has locked in the far-end loop's 1 ms. -/
def loopOver (m : Chip) (p locked : Nat) : Bool :=
  (port m p).loop.any (fun l => decide (l.2.2.2 + 2 ^ l.2.2.1 ≤ m.ns) || (l.2.1 / 4 == 3 && locked == 0 && decide (l.2.2.2 + 1000000 ≤ m.ns)))

/-- LOOP_TEST_END (R498, R499): what the test found; the lanes' counters count it too (R496). -/
def doLoopTestEnd (p locked : Nat) (errs : List Nat) (compared uncorr : Nat) (m : Chip) : Chip :=
  match (port m p).loop with
  | none => m
  | some (i, lp, _, t0) =>
    let m1 := modPort m p (fun q => { q with loop := none })
    if lp / 4 = 3 ∧ locked % 16 = 0 then fail m1 i 0x0702
    else
      let named := bitsN (nth (cmdPay m1 i) 0) 11 8
      let ls := if named = 0 then 15 else named
      let e (n : Nat) : Nat := if tb ls n then nth errs n else 0
      let m2 := (List.range 4).foldl (fun c n => bump c (if lp % 4 = 2 then LNKp_Ln_CE_CTR p n else LNKp_Ln_BERR_CTR p n) (e n)) m1
      let m3 := if lp % 4 = 2 then bump m2 (LNKp_Ln_UE_CTR p (((List.range 4).find? (tb ls)).getD 0)) uncorr else m2
      respond m3 i 0 ([locked &&& ls] ++ (List.range 4).map (fun n => sat (2 ^ 32 - 1) (e n)) ++ lohi compared ++ [if lp % 4 = 2 then sat (2 ^ 32 - 1) uncorr else 0, elapsed m3 t0])

/-- Meaning of LOOP_TEST_END. -/
def execLoopTestEnd (port locked : Nat) (errs : List Nat) (compared uncorr : Nat) (s : State) : Host.Outcome State Fault Refusal :=
  runIf s (fun m => decide (port < 36) && loopOver m port locked) (doLoopTestEnd port locked errs compared uncorr)

/-- LNK.LANE (R504, R505): the named lanes that are not in use train at the port's rate. -/
def doLnkLane (i : Nat) (pay : List Nat) (m : Chip) : Chip :=
  let p := bitsN (nth pay 0) 5 0
  let todo := maskN 4 (fun n => tb (bitsN (nth pay 0) 11 8) n && !tb (lanesUsed m p) n)
  if (port m p).eye.isSome then fail m i 1
  else if portDown m p then fail m i 0x0701
  else if todo = 0 then respond m i 0 [lanesUsed m p]
  else restoreLanes (modPort (cmdOn m i []) p (fun q => { q with laneMb := some i })) p todo

/-- Meaning of LNK_LANE. -/
def execLnkLane (i : Nat) (s : State) : Host.Outcome State Fault Refusal := runCmd s i 0x0702 (doLnkLane i)

/-- LNK.STATUS (R509): LNKp_STAT, LNKp_LSTATE and the CE and UE pairs of lanes 0 to 3. -/
def doLnkStatus (i : Nat) (pay : List Nat) (m : Chip) : Chip :=
  let p := bitsN (nth pay 0) 5 0
  let pair (o : Nat) : List Nat := [csr m o, csr m (o + 4)]
  respond m i 0 ([csr m (LNKp_STAT_RATE p).off, csr m (LNKp_LSTATE_STATE0 p).off] ++ (List.range 4).flatMap (fun n => pair (LNKp_Ln_CE_CTR p n) ++ pair (LNKp_Ln_UE_CTR p n)))

/-- Meaning of LNK_STATUS. -/
def execLnkStatus (i : Nat) (s : State) : Host.Outcome State Fault Refusal := runCmd s i 0x0705 (doLnkStatus i)

/-! ### Wiring (R530) -/

/-- The far end of a port is none that R511, R513 or R514 give. -/
def wiringBad (m : Chip) (p : Nat) : Bool :=
  if !((port m p).farMv && (moduleNum m).isSome && fon m LNK_TOPO_VALID) then false
  else if isTwinPort p then fget m (LNKp_LINK_FAR_PORT p) != p
  else farEnd m p != some (fget m (LNKp_LINK_FAR_MODULE p), fget m (LNKp_LINK_FAR_PORT p))

/-- Check a port's wiring: a failure sets WIRING and takes the link DOWN. -/
def checkWiring (m : Chip) (p : Nat) : Chip := if wiringBad m p then linkDown (fset m (LNKp_LINK_WIRING p) 1) p else m

/-- The station and dimensions of LNK.TOPO do not agree (R512). -/
def topoBad (w : Nat) : Bool :=
  decide (2 ^ bitsN w 17 16 ≤ bitsN w 2 0) || decide (2 ^ bitsN w 19 18 ≤ bitsN w 5 3) || decide (2 ^ bitsN w 21 20 ≤ bitsN w 7 6)

/-- LNK.TOPO (R513, R530, R553). The re-check of the ports is made with the new module number; the size table follows at the end of the step. -/
def doLnkTopo (i : Nat) (pay : List Nat) (m : Chip) : Chip :=
  let w := nth pay 0
  if topoBad w then fail m i 2
  else if fon m TT_CTRL_ARM then fail m i 1
  else
    let m1 := setCsr m LNK_TOPO_VALID.off (2 ^ 31 + bitsN w 21 16 * 65536 + slotNum m * 256 + bitsN w 7 0)
    let m2 := setCsr m1 0x43C (2048 + bitsN w 7 0 * 8 + slotNum m)
    let m3 := setCsr (((List.range 36).filter (linkActive m2)).foldl checkWiring m2) 0x43C (csr m 0x43C)
    respond m3 i 0 [bitsN w 7 0 * 8 + slotNum m]

/-- Meaning of LNK_TOPO. -/
def execLnkTopo (i : Nat) (s : State) : Host.Outcome State Fault Refusal := runCmd s i 0x0706 (doLnkTopo i)

end Sys2Proof.Machine
end

