-- ==== Sys2Proof/Machine/Rings.lean ====
section
/-! DEFINITION. Rings: doorbells, the reading of entries, the status slot, the message gap, and SYS.RING (R612 to R614, R635 to R646, R658). -/

namespace Sys2Proof.Machine

/-- KIND of ring n: 1 launch, 2 and 3 consist, 4 and 5 points, 6 timetable events, 7 notices. -/
def ringKind (m : Chip) (n : Nat) : Nat := fget m (MB_RINGn_CFG_KIND n)

/-- ENTRIES of ring n. -/
def ringEnts (m : Chip) (n : Nat) : Nat := fget m (MB_RINGn_CFG_ENTRIES n)

/-- L of a submission ring, C of an event ring. -/
def ringL (m : Chip) (n : Nat) : Nat := fget m (MB_RINGn_L_L n)

/-- Ring n exists and is a submission ring. -/
def isSubmission (m : Chip) (n : Nat) : Bool := (ring m n).isSome && decide (1 ≤ ringKind m n) && decide (ringKind m n ≤ 5)

/-- Ring n exists and is an event ring. -/
def isEvent (m : Chip) (n : Nat) : Bool := (ring m n).isSome && decide (6 ≤ ringKind m n)

/-- HOST_DOORBELL_WRITE (R613, R614): a new target farther than the one held; it also starts a stopped reader again. -/
def doHostDoorbellWrite (n d : Nat) (m : Chip) : Chip :=
  match ring m n with
  | none => bump m HOST_DB_BAD_CTR 1
  | some r =>
    let x := dist32 d (ringL m n)
    if 1 ≤ x ∧ x ≤ ringEnts m n then
      if (r.target.map (fun t => dist32 t (ringL m n))).getD 0 ≤ x then
        setRing m n (some { r with target := some d, waiting := if r.stopped then false else r.waiting, stopped := false, badSeen := false })
      else m
    else bump m HOST_DB_BAD_CTR 1

/-- Meaning of HOST_DOORBELL_WRITE. -/
def execHostDoorbellWrite (n : Nat) (val : Word) (s : State) : Host.Outcome State Fault Refusal :=
  runIf s (fun m => decide (n < 64) && !isEvent m n) (doHostDoorbellWrite n val.toNat)

/-- EVENT_RING_DOORBELL (R642): C moves on by at most the records written since. -/
def doEventRingDoorbell (n d : Nat) (m : Chip) : Chip :=
  match ring m n with
  | none => m
  | some r =>
    let x := dist32 d (ringL m n)
    if 1 ≤ x ∧ x ≤ dist32 (r.next + 2 ^ 32 - 1) (ringL m n) then fset m (MB_RINGn_L_L n) d else bump m HOST_DB_BAD_CTR 1

/-- Meaning of EVENT_RING_DOORBELL. -/
def execEventRingDoorbell (n : Nat) (val : Word) (s : State) : Host.Outcome State Fault Refusal :=
  runIf s (fun m => decide (n < 64) && isEvent m n) (doEventRingDoorbell n val.toNat)

/-! ### Reading entries -/

/-- The ring's reader has an entry to read. -/
def ringWants (m : Chip) (n : Nat) : Bool :=
  isSubmission m n && m.twin.handover == 0 && (ring m n).any (fun r => !r.stopped && r.target.any (fun t => t != ringL m n))

/-- The SEQ that the next entry should hold. -/
def ringSeq (m : Chip) (n : Nat) : Nat := (ringL m n + 1) % 2 ^ 32

/-- The unit that finds an error of a line: 2 and the slice, or 4 and the stack. -/
def homeSource (da : Nat) : Nat × Nat := if isHbm da then (4, stackOf da) else (2, gSlice (halfOf da) da)

/-- What a read of the next entry finds: its words when SEQ and waybill match, and the first line that came uncorrectable or poisoned (R614). -/
def ringPeek (m : Chip) (n : Nat) : Option (List Nat) × Option (Nat × Got) × Chip :=
  match ring m n with
  | none => (none, none, m)
  | some r =>
    let slot := slotBytes m n
    let a := r.base + (ringSeq m n % ringEnts m n) * slot
    let x := loadBytes m a slot false
    let ws := bytesWords x.1
    let k := slot / 4
    let bad := x.2.1.filter (fun b => b.2.fate == .uncorrectable || b.2.fate == .poisoned)
    let addr := x.2.1.any (fun b => b.2.fate == .address)
    if bad.isNone && !addr && nth ws (k - 2) == ringSeq m n && nth ws (k - 1) == crcWords (ws.take (k - 2)) then (some ws, none, x.2.2) else (none, bad, x.2.2)

/-- The entry is stale: the reader waits from the first stale read on; the first bad read of it makes a record (R614). -/
def ringStale (m : Chip) (n : Nat) (bad : Option (Nat × Got)) : Chip :=
  match ring m n with
  | none => m
  | some r =>
    let m1 := setRing m n (some { r with waiting := true, t0 := if r.waiting then r.t0 else m.ns, badSeen := r.badSeen || bad.isSome })
    match bad with
    | some (ln, g) => if r.badSeen then m1 else
        let u := homeSource (ln * 128)
        recFate m1 u.1 u.2 (8, n, 0) 0 ln g
    | none => m1

/-- The entry is accepted: L moves on (R638). -/
def ringAccept (m : Chip) (n : Nat) : Chip :=
  let q := ringSeq m n
  let m1 := fset m (MB_RINGn_L_L n) q
  modRing m1 n (fun r => { r with waiting := false, badSeen := false, live := r.live + 1, target := if r.target = some q then none else r.target })

/-- Read the next entry and, when it is good and the taker agrees, accept it and hand its words over with its SEQ. The range must be in DEVICE bias. -/
def ringRead (m : Chip) (n : Nat) (agree : List Nat → Bool) (take : Nat → List Nat → Chip → Chip) : Chip :=
  match ring m n with
  | none => m
  | some r =>
    let a := r.base + (ringSeq m n % ringEnts m n) * slotBytes m n
    if !deviceReady m a (slotBytes m n) then flipRange m a (slotBytes m n)
    else
      let p := ringPeek m n
      match p.1 with
      | some ws => if agree ws then take (ringSeq m n) ws (ringAccept p.2.2 n) else m
      | none => ringStale p.2.2 n p.2.1

/-! ### A late entry -/

/-- The entry has been stale for 64,000 lt. -/
def ringLate (m : Chip) (n : Nat) : Bool := (ring m n).any (fun r => r.waiting && !r.stopped && decide (r.t0 + 64000 ≤ m.ns))

/-- DOORBELL_AHEAD (R614, R641): the status slot, the count, and reading stops. -/
def doDoorbellAhead (n : Nat) (m : Chip) : Chip :=
  match ring m n with
  | none => m
  | some r =>
    let q := { r with ahead := sat (2 ^ 32 - 1) (r.ahead + 1), update := (r.update + 1) % 2 ^ 32, stopped := true, waiting := false }
    let ws := [ringL m n, 7 * 65536, q.ahead, ringSeq m n] ++ List.replicate 10 0 ++ [q.update]
    let m1 := mioStore (bump (setRing m n (some q)) HOST_DB_AHEAD_CTR 1) (some ownMioto) (r.compl + ringEnts m n * slotBytes m n) (wordBytes (ws ++ [crcWords ws]))
    let path := fget m (MB_RINGn_CFG_PATH n)
    msix (emptyRa m1 (if fon m (MB_RINGn_CFG_FAST n) then (if path < 2 then [path] else []) else [0, 1])) (fget m (MB_RINGn_CFG_VECTOR n))

/-- Meaning of DOORBELL_AHEAD. -/
def execDoorbellAhead (n : Nat) (s : State) : Host.Outcome State Fault Refusal := runIf s (fun m => ringLate m n) (doDoorbellAhead n)

/-- The gap of a vector has ended with a message to send (R658). -/
def gapOver (m : Chip) (v : Nat) : Bool :=
  tget false v m.host.msiGap && (tget none v m.host.msiLast).all (fun t => decide (t + 2 ^ fget m MB_CTRL_IRQ_LOG2 ≤ m.ns))

/-- MSIX_GAP_EXPIRE (R658). -/
def doMsixGapExpire (v : Nat) (m : Chip) : Chip := msix { m with host := { m.host with msiGap := tput false v false m.host.msiGap } } v

/-- Meaning of MSIX_GAP_EXPIRE. -/
def execMsixGapExpire (vector : Nat) (s : State) : Host.Outcome State Fault Refusal := runIf s (fun m => gapOver m vector) (doMsixGapExpire vector)

/-! ### SYS.RING -/

/-- The areas of a ring: start and bytes (R636). -/
def ringAreas (m : Chip) (n : Nat) : List (Nat × Nat) :=
  match ring m n with
  | none => []
  | some r =>
    let b := ringEnts m n * slotBytes m n
    if 6 ≤ ringKind m n then [(r.base, b)] else [(r.base, b), (r.compl, b + 64)]

/-- An area lies wholly in one stack or one buffer half that takes accesses (R646). -/
def areaOk (m : Chip) (a n : Nat) : Bool :=
  a % 128 == 0 && rangeAll (fun da => !badAddress m da false) a n &&
  ((isHbm a && isHbm (a + n - 1) && stackOf a == stackOf (a + n - 1)) || (isBuf a && isBuf (a + n - 1) && halfOf a == halfOf (a + n - 1)))

/-- The fatal record that the first NOTICE ring takes as an ERROR notice (R759). -/
def fatalPost (m : Chip) : Chip :=
  if m.start.fatalPosted || (eventRing m 7).isNone then m
  else
    let w (k : Nat) : Nat := csr m (0xD0080 + 4 * k)
    putEvent { m with start := { m.start with fatalPosted := true } } 7 ([2 ^ 24, 0, w 10, w 11] ++ (List.range 10).map w)

/-- SYS.RING (R645, R646). -/
def doSysRing (i : Nat) (p : List Nat) (m : Chip) : Chip :=
  let w0 := nth p 0
  let n := bitsN w0 5 0
  if bitsN w0 31 28 = 1 then
    match ring m n with
    | none => respond m i 0 [0]
    | some r =>
      if r.live ≠ 0 then fail m i 1
      else respond (setCsr (setCsr (setRing m n none) (MB_RINGn_CFG_KIND n).off (regReset (MB_RINGn_CFG_KIND n).off)) (MB_RINGn_L_L n).off (regReset (MB_RINGn_L_L n).off)) i 0 [0]
  else
    let kind := bitsN w0 27 24
    let ents := nth p 1
    let slot := if kind = 1 then 128 else 64
    let base := nth p 2 + 2 ^ 32 * nth p 3
    let compl := nth p 4 + 2 ^ 32 * nth p 5
    let sub := kind ≤ 5
    let mine := if sub then [(base, ents * slot), (compl, ents * slot + 64)] else [(base, ents * slot)]
    let others := (List.range 64).flatMap (ringAreas m)
    if (ring m n).isSome ∨ (6 ≤ kind ∧ (eventRing m kind).isSome) then fail m i 0x0102
    else if !mine.all (fun a => areaOk m a.1 a.2) || mine.any (fun a => others.any (fun b => rangesMeet a.1 a.2 b.1 b.2)) ||
        (sub && rangesMeet base (ents * slot) compl (ents * slot + 64)) then fail m i 0x0101
    else
      let cfg := kind * 2 ^ 28 + bitN w0 23 * 2 ^ 27 + bitsN w0 22 21 * 2 ^ 25 + bitsN w0 20 14 * 2 ^ 18 + ents
      let first := nth p 6
      let m1 := setCsr (setCsr m (MB_RINGn_CFG_KIND n).off cfg) (MB_RINGn_L_L n).off ((first + 2 ^ 32 - 1) % 2 ^ 32)
      respond (fatalPost (setRing m1 n (some { base := base, compl := compl, next := first }))) i 0 [if sub then ents * slot + 64 else 0]

/-- Meaning of SYS.RING. -/
def execSysRing (i : Nat) (s : State) : Host.Outcome State Fault Refusal := runCmd s i 0x0104 (doSysRing i)

end Sys2Proof.Machine
end

