-- ==== Sys2Proof/Machine/Twin.lean ====
section
/-! DEFINITION. Twinning: states, regions, the journal's occurrences, heartbeats, declarations, takeover, the alias table, and the TWIN commands
(R702 to R739, R829). -/

namespace Sys2Proof.Machine

/-- Change the twinning state beside the registers. -/
def modTwin (m : Chip) (f : TwinState → TwinState) : Chip := { m with twin := f m.twin }

/-- TWIN_STAT.STATE (R704). -/
def twinSt (m : Chip) : Nat := fget m TWIN_STAT_STATE

/-- The offset of TWIN_J_LO. -/
def twinJOff : Nat := 0xC0008

/-- The journal point J. -/
def twinJ (m : Chip) : Nat := csr m twinJOff + 2 ^ 32 * csr m (twinJOff + 4)

/-- Set J. -/
def setJ (m : Chip) (j : Nat) : Chip := setCsr (setCsr m twinJOff j) (twinJOff + 4) (j / 2 ^ 32)

/-- A TWIN notice (R738). -/
def twinNote (m : Chip) (event module : Nat) : Chip := notice m 9 ([event * 2 ^ 28 + module] ++ lohi (twinJ m))

/-- The twin ports with an ACTIVE link to the twin. -/
def twinPorts (m : Chip) : List Nat := [17, 34].filter (fun p => linkActive m p && fget m (LNKp_LINK_FAR_MODULE p) == m.twin.twin)

/-- A twin-port message (R718): SUB and the other bits of word 0, then the other words. -/
def twinWords (sub w0 units : Nat) (ws : List Nat) : List Nat := fit (4 * units) 0 ((sub + w0) :: ws)

/-- Send a message on each ACTIVE twin port. -/
def twinSend (m : Chip) (ws : List Nat) : Chip := (twinPorts m).foldl (fun c p => sendCtl c p 9 ws) m

/-- Send a message once, on the lowest ACTIVE twin port. -/
def twinSendOne (m : Chip) (ws : List Nat) : Chip :=
  match twinPorts m with
  | p :: _ => sendCtl m p 9 ws
  | [] => m

/-- The module numbers of the system but this one (R512). -/
def otherModules (m : Chip) : List Nat :=
  (List.range 2048).filter (fun n => inSystem m (n / 8) && n != selfNum m)

/-- A routed twin message (R719) to a module by its own number. -/
def twinRouted (m : Chip) (dest msg role holder : Nat) : Chip :=
  let ws := [0x0A * 2 ^ 24 + msg * 2 ^ 16 + role, holder] ++ lohi (now m)
  if dest = selfNum m then m
  else match routePort m dest with
    | some p => sendVc m p 3 { (ctlFlit m 10 ws) with dest := dest }
    | none => bump m LNK_UNROUTE_CTR 1

/-- Send a routed twin message to every other module of the system. -/
def twinBroadcast (m : Chip) (msg role holder : Nat) : Chip := (otherModules m).foldl (fun c n => twinRouted c n msg role holder) m

/-! ### Rows of the journal (R710) -/

/-- The states in which a JOURNAL row stands posted. -/
def journalState (st : Nat) : Bool := [2, 3, 4, 5, 7].contains st

/-- Post or retire the JOURNAL row by the state. -/
def journalRows (m : Chip) : Chip :=
  let js := (rowsOf m).filter (fun e => rowKind e.2.w == 7)
  if journalState (twinSt m) then
    (if js = [] then postMioto m (miotoWords 7 0 ((now m / 2 ^ 20 + 1) * 2 ^ 20 + 0x40000) (fget m TWIN_JCFG_UNITS) 16384 0 0 0 0) else m)
  else js.foldl (fun c e => setRow c e.1 none) m

/-- Enter a twinning state. FENCED and RELEASED clear ARM (R722, R731). -/
def enterTwin (m : Chip) (st : Nat) : Chip :=
  let m1 := fset (recMark m) TWIN_STAT_STATE st
  let m2 := if st = 7 ∨ st = 6 then mioClearArm m1 else m1
  journalRows (if st = 3 ∨ st = 0 then modTwin m2 (fun t => { t with handover := 0 }) else m2)

/-- The pairing ends: no twin, no rows (R730). -/
def unpair (m : Chip) : Chip :=
  modTwin (enterTwin m 0) (fun t => { t with
    jSet := false, wait := none, occ := none, snap := [], imgLeft := [], keepers := [], peerState := 0, waitWarm := none, twinHolds := false, pairSeen := none, regionWait := [], refused := false, portMiss := 0, noQuorum := 0, jFrom := none, jCame := false, imgAck := [] })

/-! ### Regions (R705 to R708) -/

/-- The region table's entry k. -/
def region (m : Chip) (k : Nat) : Option Region := tget none k m.twin.regions

/-- Bytes of a region. -/
def regionBytes (r : Region) : Nat := r.units * 65536

/-- The source ranges of the own regions. -/
def ownSources (m : Chip) : List (Nat × Nat) := (List.range 16).filterMap (fun k => (region m k).map (fun r => (r.src, regionBytes r)))

/-- The keeper ranges that this module holds for its twin. -/
def keeperRanges (m : Chip) : List (Nat × Nat) := m.twin.keepers.filterMap (fun e => e.2.map (fun r => (r.1, r.2 * 65536)))

/-- The keeper control area, while paired or pairing. -/
def keepArea (m : Chip) : List (Nat × Nat) := if twinSt m = 0 then [] else [(m.twin.keepCtl, 0x40000)]

/-- The areas of every ring. -/
def allRingAreas (m : Chip) : List (Nat × Nat) := (List.range 64).flatMap (ringAreas m)

/-- A source or keeper range keeps R705. -/
def rangeR705 (m : Chip) (da n : Nat) : Bool := da % 65536 == 0 && decide (0 < n) && (scratchRange m da n || hbmRange m da n)

/-- A range meets one of several. -/
def meetsAny (da n : Nat) (rs : List (Nat × Nat)) : Bool := rs.any (fun r => rangesMeet da n r.1 r.2)

/-- The pages of a region as keys. -/
def regionPages (k : Nat) (r : Region) : List Nat := (List.range (r.units * 16)).map (fun i => k * 2 ^ 20 + i)

/-- Mark every page of some regions dirty. -/
def dirtyAll (m : Chip) (ks : List Nat) : Chip :=
  modTwin m (fun t => { t with dirty := (ks.flatMap (fun k => ((tget none k t.regions).map (regionPages k)).getD [])).foldl (fun d p => tput false p true d) t.dirty })

/-- Forget the dirty pages of a region. -/
def dropDirty (m : Chip) (k : Nat) : Chip := modTwin m (fun t => { t with dirty := t.dirty.filter (fun e => e.1 / 2 ^ 20 != k) })

/-- Own pages dirty. -/
def ownDirty (m : Chip) : Nat := (m.twin.dirty.filter (fun e => e.2 && decide (e.1 / 2 ^ 20 < 16))).length

/-- Put a region into the table, with every page dirty; or clear it. -/
def putRegion (m : Chip) (k : Nat) (r : Option Region) : Chip :=
  let m1 := dropDirty (modTwin m (fun t => { t with regions := tput none k r t.regions })) k
  dirtyAll m1 [k]

/-- The REGION message of a request: with CLEAR it names the region that goes. -/
def regionMsg (k : Nat) (clear : Bool) (r : Region) : List Nat := twinWords 6 (k * 2 ^ 8 + b2n clear * 2 ^ 12) 2 ([0] ++ lohi r.keep ++ [r.units])

/-! ### The journal's sender (R711 to R715) -/

/-- The control image of R711, 64 K words. -/
def controlImage (m : Chip) : List Byte :=
  let header := fit 32 0 ([1, m.twin.captures] ++ lohi (now m) ++ [selfNum m])
  let regs := (List.range 32).flatMap (fun k => match region m k with
    | some r => lohi r.src ++ lohi r.keep ++ [r.units, 1, 0, 0]
    | none => List.replicate 8 0)
  let segs := (List.range 64).map (fun k => csr m (HOST_SEGk_VALID k).off)
  let tt := fit 32 0 ([csr m LNK_TOPO_VALID.off, csr m TT_CTRL_ARM.off, csr m TT_HOLDOVER_LIMIT.off] ++ m.twin.lockWords)
  let a := fit 1024 0 (header ++ regs ++ segs ++ tt)
  let tbl := (List.range 4096).map (fun i => tget 0 i m.pts.table)
  let rows := (softRows m).flatMap (fun e => fit 8 0 e.2.w)
  wordBytes (fit 65536 0 (fit 8192 0 (a ++ tbl) ++ rows))

/-- The keys of dirty pages, ascending from the cursor and wrapping. -/
def snapFrom (m : Chip) : List Nat :=
  let ks := m.twin.dirty.filterMap (fun e => if e.2 then some e.1 else none)
  ks.filter (fun k => decide (m.twin.cursor ≤ k)) ++ ks.filter (fun k => decide (k < m.twin.cursor))

/-- An occurrence that left J unchanged is counted (R715). -/
def incomplete (m : Chip) : Chip := bump m TWIN_INCOMPLETE_CTR 1

/-- The start of a journal occurrence: the snapshot of the dirty pages, the image when it differs beyond its header from the last acknowledged one. -/
def journalOpen (r : TtRow) (m : Chip) : Chip :=
  let m0 := if m.twin.wait.any (fun w => w.2.1) then incomplete m else m
  let m1 := modTwin m0 (fun t => { t with captures := t.captures + 1 })
  let img := controlImage m1
  modTwin m1 (fun t => { t with
    occ := some r.start, snap := snapFrom m, dirty := [], img := img, imgLeft := if img.drop 128 = t.imgAck.drop 128 then [] else List.range 64,
    pagesSent := 0, wait := none, rxLines := 0, rxEnd := none })

/-- Meaning of JOURNAL_WINDOW_OPEN. -/
def execJournalWindowOpen (row : Nat) (s : State) : Host.Outcome State Fault Refusal :=
  runIf s (fun m => rowDue m row [7] .armed (·.start)) (fun m => openRow m row journalOpen)

/-- The port of a page whose bytes lie on base die d (R713): its own twin port, or the other while that is down. -/
def pagePort (m : Chip) (d : Nat) : Option Nat :=
  let a := if d = 0 then 17 else 34
  let b := 51 - a
  if (twinPorts m).contains a then some a else if (twinPorts m).contains b then some b else none

/-- The next page of the running occurrence: of the image (true, index), or of the snapshot (false, key), with the DA of its source and of its place. -/
def nextPage (m : Chip) : Option (Bool × Nat × Nat × Nat) :=
  match m.twin.imgLeft, m.twin.snap with
  | i :: _, _ => some (true, i, m.twin.keepCtl, m.twin.keepCtl + i * 4096)
  | [], k :: _ => match region m (k / 2 ^ 20) with
    | some r => some (false, k, r.src + k % 2 ^ 20 * 4096, r.keep + k % 2 ^ 20 * 4096)
    | none => some (false, k, 0, 0)
  | [], [] => none

/-- The lines of a page with their waybills: of the image, or of memory; a bad line leaves with the complement of its waybill and one record (R376, R745). -/
def pageLines (m : Chip) (img : Bool) (i src : Nat) : List Byte × List Byte × Chip :=
  (List.range 32).foldl (fun (a : List Byte × List Byte × Chip) j =>
    if img then
      let d := (a.2.2.twin.img.drop (i * 4096 + j * 128)).take 128
      (a.1 ++ d, a.2.1 ++ leBytes 4 (crc32c d), a.2.2)
    else
      let g := readExit a.2.2 (src / 128 + j) true
      if g.1.fate = .good then (a.1 ++ g.1.ln.data, a.2.1 ++ leBytes 4 g.1.ln.wb, g.2)
      else (a.1 ++ g.1.ln.data, a.2.1 ++ leBytes 4 (2 ^ 32 - 1 - crc32c g.1.ln.data), recFate g.2 5 (sideOf src) (6, 0, 0) 0 (src / 128 + j) g.1)) ([], [], m)

/-- Send the next page on base die d, when its port lies there and the window can still carry it (R712, R713). -/
def journalSend (k d : Nat) (m : Chip) : Chip :=
  match rowAt m k, nextPage m with
  | some r, some (img, i, src, dst) =>
    match pagePort m (sideOf src) with
    | some p =>
      if portDie p ≠ d ∨ rowLen r.w * unitBytes m p / 128 < nth r.sent d + 32 then m
      else if !img && !deviceReady m src 4096 then flipRange m src 4096
      else
        let b := pageLines m img i src
        let m1 := sendVc b.2.2 p 0 (mkFlit m 1 32 0 0 m.twin.twin (dst / 128) 0 (b.1 ++ b.2.1))
        let m2 := modRow (bump m1 TWIN_PAGES_CTR 1) k (fun x => { x with sent := modAt x.sent d (· + 32) })
        modTwin m2 (fun t => { t with pagesSent := t.pagesSent + 1, imgLeft := if img then t.imgLeft.drop 1 else t.imgLeft, snap := if img then t.snap else t.snap.drop 1 })
    | none => m
  | _, _ => m

/-- The end of an occurrence (R712): pages not sent are dirty again, the cursor moves to the first of them, and JEND goes to the twin. -/
def journalEnd (m : Chip) : Chip :=
  match m.twin.occ with
  | none => m
  | some start =>
    let full := m.twin.snap.isEmpty && m.twin.imgLeft.isEmpty
    let m1 := if full then m else incomplete m
    let m2 := twinSendOne m1 (twinWords 2 (b2n full * 16) 1 ([m.twin.pagesSent] ++ lohi start))
    modTwin m2 (fun t => { t with
      dirty := t.snap.foldl (fun d k => tput false k true d) t.dirty, cursor := t.snap.headD t.cursor, occ := none, snap := [], imgLeft := [],
      wait := some (start, full, if t.imgLeft.isEmpty then t.img else t.imgAck) })

/-! ### Taking over (R724) -/

/-- Entries 16 to 31 from the keeper control area: a source here is the twin's keeper range, its keeper the original source. -/
def fillHeld (m : Chip) : Chip :=
  let r := loadBytes m (m.twin.keepCtl + 128) 512 true
  let es := groupsOf 8 16 (bytesWords r.1)
  (es.zipIdx).foldl (fun (c : Chip) (e : List Nat × Nat) => putRegion c (16 + e.2)
    (if nth e.1 5 = 1 then some ⟨nth64 e.1 2 % 2 ^ 48, nth64 e.1 0 % 2 ^ 48, nth e.1 4⟩ else none)) r.2.2

/-- Take the twin's role. -/
def takeOver (m : Chip) : Chip :=
  let role := m.twin.twin
  let m1 := fillHeld (enterTwin (modTwin m (fun t => { t with waitWarm := none })) 5)
  let m2 := fset (fset (fset m1 TWIN_STAT_TAKEN 1) TWIN_HELD_MODULE role) TWIN_HELD_VALID 1
  let m3 := twinNote (twinBroadcast m2 2 role (selfNum m2)) 3 role
  let m4 := bump m3 TWIN_TAKE_CTR 1
  if nth m.twin.lockWords 0 = role ∧ m.twin.lockWords ≠ [] then fset m4 TT_CTRL_ROOT 1 else m4

/-- The module may declare: TWINNED or DEGRADED. -/
def mayDeclare (m : Chip) : Bool := twinSt m == 3 || twinSt m == 4

/-- The twin is RELEASED from now on: the occurrences that open later count for a return (R732). -/
def twinOut (m : Chip) : Chip := modTwin m (fun t => { t with peerState := 6, jFrom := some (now m), jCame := false })

/-- DEPART from the twin (R720). -/
def twinDepart (m : Chip) (reason : Nat) : Chip :=
  if !mayDeclare m then m
  else match reason with
    | 0 => if fon m TWIN_CTRL_HOSTLOSS then takeOver m else modTwin m (fun t => { t with waitWarm := some 0 })
    | 1 => takeOver m
    | 2 => modTwin m (fun t => { t with waitWarm := some 0 })
    | _ => twinOut (takeOver m)

/-! ### The epoch (R717, R720 to R722) -/

/-- Heartbeats of the epoch boundary. -/
def sendHeartbeats (m : Chip) : Chip :=
  if !journalState (twinSt m) then m
  else
    let ws := twinWords 1 (twinSt m * 16 + fget m TWIN_STAT_QUORUM_OK * 256) 2 ([0] ++ lohi (now m) ++ lohi (twinJ m))
    twinRouted (twinSend m ws) m.twin.twin 1 (selfNum m) (selfNum m)

/-- Missed epochs, the twin ports' silence and the wait of a declaration are counted. -/
def countMissed (m : Chip) : Chip :=
  let heard := m.twin.hbSeen || m.twin.routedSeen
  let m1 := if heard then fset m TWIN_STAT_MISSED 0 else bump (fset m TWIN_STAT_MISSED (sat 255 (fget m TWIN_STAT_MISSED + 1))) TWIN_MISS_CTR 1
  let m2 := fset m1 TWIN_STAT_ROUTED_OK (b2n m.twin.routedSeen)
  modTwin m2 (fun t => { t with hbSeen := false, routedSeen := false, portMiss := if t.hbSeen then 0 else if t.routedSeen then t.portMiss + 1 else t.portMiss,
                                waitWarm := if heard then none else t.waitWarm.map (· + 1) })

/-- The quorum's part of the epoch: FENCED after MISS epochs without it, and back (R722). -/
def fence (m : Chip) : Chip :=
  let ok := fon m TWIN_STAT_QUORUM_OK
  if twinSt m = 7 then
    if !ok then m
    else if m.twin.twinHolds then twinNote (enterTwin m 6) 4 (selfNum m)
    else modTwin (enterTwin m m.twin.former) (fun t => { t with noQuorum := 0 })
  else if !mayDeclare m then m
  else if ok then modTwin m (fun t => { t with noQuorum := 0 })
  else
    let m1 := modTwin m (fun t => { t with noQuorum := t.noQuorum + 1 })
    if fget m TWIN_CTRL_MISS ≤ m1.twin.noQuorum then twinNote (enterTwin (modTwin m1 (fun t => { t with former := twinSt m })) 7) 5 m.twin.twin else m1

/-- The declarations that time makes (R720, R721). -/
def declare (m : Chip) : Chip :=
  if !mayDeclare m then m
  else if m.twin.waitWarm.any (fun n => decide (fget m TWIN_CTRL_WARM_WAIT ≤ n)) then takeOver m
  else if m.twin.waitWarm.isNone && decide (fget m TWIN_CTRL_MISS ≤ fget m TWIN_STAT_MISSED) && fon m TWIN_STAT_QUORUM_OK then takeOver m
  else if twinSt m == 3 && decide (fget m TWIN_CTRL_MISS ≤ m.twin.portMiss) then twinNote (enterTwin m 4) 2 m.twin.twin
  else m

/-- LAG: the epochs since J, saturating (R715). -/
def setLag (m : Chip) : Chip := if m.twin.jSet then fset m TWIN_STAT_LAG (sat 255 ((now m - twinJ m) / 2 ^ 20)) else m

/-- The twinning part of an epoch boundary: a module that is paired counts, fences, declares, and sends its heartbeats. -/
def twinEpoch (m : Chip) : Chip :=
  if twinSt m ≤ 1 then m else sendHeartbeats (journalRows (setLag (declare (fence (countMissed m)))))

/-! ### Messages -/

/-- The words of a flit's body. -/
def flitBody (f : Flit) : List Nat := bytesWords f.body

/-- HEARTBEAT_RX (R720, R721). Regions that wait for an answer are sent again. -/
def doHeartbeatRx (f : Flit) (m : Chip) : Chip :=
  let w := flitBody f
  let st := bitsN (nth w 0) 7 4
  let m1 := modTwin m (fun t => { t with hbSeen := true, lastHb := nth64 w 2, peerState := st, waitWarm := none, portMiss := 0 })
  if mayDeclare m1 && st == 7 then takeOver m1
  else
    let m2 := if twinSt m1 = 4 then (if m1.twin.jSet then twinNote (enterTwin m1 3) 1 m1.twin.twin else enterTwin m1 2) else m1
    m2.twin.regionWait.foldl (fun c k => match region c k with
      | some r => twinSendOne c (regionMsg k false r)
      | none => c) m2

/-- JEND_RX (R712): the end of an occurrence; the JACK follows at once, or with the last acknowledgement of a line. -/
def doJendRx (p : Nat) (f : Flit) (m : Chip) : Chip :=
  keeperAck (modTwin m (fun t => { t with rxEnd := some (p, nth (flitBody f) 1, nth64 (flitBody f) 2) }))

/-- JACK_RX (R712, R715, R729, R731): of a complete occurrence, J becomes its start. -/
def doJackRx (f : Flit) (m : Chip) : Chip :=
  match m.twin.wait with
  | none => m
  | some (start, full, img) =>
    if nth64 (flitBody f) 2 ≠ start then m
    else
      let m1 := modTwin m (fun t => { t with wait := none, imgAck := img, jSet := t.jSet || full, jCame := t.jCame || (full && t.jFrom.any (fun j => decide (j ≤ start))) })
      if !full then m1
      else
        let m2 := setLag (setJ m1 start)
        if twinSt m2 = 2 then twinNote (enterTwin m2 3) 1 m2.twin.twin else m2

/-! ### Pairing (R729) -/

/-- The PAIR message of this module. -/
def pairMsg (m : Chip) : List Nat :=
  twinWords 4 (m.twin.twin * 2 ^ 8) 2 [csr m TWIN_HELD_MODULE.off, fget m TWIN_JCFG_UNITS]

/-- The pairing command ends without success: the module is as it was before. -/
def pairFail (m : Chip) (st : Nat) : Chip :=
  match m.twin.mb with
  | none => m
  | some i =>
    let m1 := modTwin m (fun t => { t with mb := none, pairSeen := none, regionWait := [], refused := false })
    fail (if twinSt m1 = 1 then unpair m1 else m1) i st

/-- Every exchange of the pairing has succeeded: the state follows from who holds which role. -/
def pairDone (m : Chip) : Chip :=
  match m.twin.mb, m.twin.pairSeen with
  | some i, some (_, held, valid, _) =>
    let m1 := modTwin m (fun t => { t with mb := none, pairSeen := none, jSet := false, wait := none, imgAck := [], twinHolds := valid && held == selfNum m })
    let st := if twinSt m1 = 5 then 5 else if valid && held == selfNum m1 then 6 else 2
    let m2 := dirtyAll (enterTwin m1 st) (List.range 16 ++ (if st = 5 then (List.range 16).map (· + 16) else []))
    respond (twinNote (if st = 5 then twinOut m2 else m2) 0 m2.twin.twin) i 0 [ownDirty m2]
  | _, _ => m

/-- Go on with the pairing once the twin's PAIR is there: it must name this module with the same UNITS; then the regions are exchanged. -/
def pairGo (m : Chip) : Chip :=
  match m.twin.mb, m.twin.pairSeen with
  | some i, some (named, _, _, units) =>
    if (mbRun m i).any (fun r => r.code == 0x0A01) then
      if named ≠ selfNum m ∨ units ≠ fget m TWIN_JCFG_UNITS then pairFail m 0x0A05
      else
        let ks := (List.range 16).filter (fun k => (region m k).isSome)
        if ks = [] then pairDone m
        else ks.foldl (fun c k => match region c k with
          | some r => twinSendOne c (regionMsg k false r)
          | none => c) (modTwin m (fun t => { t with regionWait := ks, refused := false }))
    else m
  | _, _ => m

/-- PAIR_RX (R729): kept until this module's own command, or met by it. -/
def doPairRx (f : Flit) (m : Chip) : Chip :=
  let w := flitBody f
  let m1 := modTwin m (fun t => { t with pairSeen := some (bitsN (nth w 0) 18 8, bitsN (nth w 1) 10 0, tb (nth w 1) 31, bitsN (nth w 2) 13 0) })
  if m.twin.regionWait = [] then pairGo m1 else m1

/-- A keeper range asked for is refused (R708, check 5). -/
def keeperBad (m : Chip) (k da n : Nat) : Bool :=
  let others := m.twin.keepers.filterMap (fun e => if e.1 = k then none else e.2.map (fun r => (r.1, r.2 * 65536)))
  !rangeR705 m da n || meetsAny da n (ownSources m) || meetsAny da n (allRingAreas m) || meetsAny da n (keepArea m) || meetsAny da n others

/-- A REGION request: taken or refused, and answered with UNITS 0. -/
def regionAsk (p k : Nat) (w : List Nat) (m : Chip) : Chip :=
  let clear := tb (nth w 0) 12
  let keep := nth64 w 2 % 2 ^ 48
  let units := nth w 4
  let bad := !clear && keeperBad m k keep (units * 65536)
  let m1 := if bad then m else modTwin m (fun t => { t with keepers := tput none k (if clear then none else some (keep, units)) t.keepers })
  sendCtl m1 p 9 (twinWords 6 (k * 2 ^ 8 + b2n clear * 2 ^ 12 + b2n bad * 2 ^ 13) 2 [])

/-- The answers to this module's REGION messages are complete: the command that waits goes on. -/
def regionsDone (m : Chip) : Chip :=
  match m.twin.mb with
  | none => m
  | some i =>
    if cmdGoing m i 0x0A01 then (if m.twin.refused then pairFail m 0x0A05 else pairDone m)
    else
      let k := bitsN (nth (cmdPay m i) 0) 3 0
      let m1 := modTwin m (fun t => { t with mb := none, refused := false })
      if m.twin.refused then fail (putRegion m1 k none) i 0x0A05 else respond (if bitsN (nth (cmdPay m i) 0) 31 28 = 1 then putRegion m1 k none else m1) i 0 []

/-- An answer to a REGION message. -/
def regionAnswer (k : Nat) (w : List Nat) (m : Chip) : Chip :=
  if !m.twin.regionWait.contains k then m
  else
    let m1 := modTwin m (fun t => { t with regionWait := t.regionWait.filter (· != k), refused := t.refused || tb (nth w 0) 13 })
    if m1.twin.regionWait = [] then regionsDone m1 else m1

/-- REGION_RX (R718). A message with UNITS 0 is an answer. -/
def doRegionRx (p : Nat) (f : Flit) (m : Chip) : Chip :=
  let w := flitBody f
  let k := bitsN (nth w 0) 11 8
  if nth w 4 = 0 then regionAnswer k w m else regionAsk p k w m

/-- A twin-port message by its SUB (R718); UNPAIR is the one without a body. -/
def twinCtl (p : Nat) (f : Flit) (m : Chip) : Chip :=
  if !isTwinPort p then m
  else if f.body = [] then (if 2 ≤ twinSt m then unpair m else m)
  else match bitsN (nth (flitBody f) 0) 3 0 with
    | 1 => if 2 ≤ twinSt m then doHeartbeatRx f m else m
    | 2 => if 2 ≤ twinSt m then doJendRx p f m else m
    | 3 => doJackRx f m
    | 4 => doPairRx f m
    | 6 => if 1 ≤ twinSt m then doRegionRx p f m else m
    | _ => m

/-! ### Routed messages (R719, R726, R727, R732) -/

/-- A TWIN_HB from the twin (R717). -/
def twinHb (f : Flit) (m : Chip) : Chip :=
  if 2 ≤ twinSt m ∧ f.src = m.twin.twin then modTwin m (fun t => { t with routedSeen := true, lastHb := nth64 (flitBody f) 2 }) else m

/-- A conflict over a role (R727). -/
def twinConflict (m : Chip) (role : Nat) : Chip := twinNote (bump (fset m TWIN_STAT_CONFLICT 1) TWIN_CONFLICT_CTR 1) 6 role

/-- Start a handover (R731): acceptance of entries stops, and the work drains. -/
def startHandover (m : Chip) (mb : Option Nat) : Chip := modTwin m (fun t => { t with handover := 1, mb := mb, jFrom := none, jCame := false })

/-- TWIN_TAKE (R726, R727, R733). -/
def twinTake (f : Flit) (m : Chip) : Chip :=
  let role := bitsN (nth (flitBody f) 0) 10 0
  let holder := bitsN (nth (flitBody f) 1) 10 0
  let cur := tget 0 role m.twin.alias_
  if f.src = role ∧ holder = role then modTwin m (fun t => { t with alias_ := tput 0 role 0 t.alias_ })
  else if f.src = holder ∧ (cur = 0 ∨ cur = holder + 1) then
    let m1 := modTwin m (fun t => { t with alias_ := tput 0 role (holder + 1) t.alias_, twinHolds := t.twinHolds || (role == selfNum m) })
    if fon m1 TWIN_CTRL_GROUP && twinSt m1 == 3 && role / 8 == stationNum m1 && role != selfNum m1 && m1.twin.handover == 0 && m1.twin.mb.isNone then startHandover m1 none else m1
  else twinConflict m role

/-- TWIN_RELEASE (R732): from the holder, the entry clears; the role's own module holds it again. -/
def twinRelease (f : Flit) (m : Chip) : Chip :=
  let role := bitsN (nth (flitBody f) 0) 10 0
  if tget 0 role m.twin.alias_ ≠ f.src + 1 ∧ ¬ (role = selfNum m ∧ f.src = m.twin.twin) then m
  else
    let m1 := modTwin m (fun t => { t with alias_ := tput 0 role 0 t.alias_ })
    if role = selfNum m1 ∧ twinSt m1 = 6 then
      twinNote (enterTwin (modTwin m1 (fun t => { t with twinHolds := false })) 3) 7 role
    else m1

/-- A ROUTED flit that reaches its module (R719): a twin message by its MSG; any other is none of this module's. -/
def routedHere (f : Flit) (m : Chip) : Chip :=
  match nth (flitBody f) 0 / 2 ^ 16 with
  | 0x0A01 => twinHb f m
  | 0x0A02 => twinTake f m
  | 0x0A03 => twinRelease f m
  | _ => m

/-! ### Handover and return (R731, R732) -/

/-- No launch, descriptor or job is active. -/
def workIdle (m : Chip) : Bool :=
  m.launches.all (fun e => e.2.isNone) && m.con.all (fun c => c.descs.all (fun e => e.2.isNone)) && m.pts.jobs.all (fun j => j.isNone)

/-- A step of the handover, or the return, can be taken. -/
def handoverReady (m : Chip) : Bool :=
  (m.twin.handover == 1 && workIdle m) || (m.twin.handover == 2 && m.twin.jCame) || (m.twin.handover == 4 && m.twin.jCame)

/-- The holder returns its twin's role (R732). -/
def giveBack (m : Chip) : Chip :=
  let role := fget m TWIN_HELD_MODULE
  let m1 := twinBroadcast m 3 role (selfNum m)
  let m2 := (List.range 16).foldl (fun c k => putRegion c (16 + k) none) (fset (fset m1 TWIN_HELD_VALID 0) TWIN_HELD_MODULE 0)
  twinNote (enterTwin m2 3) 7 role

/-- TWIN_HANDOVER_PROCEED: once the work has drained the journal is awaited; once its JACK has come the module departs and is RELEASED. -/
def doTwinHandoverProceed (m : Chip) : Chip :=
  if m.twin.handover = 1 then modTwin m (fun t => { t with handover := 2, jFrom := some (now m), jCame := false })
  else
    let mb := m.twin.mb
    let m0 := modTwin m (fun t => { t with mb := none, jFrom := none, jCame := false })
    let m1 := if m.twin.handover = 2 then
        twinNote (modTwin (enterTwin (departAll m0 3) 6) (fun t => { t with handover := 3, twinHolds := true })) 4 (selfNum m0)
      else giveBack (modTwin m0 (fun t => { t with handover := 0 }))
    match mb with
    | some i => respond m1 i 0 []
    | none => m1

/-- Meaning of TWIN_HANDOVER_PROCEED. -/
def execTwinHandoverProceed (s : State) : Host.Outcome State Fault Refusal := runIf s handoverReady doTwinHandoverProceed

/-- TWIN_ALIAS_DATA_READ (R739): the entry that TWIN_ALIAS_IDX names; ROLE then increments. -/
def doTwinAliasDataRead (m : Chip) : Chip :=
  let k := fget m TWIN_ALIAS_IDX_ROLE
  let v := match tget 0 k m.twin.alias_ with
    | 0 => 0
    | h + 1 => 2 ^ 31 + h
  fset { m with out := some v } TWIN_ALIAS_IDX_ROLE (k + 1)

/-- Meaning of TWIN_ALIAS_DATA_READ. -/
def execTwinAliasDataRead (s : State) : Host.Outcome State Fault Refusal := run s doTwinAliasDataRead

/-! ### Commands -/

/-- A pairing needs a module at this slot of another station, and a twin port to it (R729, check 3). -/
def pairWired (m : Chip) (t : Nat) : Bool :=
  (moduleNum m).isSome && t % 8 == slotNum m && t / 8 != stationNum m && [17, 34].any (fun p => linkActive m p && fget m (LNKp_LINK_FAR_MODULE p) == t)

/-- TWIN.PAIR (R729). -/
def doTwinPair (i : Nat) (p : List Nat) (m : Chip) : Chip :=
  let t := nth p 0
  let keep := nth64 p 1
  if !(twinSt m == 0 || (twinSt m == 5 && fget m TWIN_HELD_MODULE == t)) then fail m i 0x0A01
  else if !pairWired m t then fail m i 0x0A02
  else if keep % 65536 ≠ 0 ∨ !scratchRange m keep 0x40000 then fail m i 0x0A03
  else
    let m1 := modTwin (cmdOn m i []) (fun x => { x with twin := t, keepCtl := keep, mb := some i, mbT0 := m.ns })
    let m2 := if twinSt m1 = 0 then enterTwin m1 1 else m1
    pairGo (twinSend m2 (pairMsg m2))

/-- Meaning of TWIN_PAIR. -/
def execTwinPair (i : Nat) (s : State) : Host.Outcome State Fault Refusal := runCmd s i 0x0A01 (doTwinPair i)

/-- A pairing has waited 10 s for the twin's PAIR. -/
def pairLate (m : Chip) : Bool :=
  m.twin.mb.any (fun i => cmdGoing m i 0x0A01) && !m.twin.pairSeen.any (fun q => q.1 == selfNum m) && decide (m.twin.mbT0 + 10000000000 ≤ m.ns)

/-- Meaning of TWIN_PAIR_TIMEOUT (R729, check 5). -/
def execTwinPairTimeout (s : State) : Host.Outcome State Fault Refusal := runIf s pairLate (fun m => pairFail m 0x0A06)

/-- TWIN.DETACH (R730). -/
def doTwinDetach (i : Nat) (p : List Nat) (m : Chip) : Chip :=
  let op := bitsN (nth p 0) 31 28
  let st := twinSt m
  if op = 0 ∧ [2, 3, 4, 6].contains st then respond (unpair (twinSend m [])) i 0 []
  else if op = 1 ∧ st = 3 ∧ m.twin.handover = 0 ∧ m.twin.mb = none then startHandover (cmdOn m i []) (some i)
  else if op = 2 ∧ st = 5 ∧ m.twin.peerState = 6 ∧ m.twin.mb = none then
    modTwin (cmdOn m i []) (fun t => { t with handover := 4, mb := some i })
  else if op = 3 ∧ [3, 4, 7].contains st then respond (takeOver m) i 0 []
  else fail m i 0x0A01

/-- Meaning of TWIN_DETACH. -/
def execTwinDetach (i : Nat) (s : State) : Host.Outcome State Fault Refusal := runCmd s i 0x0A02 (doTwinDetach i)

/-- The source of a new region is refused (R708, check 3). -/
def sourceBad (m : Chip) (k da n : Nat) : Bool :=
  let others := (List.range 32).filterMap (fun j => if j = k then none else (region m j).map (fun r => (r.src, regionBytes r)))
  !rangeR705 m da n || meetsAny da n others || meetsAny da n (allRingAreas m) || meetsAny da n (keepArea m)

/-- Units of the own regions but one. -/
def ownUnits (m : Chip) (k : Nat) : Nat := (List.range 16).foldl (fun a j => if j = k then a else a + ((region m j).map (·.units)).getD 0) 0

/-- TWIN.PROTECT (R707, R708). While paired the twin answers first. -/
def doTwinProtect (i : Nat) (p : List Nat) (m : Chip) : Chip :=
  let k := bitsN (nth p 0) 3 0
  let clear := bitsN (nth p 0) 31 28 == 1
  let r : Region := ⟨nth64 p 1, nth64 p 3, nth p 5⟩
  let paired := decide (2 ≤ twinSt m)
  let ask (c : Chip) (x : Region) : Chip := twinSendOne (modTwin (cmdOn c i []) (fun t => { t with mb := some i, mbT0 := m.ns, regionWait := [k], refused := false })) (regionMsg k clear x)
  if [1, 5, 6, 7].contains (twinSt m) then fail m i 0x0A01
  else if clear then
    match region m k with
    | some x => if paired then ask m x else respond (putRegion m k none) i 0 []
    | none => respond m i 0 []
  else if sourceBad m k r.src (regionBytes r) then fail m i 0x0A03
  else if 65536 < ownUnits m k + r.units then fail m i 0x0A04
  else if paired then ask (putRegion m k (some r)) r
  else respond (putRegion m k (some r)) i 0 []

/-- Meaning of TWIN_PROTECT. -/
def execTwinProtect (i : Nat) (s : State) : Host.Outcome State Fault Refusal := runCmd s i 0x0A03 (doTwinProtect i)

/-- TWIN.STATUS (R736). -/
def doTwinStatus (i : Nat) (_ : List Nat) (m : Chip) : Chip :=
  respond m i 0 ([csr m TWIN_STAT_STATE.off, csr m TWIN_HELD_MODULE.off] ++ lohi (twinJ m) ++ [ownDirty m] ++ lohi m.twin.lastHb)

/-- Meaning of TWIN_STATUS. -/
def execTwinStatus (i : Nat) (s : State) : Host.Outcome State Fault Refusal := runCmd s i 0x0A04 (doTwinStatus i)

/-- TWIN.POLICY (R829): the image is written, the previous one returned. -/
def doTwinPolicy (i : Nat) (p : List Nat) (m : Chip) : Chip := respond (setCsr m TWIN_CTRL_MISS.off (nth p 0)) i 0 [csr m TWIN_CTRL_MISS.off]

/-- Meaning of TWIN_POLICY. -/
def execTwinPolicy (i : Nat) (s : State) : Host.Outcome State Fault Refusal := runCmd s i 0x0A05 (doTwinPolicy i)

end Sys2Proof.Machine
end

