-- ==== Sys2Proof/Machine/Link.lean ====
section
/-! DEFINITION. The link layer: tablets, the choice of the next flit, replay, reclaim, and the frames a port sends (R515 to R535). -/

namespace Sys2Proof.Machine

/-- The tablet totals of this end (R521). -/
def ownTotals : List Nat := [1024, 256, 256, 32]

/-- The tablets that a flit takes (R521). -/
def flitTabs (f : Flit) : Nat := max f.lines 1

/-- The virtual channel of a sequenced flit (R521, R526); none for an unsequenced one. -/
def flitVc (f : Flit) : Option Nat :=
  match f.typ with
  | 1 => some 0
  | 2 => some 1
  | 3 => some 2
  | 4 => if f.op * 4 + f.dtype = 10 then some 3 else none
  | _ => none

/-- Bytes of a flit's body (R518, R519). -/
def bodyLen (f : Flit) : Nat :=
  match f.typ with
  | 1 => f.lines * 132
  | 2 => if f.op = 1 then 132 else if f.op = 2 then 148 else if f.op = 3 then 32 else 0
  | 3 => if f.op = 0 then 132 else if f.op = 2 then 16 else 0
  | 4 => f.lines * 16
  | _ => 0

/-- A flit's bytes on the stream. -/
def flitBytes (f : Flit) : List Byte := wordBytes (flitWords f f.hchk) ++ f.body

/-- Receive entries have passed on: their tablets are to be returned (R522). -/
def freeTabs (m : Chip) (p v n : Nat) : Chip := modPort m p (fun q => { q with owed := modAt q.owed v (· + n) })

/-! ### Choosing a flit (R522, R523) -/

/-- A SLOT, EXCHANGE or JOURNAL window is ACTIVE on the port. -/
def windowOn (m : Chip) (p : Nat) : Bool :=
  (rowsOf m).any (fun e => [1, 3, 7].contains (rowKind e.2.w) && e.2.st == .active && (rowClaims e.2.w e.2.par).contains (2, p))

/-- A ROUTED flit enters a ring of the torus (R541): its source has this module's coordinate in the port's dimension. -/
def entersRing (m : Chip) (p : Nat) (f : Flit) : Bool :=
  match torusRole p with
  | some (d, _) => coord (f.src / 8) d == coord (stationNum m) d
  | none => false

/-- Bytes that the replay buffer holds. -/
def replayBytes (q : Port) : Nat := q.replay.foldl (fun a f => a + 16 + f.body.length) 0

/-- The head of a channel may be sent: the link's state, tablets, reclaim and the replay buffer allow it (R526, R529, R535, R541). -/
def headReady (m : Chip) (p v : Nat) : Bool :=
  let q := port m p
  match (q.vcq.getD v []).head? with
  | none => false
  | some f =>
    (linkSt m p == 5 || (linkSt m p == 6 && decide (2 ≤ v))) && !q.reclaim &&
    decide ((if v = 3 && entersRing m p f then 2 else flitTabs f) ≤ nth q.avail v) &&
    decide (q.replay.length < 2048) && decide (replayBytes q + 16 + f.body.length ≤ 262144)

/-- The channel whose head goes next: VC0 in a window, else each in turn. -/
def nextVc (m : Chip) (p : Nat) : Option Nat :=
  if windowOn m p && headReady m p 0 then some 0
  else ((List.range 4).map (fun i => ((port m p).rrCh + 1 + i) % 4)).find? (headReady m p)

/-- Take the head of a channel: it gets the next SEQ, takes its tablets and stays in the replay buffer. A ROUTED flit passed on frees its entry. -/
def takeVc (m : Chip) (p v : Nat) : Option (Flit × Chip) :=
  let q := port m p
  match q.vcq.getD v [] with
  | [] => none
  | f :: r =>
    let g := { f with seq := (q.txSeq + 1) % 4096 }
    let m1 := modPort m p (fun q => { q with
      vcq := setAt q.vcq v r, txSeq := g.seq, avail := modAt q.avail v (· - flitTabs g), sent := modAt q.sent v (fun n => (n + flitTabs g) % 2 ^ 24),
      replay := q.replay ++ [g], lastAck := if q.replay = [] then m.ns else q.lastAck, rrCh := v, held := if v = 3 then q.held.drop 1 else q.held })
    some (g, match v, q.held.head? with
      | 3, some (some p0) => freeTabs m1 p0 3 1
      | _, _ => m1)

/-- The next flit in the order of R523, but IDLE. -/
def takeFlit (m : Chip) (p : Nat) : Option (Flit × Chip) :=
  let q := port m p
  match q.ctl.find? (fun f => !(f.op == 0 && (f.dtype == 1 || f.dtype == 2))) with
  | some f => some (f, modPort m p (fun q => { q with ctl := q.ctl.erase f }))
  | none =>
    if linkSt m p < 5 then none
    else match q.replayDue.bind (fun i => (q.replay[i]?).map (fun f => (i, f))) with
      | some (i, f) => some (f, bump (modPort m p (fun q => { q with replayDue := if i + 1 < q.replay.length then some (i + 1) else none })) (LNKp_REPLAY_CTR p) 1)
      | none => (nextVc m p).bind (takeVc m p)

/-- Put ACK and the tablets to return into a flit's header and seal it (R517, R520, R522). -/
def dressFlit (m : Chip) (p : Nat) (f : Flit) : Flit × Chip :=
  let q := port m p
  match (List.range 4).find? (fun v => nth q.owed v != 0) with
  | none => (sealFlit { f with ack := q.rxSeq, retVc := 0, retCount := 0 }, m)
  | some v =>
    let n := min 63 (nth q.owed v)
    (sealFlit { f with ack := q.rxSeq, retVc := v, retCount := n },
     modPort m p (fun q => { q with owed := modAt q.owed v (· - n), freed := modAt q.freed v (fun x => (x + n) % 2 ^ 24) }))

/-- An IDLE flit. -/
def idleFlit (m : Chip) : Flit := mkFlit m 0 0 0 0 0 0 0 []

/-- Fill room bytes of a frame with flits: the flits chosen, and how many further IDLE flits fill the rest. -/
def fillFlits : Nat → Chip → Nat → Nat → List Flit → Chip × List Flit × Nat
  | 0, m, _, _, acc => (m, acc, 0)
  | n + 1, m, p, room, acc =>
    if room = 0 then (m, acc, 0)
    else match takeFlit m p with
      | some (f, m1) =>
        let h := dressFlit m1 p f
        fillFlits n h.2 p (room - (16 + f.body.length)) (acc ++ [h.1])
      | none =>
        let h := dressFlit m p (idleFlit m)
        if h.1.retCount = 0 then (h.2, acc ++ [h.1], cdiv (room - 16) 16)
        else fillFlits n h.2 p (room - 16) (acc ++ [h.1])

/-- The offsets at which flits of these lengths start, from an offset on. -/
def startsFrom : Nat → List Nat → List Nat
  | _, [] => []
  | o, n :: r => o :: startsFrom (o + n) r

/-- The messages of a port frame (R515): its lanes' parts of the stream, each with FIRST. -/
def frameMsgs (lanes_ : Nat) (stream : List Byte) (starts : List Nat) : List (List Byte) :=
  (List.range lanes_).map (fun j =>
    let first := (starts.find? (fun o => decide (2568 * j ≤ o) && decide (o < 2568 * (j + 1)))).elim 0xFFFF (fun o => o - 2568 * j + 2)
    leBytes 2 first ++ (stream.drop (2568 * j)).take 2568)

/-! ### A frame (R478, R489, R491, R519, R523, R529) -/

/-- RATE_REQ: the rate that this end proposes once its lanes are decided in TRAIN, else the current rate. -/
def rateReq (m : Chip) (p : Nat) : Nat :=
  let q := port m p
  let rate := fget m (LNKp_STAT_RATE p)
  if linkSt m p = 2 ∧ ¬ q.verify ∧ lanesIn m p [5, 7] = 15 then
    let pass := lanesIn m p [5]
    if pass ≠ 0 ∧ q.tryRate < fget m (LNKp_CFG_MAX_RATE p) then q.tryRate + 1 else (bestRate (setAt q.passed q.tryRate (pass + 1))).1
  else rate

/-- The port runs the far-end loop from this end. -/
def asksLoop (m : Chip) (p : Nat) : Bool :=
  (port m p).loop.any (fun l => l.2.1 / 4 == 3) || (fget m (LNKp_CFG_LOOP p) == 3 && fon m (LNKp_STAT_OOS_DONE p))

/-- The 16 information bits of the frame's header, LANE 0. -/
def frameHdr (m : Chip) (p : Nat) : Nat :=
  (port m p).frameSeq * 2 ^ 10 + rateReq m p * 2 ^ 6 + b2n (decide (linkSt m p ≤ 2)) * 2 ^ 5 + b2n (asksLoop m p) * 2 ^ 4 + lanesIn m p [5]

/-- The MARK flit that leads the frame, with its departure time (R519, R520). -/
def takeMark (m : Chip) (p : Nat) : List Flit × Chip :=
  match (port m p).ctl.find? (fun f => f.op == 0 && (f.dtype == 1 || f.dtype == 2)) with
  | none => ([], m)
  | some f =>
    let m1 := modPort m p (fun q => { q with ctl := q.ctl.erase f })
    if f.dtype = 1 then ([f], { m1 with lt := { m1.lt with sent := tput 0 p (now m * 16) m1.lt.sent } })
    else ([{ f with body := f.body.take 8 ++ leBytes 8 (now m * 16) ++ f.body.drop 16 }], m1)

/-- IDENT (R519). -/
def identFlit (m : Chip) (p : Nat) : Flit :=
  ctlFlit m 7 [b2n (moduleNum m).isSome * 2 ^ 31 + p * 2 ^ 16 + selfNum m, 1024 + 256 * 65536, 256 + 32 * 65536, 0, 0, 0, 0, 0]

/-- What the link's state adds to the flits to send: the MARK of LOCK, IDENT every 16 frames of EXCHANGE, RECLAIM_REQ when all is acknowledged. -/
def frameCtl (m : Chip) (p : Nat) : Chip :=
  let q := port m p
  if linkSt m p = 3 ∧ ¬ q.marked then sendCtl (modPort m p (fun q => { q with marked := true })) p 1 []
  else if linkSt m p = 4 then
    modPort m p (fun q => { q with exFrames := q.exFrames + 1, ctl := if q.exFrames % 16 = 0 then q.ctl ++ [identFlit m p] else q.ctl })
  else if q.reclaim ∧ ¬ q.reclaimSent ∧ q.replay = [] ∧ 5 ≤ linkSt m p then sendCtl (modPort m p (fun q => { q with reclaimSent := true })) p 5 []
  else m

/-- PORT_FRAME_SEND (R523). -/
def doPortFrameSend (p : Nat) (m : Chip) : Chip :=
  let m0 := setLanes (modPort m p (fun q => { q with frameSeq := (q.frameSeq + 1) % 64 })) p (lanesIn m p [6]) 2
  let m1 := modPort m0 p (fun q => { q with txHdr := frameHdr m0 p, txMsgs := [], txOut := [] })
  if linkSt m1 p < 3 then m1
  else if possOn m1 p [1, 2] && (port m1 p).frameSeq % 4 == 3 then m1
  else
    let m2 := frameCtl m1 p
    let w := popN 4 (lanesUsed m2 p)
    let rest := (port m2 p).txRest
    let mk := takeMark m2 p
    let d := match mk.1 with
      | f :: _ => let h := dressFlit mk.2 p f; ([h.1], h.2)
      | [] => ([], mk.2)
    let r := fillFlits 700 d.2 p (2568 * w - rest.length - (d.1.foldl (fun a f => a + 16 + f.body.length) 0)) d.1
    let fs := r.2.1 ++ List.replicate r.2.2 (dressFlit r.1 p (idleFlit r.1)).1
    let stream := rest ++ fs.flatMap flitBytes
    modPort r.1 p (fun q => { q with
      txOut := r.2.1, txRest := stream.drop (2568 * w), txMsgs := frameMsgs w stream (startsFrom rest.length (fs.map (fun f => 16 + f.body.length))) })

/-- Meaning of PORT_FRAME_SEND: the port's lanes are powered. -/
def execPortFrameSend (port : Nat) (s : State) : Host.Outcome State Fault Refusal :=
  runIf s (fun m => decide (port < 36) && (linkSt m port != 0 || asksLoop m port)) (doPortFrameSend port)

/-! ### Replay timers (R527) and the ends of LOCK and DRAIN (R529) -/

/-- Meaning of REPLAY_TIMEOUT: 64 frame times without an ACK's advance; the oldest flit goes again. -/
def execReplayTimeout (port_ : Nat) (s : State) : Host.Outcome State Fault Refusal :=
  runIf s (fun m => decide (port_ < 36) && decide (5 ≤ linkSt m port_) && (port m port_).replay != [] && decide ((port m port_).lastAck + frameNs m port_ 64 ≤ m.ns))
    (fun m => modPort m port_ (fun q => { q with replayDue := some 0, lastAck := m.ns }))

/-- Ask the sender for the SEQ expected (R527). -/
def sendNak (m : Chip) (p : Nat) : Chip :=
  modPort (sendCtl m p 3 [((port m p).rxSeq + 1) % 4096, 0, 0, 0]) p (fun q => { q with nakAt := some m.ns })

/-- Meaning of NAK_REPEAT: every 4 frame times. -/
def execNakRepeat (port_ : Nat) (s : State) : Host.Outcome State Fault Refusal :=
  runIf s (fun m => decide (port_ < 36) && (port m port_).nakAt.any (fun t => decide (t + frameNs m port_ 4 ≤ m.ns))) (fun m => sendNak m port_)

/-- Meaning of LINK_LOCK_TIMEOUT: 1 ms in LOCK. -/
def execLinkLockTimeout (port_ : Nat) (s : State) : Host.Outcome State Fault Refusal :=
  runIf s (fun m => decide (port_ < 36) && linkSt m port_ == 3 && decide ((port m port_).lockT0 + 1000000 ≤ m.ns)) (fun m => linkDown m port_)

/-- A draining link has nothing unacknowledged and nothing outstanding, or 1 ms has passed. -/
def drainOver (m : Chip) (p : Nat) : Bool :=
  let q := port m p
  linkSt m p == 6 && ((q.replay == [] && q.out == [] && q.vcq.getD 2 [] == [] && q.vcq.getD 3 [] == []) || decide (q.drainT0 + 1000000 ≤ m.ns))

/-- Meaning of LINK_DRAIN_END. -/
def execLinkDrainEnd (port_ : Nat) (s : State) : Host.Outcome State Fault Refusal := runIf s (fun m => decide (port_ < 36) && drainOver m port_) (fun m => linkDown m port_)

/-! ### Reclaim and retrain (R531, R534, R535) -/

/-- Start a reclaim of an ACTIVE link. -/
def linkReclaim (m : Chip) (p : Nat) : Chip :=
  if linkActive m p then modPort m p (fun q => if q.reclaim then q else { q with reclaim := true, reclaimSent := false }) else m

/-- Meaning of LINK_RECLAIM_WRITE (R535). A write that also names RETRAIN returns the link to TRAIN first, which reclaims it. -/
def execLinkReclaimWrite (port : Nat) (val : Word) (s : State) : Host.Outcome State Fault Refusal :=
  runIf s (fun _ => decide (port < 36) && tb val.toNat 1) (fun m => linkReclaim (if tb val.toNat 0 then (if linkActive m port then linkLost m port else m) else m) port)

/-- Meaning of LINK_RETRAIN_WRITE (R531). -/
def execLinkRetrainWrite (port : Nat) (val : Word) (s : State) : Host.Outcome State Fault Refusal :=
  runIf s (fun m => decide (port < 36) && tb val.toNat 0 && linkActive m port) (fun m => linkLost m port)

/-! ### The audit (R533, R534, R768, R770) -/

/-- The key of a link's run of audit failures. -/
def linkAuditKey (p : Nat) : Nat := 3 * 256 + p

/-- An audit of a link has failed: the bit, the counter, the notice; reclaim while AUTO_RECLAIM is 1; after four epochs in a row the link is retrained, with a
contained record. -/
def linkAuditFail (m : Chip) (p : Nat) : Chip :=
  let r := auditRun (notice (bump (fset m (LNKp_LINK_AUDIT_FAIL p) 1) (LNKp_AUDIT_CTR p) 1) 11 [3 + p * 256]) (linkAuditKey p)
  if r.1 then linkLost (recErr r.2 1 7 3 p ownMioto 0 0 0 0 0) p
  else if fon r.2 LNK_FAB_CTRL_AUTO_RECLAIM then linkReclaim r.2 p else r.2

/-- The sender's part of an epoch's audit: AUDIT goes out, and A + (SENT - RET) must be the total (R533). -/
def auditSend (m : Chip) (p : Nat) : Chip :=
  let q := port m p
  if !linkActive m p || q.reclaim then m
  else
    let m1 := sendCtl m p 4 ((List.range 4).flatMap (fun v => [nth q.sent v, nth q.ret v]))
    let ok := (List.range 4).all (fun v => nth q.avail v + (nth q.sent v + 2 ^ 24 - nth q.ret v) % 2 ^ 24 == nth q.totals v)
    if ok then m1 else linkAuditFail m1 p

/-- The links' part of an epoch boundary: the codewords of the epoch start anew (R500), and the audits. -/
def linkEpoch (m : Chip) : Chip :=
  (List.range 36).foldl (fun c p =>
    let c1 := modPort c p (fun q => { q with lanes := q.lanes.map (fun l => { l with ueEpoch := 0 }) })
    if fon c1 LNK_FAB_CTRL_AUDIT_EN then auditSend c1 p else c1) m

end Sys2Proof.Machine
end

