-- ==== Sys2Proof/Machine/Fabric.lean ====
section
/-! DEFINITION. The fabric at a receiver: frames, the flit stream, sequence and tablets, DATA, peer requests and their answers, control and routed flits
(R482, R515 to R548, R714, R718, R725). -/

namespace Sys2Proof.Machine

/-! ### Timetabled data (R542 to R547) -/

/-- This module holds the role of another, under its number (R724). -/
def heldRole (m : Chip) : Option Nat := if fon m TWIN_HELD_VALID && twinSt m == 5 then some (fget m TWIN_HELD_MODULE) else none

/-- The module that a number names here: itself, or the role it holds. -/
def isHere (m : Chip) (d : Nat) : Bool := d == selfNum m || heldRole m == some d

/-- The line of this module for a DATA line to a destination: its own, or the translation of a held role's (R725). -/
def dataLine (m : Chip) (dest ln : Nat) : Option Nat :=
  if dest = selfNum m then some ln
  else (List.range 16).findSome? (fun k => match region m (16 + k) with
    | some r => if r.keep ≤ ln * 128 ∧ ln * 128 < r.keep + regionBytes r then some ((r.src + (ln * 128 - r.keep)) / 128) else none
    | none => none)

/-- The open receive window whose range holds a line. -/
def windowAt (m : Chip) (ln : Nat) (p : TtRow → Bool) : Option (Nat × TtRow) :=
  (rowsOf m).find? (fun e => rowKind e.2.w == 2 && e.2.st == .active && !e.2.bad && decide (now m < rowEnd e.2) &&
    decide (parDa e.2.par 2 ≤ ln * 128) && decide (ln * 128 < parDa e.2.par 2 + nth e.2.par 4) && p e.2)

/-- Take or find the entry of a source (R544, R545). -/
def claimSrc (r : TtRow) (src : Nat) : Option TtRow :=
  if r.srcs.any (fun s => s.module == src) then some r
  else if r.srcs.length < nth r.par 1 then some { r with srcs := r.srcs ++ [{ module := src }] }
  else none

/-- Change the entry of a source. -/
def modSrc (r : TtRow) (src : Nat) (f : Source → Source) : TtRow := { r with srcs := r.srcs.map (fun s => if s.module = src then f s else s) }

/-- A line for an open window whose source has its entry (R543, R546): written, or reduced; a bad one is written poisoned, or not applied. -/
def windowLine (m : Chip) (p k : Nat) (r : TtRow) (f : Flit) (ln : Nat) (l : Line) : Chip :=
  let good := wbOk l
  let m1 := setRow m k (some (modSrc r f.src (fun s => { s with bytes := s.bytes + 128, das := if f.op = 0 ∨ ¬ good then s.das else s.das ++ [ln] })))
  let q : Req := { id := 0, kind := if f.op = 0 then .write else .reduce, line := ln, ln := l, op := f.op, size := f.dtype, ing := 6, who := .window k f.src }
  if good then pushReq m1 q
  else
    let m2 := windowBad m1 k f.src ln l 7 p 5
    if f.op = 0 then pushReq (bump m2 (LNKp_POISON_CTR p) 1) { q with ln := poisonLine l.data } else m2

/-- Line i of a DATA flit. Answers the machine and whether its source found no entry. -/
def dataRx (p : Nat) (f : Flit) (i : Nat) (m : Chip) : Chip × Bool :=
  let l : Line := ⟨(f.body.drop (128 * i)).take 128, leNat ((f.body.drop (128 * f.lines + 4 * i)).take 4), false, []⟩
  match (dataLine m f.dest (f.addr + i)).bind (fun ln => if scratch m (ln * 128) then (windowAt m ln (fun r => parOp r.par == f.op)).map (fun e => (ln, e)) else none) with
  | none => (bump m LNK_STRAY_CTR 1, false)
  | some (ln, k, r) => match claimSrc r f.src with
    | some r1 => (windowLine m p k r1 f ln l, false)
    | none => (m, true)

/-- A DATA flit for this module or a role it holds, else stray (R542). -/
def dataFlit (p : Nat) (f : Flit) (m : Chip) : Chip :=
  if !isHere m f.dest then bump m LNK_STRAY_CTR f.lines
  else
    let r := (List.range f.lines).foldl (fun (a : Chip × Bool) i => let b := dataRx p f i a.1; (b.1, a.2 || b.2)) (m, false)
    if r.2 then bump r.1 LNK_EXTRA_SRC_CTR 1 else r.1

/-- A void marker (R543, R545). -/
def voidFlit (p : Nat) (f : Flit) (m : Chip) : Chip :=
  let m1 := bump m (LNKp_VOID_RX_CTR p) 1
  match (if isHere m1 f.dest then dataLine m1 f.dest f.addr else none).bind (fun ln => windowAt m1 ln (fun _ => true)) with
  | none => bump m1 LNK_STRAY_CTR 1
  | some (k, r) => match claimSrc r f.src with
    | some r1 => setRow m1 k (some (modSrc r1 f.src (fun s => { s with void := true })))
    | none => bump m1 LNK_EXTRA_SRC_CTR 1

/-- A JOURNAL window of this module is ACTIVE on the twin ports. -/
def journalOn (m : Chip) (p : Nat) : Bool := isTwinPort p && (rowsOf m).any (fun e => rowKind e.2.w == 7 && e.2.st == .active && decide (now m < rowEnd e.2))

/-- The journal receiver (R714): lines outside the keeper's ranges are stray. -/
def journalFlit (p : Nat) (f : Flit) (m : Chip) : Chip :=
  (List.range f.lines).foldl (fun c i =>
    let ln := f.addr + i
    let d := (f.body.drop (128 * i)).take 128
    let wb := leNat ((f.body.drop (128 * f.lines + 4 * i)).take 4)
    let l : Line := ⟨d, wb, false, []⟩
    let q : Req := { id := 0, kind := .write, line := ln, ln := l, ing := 6, who := .journal p }
    let c0 := modTwin c (fun t => { t with rxLines := t.rxLines + 1 })
    if !meetsAny (ln * 128) 128 (keepArea m ++ keeperRanges m ++ (if twinSt m = 6 then ownSources m else [])) then bump c0 LNK_STRAY_CTR 1
    else if wbOk l then pushReq c0 q
    else pushReq (bump (recErr c0 1 9 5 p (6, 0, 0) (gaOf m (ln * 128)) 1 f.src wb (crc32c d)) (LNKp_POISON_CTR p) 1) { q with ln := poisonLine d }) m

/-! ### Requests of peers and their answers (R518, R536 to R539) -/

/-- Opcode 0xB0 to 0xBA of an operand block as the operation of R225; SIG by its SUBOP. -/
def atomCodeOf (w0 : Nat) : Nat := if w0 / 2 ^ 24 = 0xBB then (match bitsN w0 23 20 with
  | 0 => 9
  | 1 => 0
  | _ => 5) else w0 / 2 ^ 24 - 0xB0

/-- A request arrives: served at its home, or answered with an address error at once. -/
def reqFlit (p : Nat) (f : Flit) (m : Chip) : Chip :=
  let w := bytesWords f.body
  let da := f.addr * 128
  let r : Req := { id := 0, kind := .read, line := f.addr, ing := 6, who := .peer p 2 f.tag f.src }
  let q : Req := match f.op with
    | 0 => r
    | 1 => { r with kind := .write, ln := ⟨f.body.take 128, nth w 32, false, []⟩ }
    | 2 => { r with kind := .partialWrite, ln := ⟨(f.body.drop 16).take 128, nth w 36, false, []⟩, mask := leNat (f.body.take 16) }
    | _ => { r with kind := .atomic, op := atomCodeOf (nth w 0), size := if tb (nth w 0) 19 then 8 else 4, at_ := bitsN (nth w 0) 6 0, a := nth64 w 2, b := nth64 w 4 }
  if badAddress m da false || (f.op == 3 && !isBuf da) then answer m q .address zeroLine 0 else pushReq m q

/-- How a response says that its request fared. -/
def respFate (f : Flit) : Fate :=
  match f.op with
  | 0 => if leNat (f.body.drop 128) = crc32c (f.body.take 128) then .good else .waybill
  | 2 => if nth (bytesWords f.body) 0 = 0 then .good else .uncorrectable
  | 3 => if f.dtype = 1 then .uncorrectable else .address
  | _ => .good

/-- A response arrives: its request is no longer outstanding, and its requester has its answer. -/
def respFlit (p : Nat) (f : Flit) (m : Chip) : Chip :=
  match (port m p).out.find? (fun o => o.tag == f.tag) with
  | none => m
  | some o =>
    let m1 := modPort m p (fun q => { q with out := q.out.filter (fun x => x.tag != f.tag) })
    answer m1 { id := 0, kind := o.kind, line := (o.peer + 1) * 2 ^ 41 + o.line, who := o.who } (respFate f)
      (if f.op = 0 then ⟨f.body.take 128, leNat (f.body.drop 128), false, []⟩ else zeroLine) (if f.op = 2 then nth64 (bytesWords f.body) 2 else 0)

/-! ### Control flits -/

/-- Counts of the tablets of a link set to 0 at this end (R529). -/
def zeroCounts (q : Port) : Port := { q with sent := [0, 0, 0, 0], ret := [0, 0, 0, 0], freed := [0, 0, 0, 0], recvd := [0, 0, 0, 0], owed := [0, 0, 0, 0] }

/-- Receive entries of this end that still hold a flit, by channel: ROUTED flits waiting to go on. -/
def entriesHeld (m : Chip) (p v : Nat) : Nat := if v = 3 then ((List.range 36).map (fun o => ((port m o).held.filter (· == some p)).length)).foldl (· + ·) 0 else 0

/-- RECLAIM_REQ: this end's free entries (R535). The counts of the sender's direction start anew: FREED and received here, SENT and RET there. -/
def reclaimReq (p : Nat) (m : Chip) : Chip :=
  let fr (v : Nat) : Nat := nth ownTotals v - entriesHeld m p v
  modPort (sendCtl m p 6 [fr 0 + fr 1 * 65536, fr 2 + fr 3 * 65536, 0, 0]) p (fun q => { q with freed := [0, 0, 0, 0], recvd := [0, 0, 0, 0], owed := [0, 0, 0, 0] })

/-- The four 11-bit counts of two words. -/
def fourCounts (a b : Nat) : List Nat := [bitsN a 10 0, bitsN a 26 16, bitsN b 10 0, bitsN b 26 16]

/-- RECLAIM_REP: the sender takes the free entries as its tablets. -/
def reclaimRep (p : Nat) (f : Flit) (m : Chip) : Chip :=
  let w := flitBody f
  if !(port m p).reclaim then m
  else bump (modPort m p (fun q => { q with sent := [0, 0, 0, 0], ret := [0, 0, 0, 0], avail := fourCounts (nth w 0) (nth w 1), reclaim := false, reclaimSent := false })) (LNKp_RECLAIM_CTR p) 1

/-- AUDIT: the receiver's two checks for each channel (R533, R534, R768). -/
def auditRx (p : Nat) (f : Flit) (m : Chip) : Chip :=
  let w := flitBody f
  let q := port m p
  if q.reclaim || !linkActive m p || !fon m LNK_FAB_CTRL_AUDIT_EN then m
  else if (List.range 4).all (fun v => nth q.recvd v == nth w (2 * v) % 2 ^ 24 &&
      decide ((nth q.freed v + 2 ^ 24 - nth w (2 * v + 1) % 2 ^ 24) % 2 ^ 24 ≤ nth ownTotals v)) then m
  else linkAuditFail m p

/-- A NAK: replay from the SEQ expected (R527). -/
def nakRx (p : Nat) (f : Flit) (m : Chip) : Chip :=
  let s := nth (flitBody f) 0 % 4096
  modPort m p (fun q => match q.replay.findIdx? (fun g => g.seq == s) with
    | some i => { q with replayDue := some i }
    | none => q)

/-- The link goes ACTIVE (R529): a service command completes. -/
def linkUp (m : Chip) (p : Nat) : Chip :=
  let m1 := setLink m p 5
  match (port m1 p).svcMb with
  | some i => respond (modPort m1 p (fun q => { q with svcMb := none })) i 0 [fget m1 (LNKp_STAT_RATE p) + fget m1 (LNKp_STAT_WIDTH p) * 16 + lanesUsed m1 p * 256]
  | none => m1

/-- IDENT in EXCHANGE (R529, R530): the far end is known, and its place is checked. -/
def identRx (p : Nat) (f : Flit) (m : Chip) : Chip :=
  let w := flitBody f
  if linkSt m p ≠ 4 then m
  else
    let tots := fourCounts (nth w 1) (nth w 2)
    let m1 := fset (fset (fset m (LNKp_LINK_FAR_MODULE p) (bitsN (nth w 0) 10 0)) (LNKp_LINK_FAR_PORT p) (bitsN (nth w 0) 21 16)) (LNKp_LINK_FAR_VALID p) 1
    let m2 := modPort m1 p (fun q => { zeroCounts q with farMv := tb (nth w 0) 31, totals := tots, avail := tots, txSeq := 0, rxSeq := 0, nakAt := none, replay := [], replayDue := none })
    if wiringBad m2 p then linkDown (fset m2 (LNKp_LINK_WIRING p) 1) p else linkUp m2 p

/-- DEPART (R532): the link drains, what is outstanding to the module fails, the host hears of it. -/
def departRx (p : Nat) (f : Flit) (m : Chip) : Chip :=
  let reason := nth (flitBody f) 0 % 16
  let far := fget m (LNKp_LINK_FAR_MODULE p)
  if !linkActive m p && linkSt m p != 6 then m
  else
    let m1 := if linkActive m p then modPort (setLink m p 6) p (fun q => { q with drainT0 := m.ns }) else m
    let m2 := (List.range 36).foldl (fun c i => failOut c i (fun o => o.peer == far)) m1
    let m3 := notice m2 6 [far + p * 65536 + reason * 2 ^ 24]
    if m.twin.twin = far ∧ isTwinPort p then twinDepart m3 reason else m3

/-- A ROUTED flit (R540, R726): delivered, passed on with its entry held, or counted unroutable. -/
def routedFlit (p : Nat) (f : Flit) (m : Chip) : Chip :=
  let holder := holderOf m f.dest
  if isHere m f.dest || holder == selfNum m then freeTabs (routedHere f m) p 3 1
  else match routePort m holder with
    | some o => modPort m o (fun q => { q with vcq := modAt q.vcq 3 (· ++ [f]), held := q.held ++ [some p] })
    | none => freeTabs (bump m LNK_UNROUTE_CTR 1) p 3 1

/-- A link-local control flit by its KIND. sub is the arrival within the lt in 1/16 lt. -/
def ctlRx (p sub : Nat) (f : Flit) (m : Chip) : Chip :=
  let w := flitBody f
  match f.op * 4 + f.dtype with
  | 1 => doMarkReqRx p sub m
  | 2 => doMarkRepRx p (nth64 w 0) (nth64 w 2) (nth w 4 % 256) (bitsN (nth w 4) 10 8) sub m
  | 3 => nakRx p f m
  | 4 => auditRx p f m
  | 5 => reclaimReq p m
  | 6 => reclaimRep p f m
  | 7 => identRx p f m
  | 8 => departRx p f m
  | 9 => twinCtl p f m
  | _ => m

/-! ### A flit arrives (R516 to R527) -/

/-- The header's returned tablets and acknowledgement (R517, R522, R526). -/
def headerRx (p : Nat) (f : Flit) (m : Chip) : Chip :=
  modPort m p (fun q =>
    let q1 := if f.retCount = 0 then q else { q with avail := modAt q.avail f.retVc (· + f.retCount), ret := modAt q.ret f.retVc (fun n => (n + f.retCount) % 2 ^ 24) }
    match q1.replay.findIdx? (fun g => g.seq == f.ack) with
    | some i => { q1 with replay := q1.replay.drop (i + 1), lastAck := m.ns, replayDue := if q1.replay.length ≤ i + 1 then none else q1.replayDue.map (fun j => j - (i + 1)) }
    | none => q1)

/-- Deliver a sequenced flit that is accepted. -/
def deliver (p : Nat) (f : Flit) (m : Chip) : Chip :=
  let v := (flitVc f).getD 0
  let m1 := modPort m p (fun q => { q with rxSeq := f.seq, nakAt := none, recvd := modAt q.recvd v (fun n => (n + flitTabs f) % 2 ^ 24) })
  match f.typ with
  | 1 =>
    let m2 := freeTabs m1 p 0 (flitTabs f)
    if f.op = 7 then voidFlit p f m2 else if journalOn m2 p then journalFlit p f m2 else dataFlit p f m2
  | 2 => freeTabs (reqFlit p f m1) p 1 (flitTabs f)
  | 3 => freeTabs (respFlit p f m1) p 2 (flitTabs f)
  | _ => routedFlit p f m1

/-- A flit arrives whole on port p: one with a bad header is discarded; a sequenced one out of order is discarded and asked for again (R520, R527). -/
def rxFlit (p sub : Nat) (f : Flit) (m : Chip) : Chip :=
  if !flitOk f || f.body.length != bodyLen f then modPort m p (fun q => { q with stream := [], synced := false })
  else if linkSt m p < 3 then m
  else
    let m1 := if 5 ≤ linkSt m p then headerRx p f m else m
    match flitVc f with
    | none => if f.typ = 4 then ctlRx p sub f m1 else m1
    | some _ =>
      let q := port m1 p
      if linkSt m1 p < 5 then m1
      else if f.seq = (q.rxSeq + 1) % 4096 then deliver p f m1
      else if (f.seq + 4096 - q.rxSeq) % 4096 < 2049 ∧ f.seq ≠ q.rxSeq ∧ q.nakAt = none then sendNak m1 p
      else m1

/-- A row of the table brings one flit on a port: it is of the row's kind. -/
def rxRow (s : State) (p : Nat) (f : Flit) (ok : Bool) : Host.Outcome State Fault Refusal := runIf s (fun _ => decide (p < 36) && ok) (rxFlit p 0 f)

/-- The flit is a control flit of a KIND. -/
def isCtl (f : Flit) (kind : Nat) : Bool := f.typ == 4 && f.op * 4 + f.dtype == kind

/-- The flit is a twin-port message of a SUB (R718). -/
def isTwinMsg (f : Flit) (sub : Nat) : Bool := isCtl f 9 && f.body != [] && bitsN (nth (flitBody f) 0) 3 0 == sub

/-- The flit is a routed twin message of a MSG (R719). -/
def isTwinRouted (f : Flit) (msg : Nat) : Bool := isCtl f 10 && nth (flitBody f) 0 / 2 ^ 16 == 0x0A00 + msg

/-- Meaning of FLIT_DATA_WRITE_RX. -/
def execFlitDataWriteRx (port : Nat) (f : Flit) (s : State) : Host.Outcome State Fault Refusal := rxRow s port f (f.typ == 1 && f.op == 0)

/-- Meaning of FLIT_DATA_REDUCE_RX. -/
def execFlitDataReduceRx (port : Nat) (f : Flit) (s : State) : Host.Outcome State Fault Refusal :=
  rxRow s port f (f.typ == 1 && decide (1 ≤ f.op) && decide (f.op ≤ 3))

/-- Meaning of VOID_MARKER_RX. -/
def execVoidMarkerRx (port : Nat) (f : Flit) (s : State) : Host.Outcome State Fault Refusal := rxRow s port f (f.typ == 1 && f.op == 7)

/-- Meaning of REQ_READ_RX. -/
def execReqReadRx (port : Nat) (f : Flit) (s : State) : Host.Outcome State Fault Refusal := rxRow s port f (f.typ == 2 && f.op == 0)

/-- Meaning of REQ_WRITE_RX. -/
def execReqWriteRx (port : Nat) (f : Flit) (s : State) : Host.Outcome State Fault Refusal := rxRow s port f (f.typ == 2 && f.op == 1)

/-- Meaning of REQ_MASKED_WRITE_RX. -/
def execReqMaskedWriteRx (port : Nat) (f : Flit) (s : State) : Host.Outcome State Fault Refusal := rxRow s port f (f.typ == 2 && f.op == 2)

/-- Meaning of REQ_ATOMIC_RX. -/
def execReqAtomicRx (port : Nat) (f : Flit) (s : State) : Host.Outcome State Fault Refusal := rxRow s port f (f.typ == 2 && f.op == 3)

/-- Meaning of RESP_READ_DATA_RX. -/
def execRespReadDataRx (port : Nat) (f : Flit) (s : State) : Host.Outcome State Fault Refusal := rxRow s port f (f.typ == 3 && f.op == 0)

/-- Meaning of RESP_WRITE_ACK_RX. -/
def execRespWriteAckRx (port : Nat) (f : Flit) (s : State) : Host.Outcome State Fault Refusal := rxRow s port f (f.typ == 3 && f.op == 1)

/-- Meaning of RESP_ATOMIC_RESULT_RX. -/
def execRespAtomicResultRx (port : Nat) (f : Flit) (s : State) : Host.Outcome State Fault Refusal := rxRow s port f (f.typ == 3 && f.op == 2)

/-- Meaning of RESP_ERROR_RX. -/
def execRespErrorRx (port : Nat) (f : Flit) (s : State) : Host.Outcome State Fault Refusal := rxRow s port f (f.typ == 3 && f.op == 3)

/-- Meaning of IDLE_RX. -/
def execIdleRx (port : Nat) (f : Flit) (s : State) : Host.Outcome State Fault Refusal := rxRow s port f (f.typ == 0)

/-- Meaning of NAK_RX. -/
def execNakRx (port : Nat) (f : Flit) (s : State) : Host.Outcome State Fault Refusal := rxRow s port f (isCtl f 3)

/-- Meaning of AUDIT_RX. -/
def execAuditRx (port : Nat) (f : Flit) (s : State) : Host.Outcome State Fault Refusal := rxRow s port f (isCtl f 4)

/-- Meaning of RECLAIM_REQ_RX. -/
def execReclaimReqRx (port : Nat) (f : Flit) (s : State) : Host.Outcome State Fault Refusal := rxRow s port f (isCtl f 5)

/-- Meaning of RECLAIM_REP_RX. -/
def execReclaimRepRx (port : Nat) (f : Flit) (s : State) : Host.Outcome State Fault Refusal := rxRow s port f (isCtl f 6)

/-- Meaning of IDENT_RX. -/
def execIdentRx (port : Nat) (f : Flit) (s : State) : Host.Outcome State Fault Refusal := rxRow s port f (isCtl f 7)

/-- Meaning of DEPART_RX. -/
def execDepartRx (port : Nat) (f : Flit) (s : State) : Host.Outcome State Fault Refusal := rxRow s port f (isCtl f 8)

/-- Meaning of ROUTED_RX. -/
def execRoutedRx (port : Nat) (f : Flit) (s : State) : Host.Outcome State Fault Refusal := rxRow s port f (isCtl f 10)

/-- Meaning of HEARTBEAT_RX. -/
def execHeartbeatRx (port : Nat) (f : Flit) (s : State) : Host.Outcome State Fault Refusal := rxRow s port f (isTwinMsg f 1)

/-- Meaning of JEND_RX. -/
def execJendRx (port : Nat) (f : Flit) (s : State) : Host.Outcome State Fault Refusal := rxRow s port f (isTwinMsg f 2)

/-- Meaning of JACK_RX. -/
def execJackRx (port : Nat) (f : Flit) (s : State) : Host.Outcome State Fault Refusal := rxRow s port f (isTwinMsg f 3)

/-- Meaning of PAIR_RX. -/
def execPairRx (port : Nat) (f : Flit) (s : State) : Host.Outcome State Fault Refusal := rxRow s port f (isTwinMsg f 4)

/-- Meaning of UNPAIR_RX. -/
def execUnpairRx (port : Nat) (f : Flit) (s : State) : Host.Outcome State Fault Refusal := rxRow s port f (isCtl f 9 && f.body == [])

/-- Meaning of REGION_RX. -/
def execRegionRx (port : Nat) (f : Flit) (s : State) : Host.Outcome State Fault Refusal := rxRow s port f (isTwinMsg f 6)

/-- Meaning of TWIN_HB_RX. -/
def execTwinHbRx (port : Nat) (f : Flit) (s : State) : Host.Outcome State Fault Refusal := rxRow s port f (isTwinRouted f 1)

/-- Meaning of TWIN_TAKE_RX. -/
def execTwinTakeRx (port : Nat) (f : Flit) (s : State) : Host.Outcome State Fault Refusal := rxRow s port f (isTwinRouted f 2)

/-- Meaning of TWIN_RELEASE_RX. -/
def execTwinReleaseRx (port : Nat) (f : Flit) (s : State) : Host.Outcome State Fault Refusal := rxRow s port f (isTwinRouted f 3)

/-! ### Frames (R482, R497, R515, R516, R529) -/

/-- The flit whose header is these 16 bytes, without its body. -/
def flitOf (bs : List Byte) : Flit :=
  let w := bytesWords bs
  let a := nth w 0
  let b := nth w 1
  let d := nth w 3
  { typ := bitsN a 31 29, lines := bitsN a 28 23, op := bitsN a 22 20, dtype := bitsN a 19 18, retCount := bitsN a 17 12, seq := bitsN a 11 0,
    dest := bitsN b 31 21, src := bitsN b 20 10, retVc := bitsN b 9 8, hchk := bitsN b 7 0, addr := nth w 2 + bitsN d 31 23 * 2 ^ 32,
    ack := bitsN d 22 11, tag := bitsN d 10 0, body := [] }

/-- Take whole flits from the stream of a port. False when a header is bad: the stream is to be found anew (R520). -/
def eatFlits : Nat → Chip → Nat → Chip × Bool
  | 0, m, _ => (m, true)
  | n + 1, m, p =>
    let st := (port m p).stream
    if st.length < 16 then (m, true)
    else
      let h := flitOf (st.take 16)
      if !flitOk h then (modPort m p (fun q => { q with stream := [], synced := false }), false)
      else if st.length < 16 + bodyLen h then (m, true)
      else
        eatFlits n (rxFlit p 0 { h with body := (st.drop 16).take (bodyLen h) } (modPort m p (fun q => { q with stream := st.drop (16 + bodyLen h) }))) p

/-- The FIRST that the next good message must have, by the flit that the stream is in. -/
def firstDue (st msg : List Byte) : Nat :=
  if st = [] then 2
  else
    let o := 16 + bodyLen (flitOf ((st ++ msg.drop 2).take 16)) - st.length + 2
    if o < 2570 then o else 0xFFFF

/-- One lane's message joins the stream (R515, R516). False when it is bad or its FIRST is not the one due. -/
def laneMsg (m : Chip) (p : Nat) (good : Bool) (msg : List Byte) : Chip × Bool :=
  let q := port m p
  let first := leNat (msg.take 2)
  if !good then (modPort m p (fun q => { q with stream := [], synced := false }), false)
  else if first < 2 then (m, true)
  else if q.synced && first == firstDue q.stream msg then eatFlits 200 (modPort m p (fun q => { q with stream := q.stream ++ (msg.drop 2).take 2568 })) p
  else if first ≤ 2569 then
    let r := eatFlits 200 (modPort m p (fun q => { q with stream := (msg.drop first).take (2570 - first), synced := true })) p
    (r.1, r.2 && !q.synced)
  else (modPort m p (fun q => { q with stream := [], synced := false }), !q.synced)

/-- Sixteen good frames end LOCK (R529): a link that returns from R531 is ACTIVE, reclaims and replays; any other exchanges IDENT. -/
def lockGood (m : Chip) (p : Nat) : Chip :=
  if (port m p).retrained then
    modPort (linkUp m p) p (fun q => { q with retrained := false, reclaim := true, reclaimSent := false, replayDue := if q.replay = [] then none else some 0, lastAck := m.ns })
  else modPort (setLink m p 4) p (fun q => { q with exFrames := 0 })

/-- A port frame is complete, or gives way to the next: its lanes' messages in lane order. -/
def portFrame (m : Chip) (p : Nat) : Chip :=
  let rx := (port m p).rx
  let m0 := modPort m p (fun q => { q with rx := [] })
  let r := ((List.range 4).filter (tb (lanesUsed m p))).foldl (fun (a : Chip × Bool) n =>
    let b := match rx.find? (fun x => x.1 == n) with
      | some x => laneMsg a.1 p x.2.1 x.2.2
      | none => laneMsg a.1 p false []
    (b.1, a.2 && b.2)) (m0, true)
  if linkSt r.1 p ≠ 3 then r.1
  else
    let n := if r.2 then (port r.1 p).goodFrames + 1 else 0
    let m1 := modPort r.1 p (fun q => { q with goodFrames := n })
    if 16 ≤ n then lockGood m1 p else m1

/-- A lane's message takes its place in the port frame of its SEQ. -/
def placeMsg (m : Chip) (p n seq : Nat) (good : Bool) (msg : List Byte) : Chip :=
  let q := port m p
  let m0 := if q.rx ≠ [] ∧ q.rxNo ≠ seq then portFrame m p else m
  let m1 := modPort m0 p (fun q => { q with rxNo := seq, rx := q.rx.filter (fun x => x.1 != n) ++ [(n, good, msg)] })
  if ((List.range 4).filter (tb (lanesUsed m1 p))).all (fun i => (port m1 p).rx.any (fun x => x.1 == i)) then portFrame m1 p else m1

/-- The far-end loop is entered (R497): LOOP_REQ while the port carries no traffic, and FAR_LOOP_OK. -/
def loopReq (m : Chip) (p : Nat) (on : Bool) : Chip :=
  if on && (((port m p).farLoop) || (!linkLive m p && fon m LNK_CTRL_FAR_LOOP_OK)) then modPort m p (fun q => { q with farLoop := true, loopT0 := m.ns }) else m

/-- LANE_FRAME_RECEIVE: the header's 32 bits, the symbol errors of the four codewords, and the message. -/
def doLaneFrameReceive (p n hdr : Nat) (errs : List Nat) (msg : List Byte) (m : Chip) : Chip :=
  let info := hdr / 65536
  let hdrOk := info + hdr % 65536 == 0xFFFF
  let bad := if hdrOk then ((List.range 4).filter (fun i => decide (15 < nth errs i))).length else 4
  let corr := if hdrOk then ((List.range 4).map (fun i => if nth errs i ≤ 15 then nth errs i else 0)).foldl (· + ·) 0 else 0
  let m1 := modLane (bump (bump m (LNKp_Ln_CE_CTR p n) corr) (LNKp_Ln_UE_CTR p n) bad) p n (fun l => { l with ueEpoch := l.ueEpoch + bad })
  let m2 := if hdrOk then loopReq (restoreDone (modPort m1 p (fun q => { q with farOk := bitsN info 3 0 })) p) p (tb info 4) else m1
  if !(tb (lanesUsed m2 p) n) || decide (linkSt m2 p < 3) then m2
  else if hdrOk then (if tb info 5 then m2 else placeMsg m2 p n (bitsN info 15 10) (bad == 0) msg)
  else placeMsg m2 p n (if (port m2 p).rx = [] then ((port m2 p).rxNo + 1) % 64 else (port m2 p).rxNo) false []

/-- Meaning of LANE_FRAME_RECEIVE: the lane is in frame lock. -/
def execLaneFrameReceive (port lane : Nat) (hdr : Word) (errs : List Nat) (msg : List Byte) (s : State) : Host.Outcome State Fault Refusal :=
  runIf s (fun m => laneOk port lane && decide (4 ≤ laneSt m port lane) && laneSt m port lane != 6) (doLaneFrameReceive port lane hdr.toNat errs msg)

end Sys2Proof.Machine
end

