-- ==== Sys2Proof/Machine/Despatch.lean ====
section
/-! DEFINITION. Despatch's wagons and the journal's pages (R375, R712). -/

namespace Sys2Proof.Machine

/-- A JOURNAL window is ACTIVE. -/
def journaling (m : Chip) (k : Nat) : Bool := (rowAt m k).any (fun r => rowKind r.w == 7 && r.st == .active && decide (now m < rowEnd r))

/-- DESPATCH_WAGON: up to 32 lines of base die d, or the journal's next page. -/
def doDespatchWagon (k d : Nat) (m : Chip) : Chip := if despatching m k then sendLines 32 k d m else if journaling m k then journalSend k d m else m

/-- Meaning of DESPATCH_WAGON. -/
def execDespatchWagon (row die : Nat) (s : State) : Host.Outcome State Fault Refusal := runIf s (fun _ => decide (die < 2)) (doDespatchWagon row die)

end Sys2Proof.Machine
end

