-- ==== Sys2Proof/Machine/D2d.lean ====
section
/-! DEFINITION. Die-to-die links and clocks: lane maps, checks, the loss of a die, role-fatal events and the D2D commands (R554 to R583, R767, R770). -/

namespace Sys2Proof.Machine

/-! ### Lane maps (R563 to R568) -/

/-- The entry of a bundle or module without a failed lane: full width, no spare used, in the role that R567 gives it when every other is full. -/
def plainEntry (u e : Nat) : Nat :=
  let role := if u ≠ 8 then (if e < 256 then e else e - 256) else if e < 6 then 48 + e else e - 6
  0x7F * 2 ^ 23 + 0x7F * 2 ^ 16 + (if u = 8 ∧ 54 ≤ e then 0 else 2 ^ 15 + role)

/-- Fields of an entry: WIDTH. -/
def eWidth (w : Nat) : Nat := bitsN w 31 30
/-- SPARE0 or SPARE1. -/
def eSpare (w i : Nat) : Nat := bitsN w (22 + 7 * i) (16 + 7 * i)
/-- ASSIGNED. -/
def eUsed (w : Nat) : Bool := tb w 15
/-- ROLE. -/
def eRole (w : Nat) : Nat := bitsN w 7 0

/-- The entry in force. -/
def mapEntry (m : Chip) (u dir e : Nat) : Nat := tget 0 (eKey dir e) (d2dUnit m u).map ^^^ plainEntry u e

/-- Set the entry in force, and save it. -/
def setEntry (m : Chip) (u dir e w : Nat) : Chip :=
  modUnit (recMark m) u (fun x => { x with map := tput 0 (eKey dir e) (w ^^^ plainEntry u e) x.map, saved := tput 0 (eKey dir e) (w ^^^ plainEntry u e) x.saved })

/-- The entries of one direction. -/
def mapDir (m : Chip) (u dir : Nat) : List Nat := (List.range (mapSize u)).map (mapEntry m u dir)

/-- Indices of entries of some widths, ascending. -/
def byWidth (es : List Nat) (from_ till : Nat) (ws : List Nat) : List Nat := (List.range (till - from_)).filterMap (fun i => if ws.contains (eWidth (nth es (from_ + i))) then some (from_ + i) else none)

/-- Deal the data bundles to positions j on: full ones first, then half ones in pairs (R567). -/
def dealData : Nat → Nat → List Nat → List Nat → List (Nat × Nat)
  | 0, _, _, _ => []
  | n + 1, j, f :: fs, hs => (f, j) :: dealData n (j + 1) fs hs
  | n + 1, j, [], a :: b :: hs => (a, j) :: (b, j) :: dealData n (j + 1) [] hs
  | _ + 1, _, [], _ => []

/-- assign_roles (R567): the role of each entry that gets one. -/
def dealRoles (u : Nat) (es : List Nat) : List (Nat × Nat) :=
  if u = 8 then (byWidth es 0 56 [0] ++ byWidth es 0 56 [1, 2]).zip (((List.range 6).map (· + 48)) ++ List.range 48)
  else ((byWidth es 256 288 [0] ++ byWidth es 256 288 [1, 2]).zip (List.range 32)) ++ dealData 256 0 (byWidth es 0 256 [0]) (byWidth es 0 256 [1, 2])

/-- Assign roles in both directions of a unit. -/
def assignRoles (m : Chip) (u : Nat) : Chip :=
  [0, 1].foldl (fun c dir =>
    let es := mapDir c u dir
    let rs := dealRoles u es
    (List.range (mapSize u)).foldl (fun c e =>
      let w := nth es e - nth es e % 2 ^ 16
      setEntry c u dir e (match rs.find? (fun r => r.1 == e) with
        | some r => w + 2 ^ 15 + r.2
        | none => w)) c) m

/-- The entries that serve a role of a direction, data or tag. -/
def serving (es : List Nat) (tag : Bool) (role : Nat) : List Nat :=
  (if tag then es.drop 256 else es.take 256).filter (fun w => eUsed w && eRole w == role && eWidth w != 3)

/-- A position is filled at full rate: by a full bundle or a pair of halves. -/
def posFull (ws : List Nat) : Bool := ws.any (fun w => eWidth w == 0) || decide (2 ≤ ws.length)

/-- A channel has a position and a tag bundle (R568). -/
def chanFormed (es : List Nat) (c : Nat) : Bool := serving es true c != [] && (List.range 8).any (fun q => serving es false (c + 32 * q) != [])

/-- A channel runs at 256 GB/s (R568). -/
def chanFull (es : List Nat) (c : Nat) : Bool :=
  (serving es true c).any (fun w => eWidth w == 0) && (List.range 8).all (fun q => posFull (serving es false (c + 32 * q))) && chanFormed es ((c + 16) % 32)

/-- The status fields of a unit's map (R583). -/
def mapStats (m : Chip) (u : Nat) : Chip :=
  let both := [mapDir m u 0, mapDir m u 1]
  if u = 8 then
    let all := both.flatten
    let count (p : Nat → Bool) : Nat := (all.filter p).length
    let spares := (both.map (fun es => (es.filter (fun w => !eUsed w && eWidth w == 0)).length)).foldl min 2
    fset (fset (fset m D2D_CPL_STAT_SPARES spares) D2D_CPL_STAT_HALF (count (fun w => eWidth w == 1 || eWidth w == 2))) D2D_CPL_STAT_OFF (count (fun w => eWidth w == 3))
  else
    let half := (both.flatten.filter (fun w => eUsed w && (eWidth w == 1 || eWidth w == 2))).length
    let slow := ((List.range 32).filter (fun c => !both.all (fun es => chanFull es c))).length
    fset (fset m (D2D_CDd_STAT_HALF u) (sat 255 half)) (D2D_CDd_STAT_SLOW u) slow

/-- The search of R565: the map starts from the fused spares. No row of the table brings the search's findings, so it finds no further lane. -/
def searchUnit (m : Chip) (u : Nat) : Chip :=
  mapStats (assignRoles (modUnit (recMark m) u (fun x => { x with map := x.fused, saved := x.fused, badSpare := [] })) u) u

/-- A saved entry keeps R563. -/
def entryFormOk (u e w : Nat) : Bool :=
  let lanes_ := if u = 8 then 0 else if e < 256 then 64 else 48
  [0, 1].all (fun i => eSpare w i == 0x7F || decide (eSpare w i < lanes_)) && bitsN w 14 8 == 0 &&
  (!eUsed w || decide (eRole w < (if u = 8 then 54 else if e < 256 then 256 else 32)))

/-- Roles are named twice, but for the two halves of one data position. -/
def roleTwice (u : Nat) (es : List Nat) : Bool :=
  let groups := if u = 8 then [es] else [es.take 256, es.drop 256]
  (groups.zipIdx).any (fun (g : List Nat × Nat) => (List.range 256).any (fun r =>
    let ws := g.1.filter (fun w => eUsed w && eRole w == r)
    decide (1 < ws.length) && !(u != 8 && g.2 == 0 && ws.length == 2 && ws.all (fun w => eWidth w == 1 || eWidth w == 2))))

/-- The verification of R566: a saved map of good form is in force again, any other is searched anew. -/
def verifyUnit (m : Chip) (u : Nat) : Chip :=
  let es (dir : Nat) : List Nat := (List.range (mapSize u)).map (fun e => tget 0 (eKey dir e) (d2dUnit m u).saved ^^^ plainEntry u e)
  let ok := [0, 1].all (fun dir => ((es dir).zipIdx).all (fun (w : Nat × Nat) => entryFormOk u w.2 w.1) && !roleTwice u (es dir))
  if ok then mapStats (assignRoles (modUnit m u (fun x => { x with map := x.saved })) u) u else searchUnit m u

/-- Some channel of a die can be formed in both directions. -/
def dieFormed (m : Chip) (d : Nat) : Bool := [0, 1].all (fun dir => (List.range 32).any (chanFormed (mapDir m d dir)))

/-! ### Lane checks (R571 to R574) -/

/-- Lanes of an entry, its spares not counted. -/
def laneCount (u e : Nat) : Nat := if u = 8 then 16 else if e < 256 then 64 else 48

/-- The lane is in traffic's half of the entry. -/
def laneInUse (n w l : Nat) : Bool := eWidth w == 0 || (eWidth w == 1 && decide (l < n / 2)) || (eWidth w == 2 && decide (n / 2 ≤ l))

/-- The width that is left when lanes fail. -/
def leftWidth (n w : Nat) (bad : List Nat) : Nat :=
  let low := (eWidth w == 0 || eWidth w == 1) && bad.all (fun l => decide (n / 2 ≤ l))
  let high := (eWidth w == 0 || eWidth w == 2) && bad.all (fun l => decide (l < n / 2))
  if low && high then 0 else if low then 1 else if high then 2 else 3

/-- One failed lane of a bundle meets its spares (R565): the entry, the spares found bad, the spares taken, and the lane when none is free. Lanes n and n + 1 are the
spares themselves. -/
def repairLane (n : Nat) (a : Nat × List Nat × Nat × List Nat) (l : Nat) : Nat × List Nat × Nat × List Nat :=
  let (w, badSp, used, lost) := a
  let take (w : Nat) (badSp : List Nat) (x : Nat) : Nat × List Nat × Nat × List Nat :=
    if eSpare w 0 = 0x7F ∧ ¬ badSp.contains 0 then (setBitsN w 22 16 x, badSp, used + 1, lost)
    else if eSpare w 1 = 0x7F ∧ ¬ badSp.contains 1 then (setBitsN w 29 23 x, badSp, used + 1, lost)
    else (w, badSp, used, lost ++ [x])
  if l < n then (if eSpare w 0 = l ∨ eSpare w 1 = l ∨ ¬ laneInUse n w l then a else take w badSp l)
  else
    let i := l - n
    let x := eSpare w i
    let w1 := setBitsN w (22 + 7 * i) (16 + 7 * i) 0x7F
    if x = 0x7F then (w, badSp ++ [i], used, lost) else take w1 (badSp ++ [i]) x

/-- A unit's status bit MAP_CHANGE. -/
def mapChange (m : Chip) (u : Nat) : Chip := if u = 8 then fset m D2D_CPL_STAT_MAP_CHANGE 1 else fset m (D2D_CDd_STAT_MAP_CHANGE u) 1

/-- The entry takes a narrower width (R574). -/
def narrowTo (m : Chip) (u dir e w : Nat) : Chip :=
  let m1 := bump (mapChange (setEntry m u dir e w) u) (if eWidth w = 3 then D2D_OFF_CTR else D2D_HALF_CTR) 1
  notice (modUnit m1 u (fun x => { x with narrowed := x.narrowed + 1 })) 4 [u + dir * 2 ^ 12 + e * 2 ^ 16 + eWidth w * 2 ^ 30]

/-- The failing lanes of a bundle of a compute die. -/
def failBundle (m : Chip) (u dir e : Nat) (lanes_ : List Nat) : Chip :=
  let n := laneCount u e
  let sp := [0, 1].filter (fun i => tget false (2 * eKey dir e + i) (d2dUnit m u).badSpare)
  let w0 := mapEntry m u dir e
  let r := lanes_.foldl (repairLane n) (w0, sp, 0, [])
  let w1 := setBitsN r.1 31 30 (leftWidth n r.1 r.2.2.2)
  let m1 := modUnit (bump m D2D_REPAIR_CTR r.2.2.1) u (fun x => { x with
    repaired := x.repaired + r.2.2.1, badSpare := r.2.1.foldl (fun t i => tput false (2 * eKey dir e + i) true t) x.badSpare })
  if eWidth w1 = eWidth w0 then setEntry m1 u dir e w1 else narrowTo m1 u dir e w1

/-- The failing lanes of a coupler module: a free spare module takes its role, else it narrows. -/
def failModule (m : Chip) (dir e : Nat) (lanes_ : List Nat) : Chip :=
  let w := mapEntry m 8 dir e
  let w1 := setBitsN w 31 30 (leftWidth 16 w (lanes_.filter (laneInUse 16 w)))
  if eWidth w1 = eWidth w then m
  else match (if eUsed w then (List.range 56).find? (fun s => s != e && !eUsed (mapEntry m 8 dir s) && eWidth (mapEntry m 8 dir s) == 0) else none) with
    | some s =>
      let m1 := setEntry (setEntry m 8 dir s (mapEntry m 8 dir s + w % 2 ^ 16)) 8 dir e (w1 - w1 % 2 ^ 16)
      modUnit (bump m1 D2D_REPAIR_CTR 1) 8 (fun x => { x with repaired := x.repaired + 1 })
    | none => narrowTo m 8 dir e w1

/-- The results of a check take effect (R573). -/
def applyCheck (m : Chip) (u : Nat) : Chip :=
  let fs := (d2dUnit m u).fails
  let keys := (fs.map (fun f => (f.1, f.2.1))).eraseDups
  let m0 := modUnit m u (fun x => { x with repaired := 0, narrowed := 0, fails := [] })
  mapStats (keys.foldl (fun c k =>
    let ls := (fs.filter (fun f => f.1 == k.1 && f.2.1 == k.2)).map (fun f => f.2.2)
    if u = 8 then failModule c k.1 k.2 ls else failBundle c u k.1 k.2 ls) m0) u

/-- A lane is under check in a turn (R571, R572). -/
def underCheck (m : Chip) (u turn : Nat) (f : Nat × Nat × Nat) : Bool :=
  let (dir, e, l) := f
  let w := mapEntry m u dir e
  if u = 8 then
    let sp := (List.range 56).filter (fun s => !eUsed (mapEntry m 8 dir s) && eWidth (mapEntry m 8 dir s) == 0)
    decide (e < 56) && decide (l < 16) &&
    (if eUsed w then (if eRole w < 48 then eRole w % 4 == turn else decide (turn < 3) && eRole w / 2 == 24 + turn && decide (eRole w % 2 < sp.length)) else turn == 3)
  else if 288 ≤ e ∨ laneCount u e + 2 ≤ l then false
  else if l ≥ laneCount u e then true
  else if e < 256 then (if eUsed w then eRole w / 32 % 2 == 1 - turn else true)
  else (decide (24 ≤ l)) == (turn == 0)

/-- The lane check of a unit that is ACTIVE: its row. -/
def checkRow (m : Chip) (u : Nat) : Option (Nat × TtRow) :=
  (rowsOf m).find? (fun e => rowKind e.2.w == 5 && rowSub e.2.w == (if u = 8 then 4 else 3) && e.2.st == .active && (rowClaims e.2.w e.2.par).contains (3, u))

/-- LANE_CHECK_TURN: the turn has compared its bits and reports the lanes with at least 2 errors. -/
def doLaneCheckTurn (u : Nat) (fails : List (Nat × Nat × Nat)) (m : Chip) : Chip :=
  let t := (d2dUnit m u).turn
  modUnit m u (fun x => { x with turn := t + 1, fails := x.fails ++ (fails.filter (fun f => decide (f.1 < 2) && underCheck m u t f)) })

/-- The turn under way has lasted the 1,024 lt of its compare, or the whole of a coupler's turn. -/
def turnDone (m : Chip) (u : Nat) : Bool :=
  let t := (d2dUnit m u).turn
  (checkRow m u).any (fun e => if u = 8 then decide (t < 4) && decide (e.2.start + (t + 1) * 1024 ≤ now m) else decide (t < 2) && decide (e.2.start + t * 2048 + 1024 ≤ now m))

/-- Meaning of LANE_CHECK_TURN. -/
def execLaneCheckTurn (unit : Nat) (fails : List (Nat × Nat × Nat)) (s : State) : Host.Outcome State Fault Refusal :=
  runIf s (fun m => decide (unit < 9) && turnDone m unit) (doLaneCheckTurn unit fails)

/-- A lane check's window has ended: its results, and the answer of a D2D.CHECK whose one-shot row it is (R573, R581). -/
def checkEnd (m : Chip) (u : Nat) (oneShot : Bool) : Chip :=
  let m1 := modUnit (applyCheck m u) u (fun x => { x with turn := 0 })
  let x := d2dUnit m1 u
  match (if oneShot then x.checkMb else none) with
  | some i => respond (modUnit m1 u (fun x => { x with checkMb := none })) i 0 [sat 255 x.repaired * 256 + sat 255 x.narrowed, elapsed m1 (cmdT0 m1 i)]
  | none => m1

/-- The first epoch from e on without a lane-check occurrence of another die (R581). -/
def freeEpoch (m : Chip) (d : Nat) : Nat → Nat → Nat
  | 0, e => e
  | n + 1, e =>
    let meets (r : TtRow) : Bool :=
      let s := r.start / 2 ^ 20
      rowKind r.w == 5 && rowSub r.w == 3 && !((rowClaims r.w r.par).contains (3, d)) && (s == e || (decide (s ≤ e) && rowPeriod r.w != 0 && (e - s) % 256 == 0))
    if (rowsOf m).any (fun x => meets x.2) then freeEpoch m d n (e + 1) else e

/-- Post the lane-check possession of a die (R92, R581). -/
def postCheck (m : Chip) (d : Nat) : Chip :=
  postMioto m (miotoWords 5 3 (freeEpoch m d 256 (now m / 2 ^ 20 + 1) * 2 ^ 20 + 0x10000) 64 (256 * 16384) 0 50 3 d)

/-! ### The loss of a die (R578) and role-fatal events (R579) -/

/-- The bits of its line that a request may change. -/
def reqMask (r : Req) : Nat :=
  match r.kind with
  | .read => 0
  | .partialWrite => byteMask r.mask
  | .atomic => (2 ^ (8 * r.size) - 1) * 2 ^ (8 * r.at_)
  | _ => 2 ^ 1024 - 1

/-- A request ends that its home has not acknowledged: it may have been performed or not. -/
def loosenReq (m : Chip) (r : Req) : Chip := if r.kind = .read then m else loosen m r.line (reqMask r) (r.kind == .write)

/-- The stores and atomics of a lost die that no home has acknowledged: each may have been performed or not. -/
def loseStores (m : Chip) (d : Nat) : Chip :=
  let mine := m.reqs.filter (fun r => (whoCore r.who).any (fun c => dieOf c == d))
  dropReqs (mine.foldl loosenReq m) (fun r => (whoCore r.who).any (fun c => dieOf c == d))

/-- Every block of a die ends CORE_LOST and its cores are empty (R166, R239). -/
def loseBlocks (m : Chip) (d : Nat) : Chip :=
  let bs := (m.cores.filter (fun e => dieOf e.1 == d)).flatMap (fun e => e.2.blocks.filterMap (fun b => b.2.map (fun _ => (e.1, b.1))))
  let m1 := bs.foldl (fun c x => endBlk c x.1 x.2 .lost) m
  { m1 with cores := m1.cores.filter (fun e => dieOf e.1 != d), code := setAt m1.code d [],
            resps := m1.resps.filter (fun r => !(whoCore r.who).any (fun c => dieOf c == d)) }

/-- Take a die out: its channels are fenced, its blocks end, its lane-check rows retire (R578). cause 4 stands for an orderly D2D.DIE. -/
def fenceDie (m : Chip) (d cause : Nat) : Chip :=
  let m1 := loseBlocks (loseStores (fset m (D2D_CDd_STAT_STATE d) (if cause = 2 ∨ cause = 4 then 1 else 2)) d) d
  let m2 := (rowsOf m1).foldl (fun c e => if e.2.mioto && rowKind e.2.w == 5 && rowSub e.2.w == 3 && rowIndex e.2.w == d then setRow c e.1 none else c) m1
  let m3 := modUnit (fset m2 BUF_CTRL_SIDING_EN 1) d (fun x => { x with fencing := true, cause := cause, taken := [], fails := [], turn := 0 })
  let m4 := if cause = 4 then m3 else bump m3 D2D_LOST_CTR 1
  match (d2dUnit m4 d).checkMb with
  | some i => respond (modUnit m4 d (fun x => { x with checkMb := none })) i 0 [0, elapsed m4 (cmdT0 m4 i)]
  | none => m4

/-- A compute die is lost: 0 reset, 1 clock, 2 forced, 3 no channel. -/
def loseDie (d cause : Nat) (m : Chip) : Chip := if dieUp m d then fenceDie m d cause else m

/-- Meaning of COMPUTE_DIE_LOST. -/
def execComputeDieLost (die cause : Nat) (s : State) : Host.Outcome State Fault Refusal :=
  runIf s (fun _ => decide (die < 8) && (cause == 0 || cause == 1 || cause == 3)) (fun m => loseDie die cause (if cause = 1 then fset m (D2D_CDd_STAT_CLK_LOST die) 1 else m))

/-- DIE_FENCE_COMPLETE: the tablets are whole again, the siding has drained, the host hears of the loss. -/
def doDieFenceComplete (d : Nat) (m : Chip) : Chip :=
  let x := d2dUnit m d
  let m1 := modUnit m d (fun x => { x with fencing := false, taken := [], dieMb := none, reclaim := false })
  let m2 := if m1.d2d.any (fun y => y.fencing || y.testMb.isSome) then m1 else fset m1 BUF_CTRL_SIDING_EN 0
  let m3 := bump (if x.cause = 4 then m2 else notice m2 5 [d + x.cause * 256]) D2D_RECLAIM_CTR 1
  match x.dieMb with
  | some i => respond (sizeRefresh m3) i 0 [nth (sizeState m3) 2]
  | none => m3

/-- Meaning of DIE_FENCE_COMPLETE: nothing is parked in the siding. -/
def execDieFenceComplete (die : Nat) (s : State) : Host.Outcome State Fault Refusal :=
  runIf s (fun m => decide (die < 8) && (d2dUnit m die).fencing && m.buf.siding.all (·.isEmpty)) (doDieFenceComplete die)

/-- Control memory of BD-N keeps the fatal record (R759): CLASS 2, SOURCE 10, the KIND and the base die, with the time. -/
def fatalRecord (m : Chip) (base kind : Nat) : Chip :=
  let ws := [2 * 2 ^ 30 + 10 * 2 ^ 24 + kind * 2 ^ 16 + base * 2 ^ 8, 0, 0, 0, 0, 0, 0, csr m ERR_SEQ_SEQ.off + 1, 0, 0] ++ lohi (now m)
  let m1 := fset m ERR_SEQ_SEQ (csr m ERR_SEQ_SEQ.off + 1)
  fset ((List.range 12).foldl (fun c i => setCsr c (0xD0080 + 4 * i) (nth ws i)) m1) ERR_STAT_FATAL_VALID 1

/-- A role-fatal event (R579): every transmitter stops, no host request is answered, nothing more is done. KIND 11 reset, 12 clock, 13 reference. -/
def roleFatal (base kind : Nat) (m : Chip) : Chip :=
  let m1 := fatalRecord m base kind
  let m2 := (List.range 36).foldl (fun c p => setLanes (modPort c p (fun q => { q with ctl := [], vcq := [[], [], [], []], txMsgs := [], txOut := [], txRest := [] })) p 15 0) m1
  let m3 := fset m2 MB_GLOBAL_READY 0
  { m3 with start := { m3.start with phase := 7, fatalPosted := false }, err := { m3.err with due := [] } }

/-- Meaning of ROLE_FATAL: a base die resets, or loses BCLK or a reference. -/
def execRoleFatal (base kind : Nat) (s : State) : Host.Outcome State Fault Refusal :=
  runIf s (fun _ => decide (base < 2) && decide (11 ≤ kind) && decide (kind ≤ 13)) (roleFatal base kind)

/-- CLOCK_LOSS (R577): clocks 0 to 7 are the forwarded clocks of the compute dies; 8 the reference input and 9 BCLK at BD-N; 10 BCLK at BD-S; 11 and 12 a PHY
reference at BD-N and BD-S. -/
def doClockLoss (c : Nat) (m : Chip) : Chip :=
  if c < 8 then loseDie c 1 (fset (fset m (D2D_CDd_STAT_CLK_LOST c) 1) D2D_CLK_STAT_CD_CLK_OK (fget m D2D_CLK_STAT_CD_CLK_OK - (fget m D2D_CLK_STAT_CD_CLK_OK &&& 2 ^ c)))
  else if c = 8 then roleFatal 0 13 (fset m D2D_CLK_STAT_REF_OK 0)
  else if c = 10 then roleFatal 1 12 (fset m D2D_CLK_STAT_BDS_BCLK_OK 0)
  else roleFatal (if c = 12 then 1 else 0) (if c = 9 then 12 else 13) m

/-- Meaning of CLOCK_LOSS. -/
def execClockLoss (clock : Nat) (s : State) : Host.Outcome State Fault Refusal := runIf s (fun _ => decide (clock < 13)) (doClockLoss clock)

/-! ### Audits and reclaim (R559, R767, R770) -/

/-- The tablets that a unit's requests and answers hold, by key. -/
def linkHeld (m : Chip) (u : Nat) : Tab Nat :=
  let ks := (m.reqs.flatMap linkKeys ++ m.resps.flatMap (fun r => returnKeys r.who r.line)).filter (fun k => k.1 == u)
  ks.foldl (fun t k => tmod 0 k.2 (· + 1) t) []

/-- Start the reclaim of a unit's tablets. -/
def linkReclaimUnit (m : Chip) (u : Nat) : Chip := modUnit m u (fun x => { x with reclaim := true })

/-- A unit's audit has failed. -/
def d2dAuditFail (m : Chip) (u : Nat) : Chip :=
  let m1 := bump (if u = 8 then fset m D2D_CPL_STAT_AUDIT_FAIL 1 else fset m (D2D_CDd_STAT_AUDIT_FAIL u) 1) D2D_AUDIT_CTR 1
  let r := auditRun (notice m1 11 [4 + u * 256]) (1024 + u)
  if r.1 then (if u = 8 then linkReclaimUnit (recErr r.2 1 10 3 0 ownMioto 0 0 0 0 0) 8 else loseDie u 2 (recErr r.2 1 10 3 (u / 4) ownMioto 0 0 0 0 0))
  else if fon m D2D_CTRL_AUTO_RECLAIM then linkReclaimUnit r.2 u else r.2

/-- The die links' part of an epoch boundary. -/
def d2dAuditEpoch (m : Chip) : Chip :=
  if !fon m D2D_CTRL_AUDIT_EN then m
  else (List.range 9).foldl (fun c u =>
    if (d2dUnit c u).reclaim || (u != 8 && !dieUp c u) || (d2dUnit m u).taken == linkHeld m u then c else d2dAuditFail c u) m

/-- R570: a unit with too many disagreements in the epoch has its next lane check in the next epoch in which it fits. -/
def parityEpoch (m : Chip) : Chip :=
  (List.range 9).foldl (fun c u =>
    let soon := decide (fget c D2D_CTRL_PARITY_MAX < (d2dUnit c u).parity)
    let c1 := modUnit c u (fun x => { x with parity := 0 })
    match (if soon then (rowsOf c1).find? (fun e => e.2.mioto && e.2.st == .pending && rowKind e.2.w == 5 && rowSub e.2.w == (if u = 8 then 4 else 3) && (rowClaims e.2.w e.2.par).contains (3, u)) else none) with
    | some (k, r) => setRow c1 k (some { r with start := fitStart 4096 c1 r ((now c1 / 2 ^ 20 + 1) * 2 ^ 20 + 0x10000) (2 ^ 20) })
    | none => c1) m

/-- Meaning of D2D_RECLAIM_DONE (R382, R559): nothing of the unit's is in flight, and its tablets are whole. -/
def execD2dReclaimDone (unit : Nat) (s : State) : Host.Outcome State Fault Refusal :=
  runIf s (fun m => decide (unit < 9) && (d2dUnit m unit).reclaim && (linkHeld m unit).isEmpty)
    (fun m => bump (modUnit m unit (fun x => { x with taken := [], reclaim := false })) D2D_RECLAIM_CTR 1)

/-! ### Commands -/

/-- A block is resident on the die. -/
def dieBusy (m : Chip) (d : Nat) : Bool := m.cores.any (fun e => dieOf e.1 == d && e.2.blocks.any (fun b => b.2.isSome))

/-- A die's service with OP 1: the die is reset and forwards its clock again, the map is verified, roles are assigned; no channel is D2D_TRAIN. -/
def returnDie (i d : Nat) (m : Chip) : Chip :=
  let m1 := verifyUnit (fset m D2D_CLK_STAT_CD_CLK_OK (fget m D2D_CLK_STAT_CD_CLK_OK ||| 2 ^ d)) d
  if !dieFormed m1 d then fail m1 i 0x0801
  else
    let m2 := modUnit (fset (recMark m1) (D2D_CDd_STAT_STATE d) 0) d (fun x => { x with byCmd := false, taken := [], reclaim := false })
    let m3 := if ltLocked m2 then postCheck m2 d else m2
    respond (sizeRefresh m3) i 0 [nth (sizeState m3) 2]

/-- D2D.DIE (R580, R581). -/
def doD2dDie (i : Nat) (p : List Nat) (m : Chip) : Chip :=
  let w := nth p 0
  let d := bitsN w 2 0
  let on := bitsN w 31 28 == 1
  let force := tb w 27
  if dieUp m d == on then respond m i 0 [nth (sizeState m) 2]
  else if !on && !force && dieBusy m d then fail m i 1
  else if (firstIdx 4 (fun j => cmdGoing m j 0x0D01 && nth (cmdAux m j) 0 == d)).isSome || (d2dUnit m d).testMb.isSome || (d2dUnit m d).fencing then fail m i 1
  else if on then returnDie i d m
  else fenceDie (modUnit (cmdOn (recMark m) i []) d (fun x => { x with byCmd := true, dieMb := some i })) d (if force then 2 else 4)

/-- Meaning of D2D_DIE. -/
def execD2dDie (i : Nat) (s : State) : Host.Outcome State Fault Refusal := runCmd s i 0x0801 (doD2dDie i)

/-- D2D.CHECK (R581): a one-shot lane check in the next epoch. It waits while Mioto's 128 rows are in use. -/
def doD2dCheck (i : Nat) (p : List Nat) (m : Chip) : Chip :=
  let u := bitsN (nth p 0) 3 0
  if (d2dUnit m u).checkMb.isSome || (checkRow m u).isSome then fail m i 1
  else if 128 ≤ miotoRows m then m
  else
    let m1 := modUnit (cmdOn m i []) u (fun x => { x with checkMb := some i })
    postMioto m1 (miotoWords 5 (if u = 8 then 4 else 3) ((now m / 2 ^ 20 + 1) * 2 ^ 20 + 0x11000) 64 0 1 (if u = 8 then 75 else 50) (if u = 8 then 4 else 3) (if u = 8 then 0 else u))

/-- Meaning of D2D_CHECK. -/
def execD2dCheck (i : Nat) (s : State) : Host.Outcome State Fault Refusal := runCmd s i 0x0802 (doD2dCheck i)

/-- D2D.MAP (R581). -/
def doD2dMap (i : Nat) (p : List Nat) (m : Chip) : Chip :=
  let w := nth p 0
  let u := bitsN w 19 16
  let n := nth p 1
  if mapSize u < bitsN w 8 0 + n then fail m i 2
  else respond m i 0 ((List.range n).map (fun k => mapEntry m u (bitN w 12) (bitsN w 8 0 + k)))

/-- Meaning of D2D_MAP. -/
def execD2dMap (i : Nat) (s : State) : Host.Outcome State Fault Refusal := runCmd s i 0x0803 (doD2dMap i)

/-- D2D.STATUS (R581). -/
def doD2dStatus (i : Nat) (_ : List Nat) (m : Chip) : Chip :=
  respond m i 0 ([csr m D2D_CLK_STAT_REF_OK.off, csr m D2D_CPL_STAT_SPARES.off] ++ (List.range 8).map (fun d => csr m (D2D_CDd_STAT_STATE d).off))

/-- Meaning of D2D_STATUS. -/
def execD2dStatus (i : Nat) (s : State) : Host.Outcome State Fault Refusal := runCmd s i 0x0804 (doD2dStatus i)

/-- DIAG.D2D (R582): BUSY unless the die is out of service; the siding serves while the test runs (R303). -/
def doDiagD2d (i : Nat) (p : List Nat) (m : Chip) : Chip :=
  let d := nth p 0
  if dieUp m d || (d2dUnit m d).fencing || (d2dUnit m d).testMb.isSome then fail m i 1
  else fset (modUnit (cmdOn m i []) d (fun x => { x with testMb := some i })) BUF_CTRL_SIDING_EN 1

/-- Meaning of DIAG_D2D. -/
def execDiagD2d (i : Nat) (s : State) : Host.Outcome State Fault Refusal := runCmd s i 0x0D03 (doDiagD2d i)

/-- One bundle word of DIAG.D2D's response (R663). -/
def bundleWord (fs : List (Nat × Nat × Nat)) (k : Nat × Nat) : Nat :=
  let ls := (fs.filter (fun f => f.1 == k.1 && f.2.1 == k.2)).map (fun f => f.2.2)
  b2n (decide (2 < ls.length)) * 2 ^ 31 + (ls.getD 1 0x7F) * 2 ^ 23 + (ls.getD 0 0x7F) * 2 ^ 16 + k.1 * 2 ^ 15 + k.2

/-- D2D_TEST_END (R582, R663). -/
def doD2dTestEnd (d : Nat) (fails : List (Nat × Nat × Nat)) (m : Chip) : Chip :=
  match (d2dUnit m d).testMb with
  | none => m
  | some i =>
    let fs := fails.filter (fun f => decide (f.1 < 2) && decide (f.2.1 < 288) && decide (f.2.2 < laneCount d f.2.1 + 2))
    let keys := (fs.map (fun f => (f.1, f.2.1))).eraseDups
    let m1 := modUnit m d (fun x => { x with testMb := none })
    let m2 := if m1.d2d.any (fun y => y.fencing || y.testMb.isSome) then m1 else fset m1 BUF_CTRL_SIDING_EN 0
    respond m2 i 0 ((b2n (decide (508 < keys.length)) * 2 ^ 31 + min 508 keys.length) :: (keys.take 508).map (bundleWord fs))

/-- Meaning of D2D_TEST_END. -/
def execD2dTestEnd (die : Nat) (fails : List (Nat × Nat × Nat)) (s : State) : Host.Outcome State Fault Refusal :=
  runIf s (fun m => decide (die < 8) && (d2dUnit m die).testMb.isSome) (doD2dTestEnd die fails)

/-- D2D_MAP_DATA_ACCESS (R582, R583): the saved entry that D2D_MAP_SEL names, then INDEX moves on. -/
def doD2dMapDataAccess (write : Bool) (v : Nat) (m : Chip) : Chip :=
  let u := fget m D2D_MAP_SEL_UNIT
  let dir := fget m D2D_MAP_SEL_DIR
  let e := fget m D2D_MAP_SEL_INDEX
  if 8 < u ∨ mapSize u ≤ e then (if write then m else { m with out := some 0 })
  else
    let m1 := if write then modUnit (recMark m) u (fun x => { x with saved := tput 0 (eKey dir e) (v ^^^ plainEntry u e) x.saved })
      else { m with out := some (tget 0 (eKey dir e) (d2dUnit m u).saved ^^^ plainEntry u e) }
    fset m1 D2D_MAP_SEL_INDEX (if e + 1 = mapSize u then 0 else e + 1)

/-- Meaning of D2D_MAP_DATA_ACCESS. -/
def execD2dMapDataAccess (write : Bool) (val : Word) (s : State) : Host.Outcome State Fault Refusal := run s (doD2dMapDataAccess write val.toNat)

end Sys2Proof.Machine
end

