-- ==== Sys2Proof/Machine/WindowEnd.lean ====
section
/-! DEFINITION. The end of a window (R76, R90 to R92, R98, R492, R573, R581, R712). -/

namespace Sys2Proof.Machine

/-- A port's eye scan goes on in the next epoch in which a possession fits. -/
def eyeNext (m : Chip) (r : TtRow) : Chip :=
  if rowKind r.w = 5 ∧ rowSub r.w = 2 ∧ r.mioto then (if (port m (rowIndex r.w)).eye.isSome then postEye m (rowIndex r.w) else m) else m

/-- A possession ends (R90 to R92, R495, R573): the status bits fall, a running eye point stops, a scan posts its next windows, and the results of a lane check
take effect. -/
def possEnd (k : Nat) (r : TtRow) (m : Chip) : Chip :=
  let m1 := possBits r 0 m
  let m2 := (rowClaims r.w r.par).foldl (fun c u => if u.1 = 2 then eyeStop c u.2 else c) m1
  let m3 := eyeNext (endOccurrence m2 k r true) r
  if rowSub r.w = 3 ∨ rowSub r.w = 4 then (rowClaims r.w r.par).foldl (fun c u => if u.1 = 3 then checkEnd c u.2 (r.mioto && rowPeriod r.w == 0) else c) m3 else m3

/-- ROW_WINDOW_END (R76): a receive window has a row of its own. -/
def doRowWindowEnd (k : Nat) (m : Chip) : Chip :=
  match rowAt m k with
  | none => m
  | some r =>
    match rowKind r.w with
    | 1 | 3 => let m1 := sendEnd m k r; endOccurrence m1 k ((rowAt m1 k).getD r) true
    | 5 => possEnd k r m
    | 7 => let m1 := journalEnd m; endOccurrence m1 k ((rowAt m1 k).getD r) true
    | _ => endOccurrence m k r true

/-- Meaning of ROW_WINDOW_END. -/
def execRowWindowEnd (row : Nat) (s : State) : Host.Outcome State Fault Refusal :=
  runIf s (fun m => rowDue m row [1, 3, 4, 5, 6, 7, 8, 9] .active rowEnd) (doRowWindowEnd row)

end Sys2Proof.Machine
end

