-- ==== Sys2Proof/Machine/HostPort.lean ====
section
/-! DEFINITION. The host port: the window, bias flips, read-ahead, the links H0 and H1 while the module runs, and the HOST commands (R584 to R621). A host
request that must wait for a flip leaves no answer; its command, brought again, goes on with it. -/

namespace Sys2Proof.Machine

/-- Change the host port's state beside the registers. -/
def modHost (m : Chip) (f : HostState → HostState) : Chip := { m with host := f m.host }

/-- Put the answer of a path: 0 H0 CXL.mem, 1 H0 CXL.io, 2 H1 CXL.io. none: the request waits. -/
def putAns (m : Chip) (path : Nat) (a : Option HostAns) : Chip := modHost m (fun h => { h with ans := setAt h.ans path a })

/-! ### Flips -/

/-- Perform the stores that waited for flips, in order, as far as their granules now allow. -/
def deferredGo (m : Chip) : Chip :=
  let r := m.host.deferred.foldl (fun (a : Chip × List Deferred) d =>
    if deviceReady a.1 d.da d.bytes.length && !(a.2.any (fun e => e.da / 65536 == d.da / 65536)) then
      (if d.atom then addWord a.1 (d.own.getD ownMioto) d.da (leNat d.bytes) else storeFor a.1 d.own d.da d.bytes, a.2)
    else (a.1, a.2 ++ [d])) (m, [])
  modHost r.1 (fun h => { h with deferred := r.2 })

/-- The dwell of a granule is over (R601). -/
def dwellOver (m : Chip) (g : Nat) : Bool := decide (tget 0 g m.host.lastFlip = 0) || decide (tget 0 g m.host.lastFlip + 2 ^ fget m HOST_BIAS_CTRL_DWELL_LOG2 ≤ m.ns + 1)

/-- Start the waiting flips that may start, in order of arrival (R600). -/
def waitGo (m : Chip) : Chip :=
  m.host.waitFlips.foldl (fun c f =>
    if c.host.flips.length < 32 && dwellOver c f.1 then
      let c1 := modHost c (fun h => { h with waitFlips := h.waitFlips.filter (fun x => x != f) })
      if hostBias c1 f.1 == f.2 then startFlip c1 f.1 f.2 else c1
    else c) m

/-- HOST.BIAS starts the flips it still wants, up to the 32 of R600; a granule flipping the other way is met after its flip. -/
def biasStart : Nat → Chip → Chip
  | 0, m => m
  | n + 1, m =>
    match m.host.biasCmd with
    | none => m
    | some (i, next, stop, dev) =>
      if stop ≤ next then m
      else
        let on := modHost m (fun h => { h with biasCmd := some (i, next + 1, stop, dev) })
        match m.host.flips.find? (fun f => f.granule == next) with
        | some f => if f.toDevice = dev then biasStart n on else m
        | none =>
          if hostBias m next != dev then biasStart n on
          else if 32 ≤ m.host.flips.length then m
          else
            let c := startFlip (modHost on (fun h => { h with waitFlips := h.waitFlips.filter (fun x => x.1 != next) })) next dev
            biasStart n (if c.host.flips.any (fun f => f.granule == next) then c else modMb c i (fun r => { r with aux := setAt r.aux 1 (nth r.aux 1 + 1) }))

/-- HOST.BIAS goes on, and completes once every granule of its run has its bias. -/
def biasGo (m : Chip) : Chip :=
  let m1 := biasStart 1048577 m
  match m1.host.biasCmd with
  | none => m1
  | some (i, next, stop, _) =>
    let first := nth (cmdAux m1 i) 0
    if stop ≤ next ∧ ¬ m1.host.flips.any (fun f => decide (first ≤ f.granule) && decide (f.granule < stop)) then
      respond (modHost m1 (fun h => { h with biasCmd := none })) i 0 [nth (cmdAux m1 i) 1, elapsed m1 (cmdT0 m1 i)]
    else m1

/-- The granules of a segment in HOST bias. -/
def segHost (m : Chip) (k : Nat) : List Nat := (m.host.hostBias.filter (fun e => e.2 && e.1 / 16384 == k)).map (·.1)

/-- HOST.WINDOW goes on: every granule of the segment to DEVICE, then the segment changes and the read-ahead buffers empty. -/
def windowGo (m : Chip) : Chip :=
  match m.host.winCmd with
  | none => m
  | some (i, k, w, old) =>
    let m1 := (segHost m k).foldl (fun c g => if c.host.flips.length < 32 then startFlip c g true else c) m
    if segHost m1 k = [] ∧ ¬ m1.host.flips.any (fun f => f.granule / 16384 == k) then
      respond (emptyRa (setCsr (modHost m1 (fun h => { h with winCmd := none })) (HOST_SEGk_VALID k).off w) [0, 1]) i 0 [old]
    else m1

/-- What follows the end of a flip: waiting stores, waiting flips, and the commands that flip. -/
def flipsGo (m : Chip) : Chip := windowGo (biasGo (waitGo (deferredGo m)))

/-- A flip completes. -/
def flipDone (m : Chip) (g : Nat) (toDev : Bool) : Chip :=
  let m1 := fset (modHost (setBias m g toDev) (fun h => { h with flips := h.flips.filter (fun f => f.granule != g) })) HOST_STAT_FLIPS (m.host.flips.length - 1)
  let m2 := match m1.host.biasCmd with
    | some (i, _, stop, dev) => if dev = toDev ∧ nth (cmdAux m1 i) 0 ≤ g ∧ g < stop then modMb m1 i (fun r => { r with aux := setAt r.aux 1 (nth r.aux 1 + 1) }) else m1
    | none => m1
  flipsGo m2

/-- The flip of a granule in a direction is in progress. -/
def flipOf (m : Chip) (g : Nat) (toDev : Bool) : Option Flip := m.host.flips.find? (fun f => f.granule == g && f.toDevice == toDev)

/-- BIAS_RECALL_RESPONSE (R598): a dirty line is written home with a waybill stamped at the port. -/
def doBiasRecallResponse (g line : Nat) (dirty : Bool) (data : List Byte) (m : Chip) : Chip :=
  let m1 := match (if dirty then windowDa m (g * 65536 + line * 128) else none) with
    | some da => (writeLine m (da / 128) (goodLine (fit 128 0#8 data)) false).2
    | none => m
  let m2 := modHost m1 (fun h => { h with flips := h.flips.map (fun f => if f.granule = g then { f with lines := f.lines.filter (· != line) } else f) })
  if (flipOf m2 g true).any (fun f => f.lines.isEmpty) then flipDone m2 g true else m2

/-- Meaning of BIAS_RECALL_RESPONSE. -/
def execBiasRecallResponse (granule line : Nat) (dirty : Bool) (data : List Byte) (s : State) : Host.Outcome State Fault Refusal :=
  runIf s (fun m => (flipOf m granule true).any (fun f => f.lines.contains line)) (doBiasRecallResponse granule line dirty data)

/-- A device write to the granule that its home has accepted waits there for its acknowledgement. -/
def writesOpen (m : Chip) (g : Nat) : Bool :=
  m.reqs.any (fun r => r.kind != .read && 1 ≤ r.st && decide (r.st ≤ 3) && (windowOf m (r.line * 128)).any (fun o => o / 65536 == g))

/-- Meaning of BIAS_FLIP_HOST_COMPLETE (R599). -/
def execBiasFlipHostComplete (granule : Nat) (s : State) : Host.Outcome State Fault Refusal :=
  runIf s (fun m => (flipOf m granule false).isSome && !writesOpen m granule) (fun m => flipDone m granule false)

/-- Meaning of BIAS_DWELL_EXPIRE (R601): the dwell ends and the flip that waits proceeds. -/
def execBiasDwellExpire (granule : Nat) (s : State) : Host.Outcome State Fault Refusal :=
  runIf s (fun m => m.host.waitFlips.any (fun f => f.1 == granule) && dwellOver m granule) waitGo

/-! ### Accesses (R589 to R591, R596, R598, R599, R604, R609 to R611) -/

/-- The host may send requests: the module runs, and H0's data link is active where the path is H0's. -/
def hostOpen (m : Chip) (path : Nat) : Bool := m.start.phase == 5 && (path == 2 || fon m HOST_STAT_H0_UP)

/-- A request on H1 shows that its data link is active; its speed and width are not brought by any row. -/
def h1Seen (m : Chip) (path : Nat) : Chip :=
  if path ≠ 2 ∨ fon m HOST_STAT_H1_UP then m
  else
    let d := draw m
    fset (fset (fset d.2 HOST_STAT_H1_UP 1) HOST_STAT_H1_SPEED (1 + d.1 % 6)) HOST_STAT_H1_WIDTH (d.1 / 6 % 5)

/-- DETAIL and UNIT of a path's error records (R753). -/
def pathUnit (path : Nat) : Nat := if path = 2 then 1 else 0
/-- DETAIL: 1 for CXL.mem. -/
def pathDetail (path : Nat) : Nat := if path = 0 then 1 else 0

/-- An access erred (R591): counted, with a record of the window offset for an invalid segment, else of the line. -/
def hostErr (m : Chip) (path o : Nat) : Chip :=
  let m1 := bump m HOST_UNMAPPED_CTR 1
  match windowDa m o with
  | none => recErr m1 1 8 7 (pathUnit path) (5, 0, 0) (o / 128 * 128) 2 (pathDetail path) 0 0
  | some da => recErr m1 1 8 7 (pathUnit path) (5, 0, 0) (gaOf m1 (da / 128 * 128)) 1 (pathDetail path) 0 0

/-- The offset reaches no address: no valid segment, or an address that takes no access (R591). -/
def hostBad (m : Chip) (o : Nat) : Bool :=
  match windowDa m o with
  | none => true
  | some da => badAddress m da false

/-- The granule's flip is in progress. -/
def gFlipping (m : Chip) (o : Nat) : Bool := m.host.flips.any (fun f => f.granule == o / 65536)

/-- A CXL.mem access meets its granule's bias (R599, R600): none to go on, else what becomes of it. -/
def memBias (m : Chip) (o : Nat) : Option (Bool × Chip) :=
  if gFlipping m o then some (false, m)
  else if hostBias m (o / 65536) then none
  else if fon m HOST_CTRL_AUTO_FLIP then some (false, autoFlip m (o / 65536) false)
  else
    let m1 := bump m HOST_BIAS_ERR_CTR 1
    some (true, recErr m1 1 8 8 0 (5, 0, 0) (gaOf m1 (((windowDa m o).getD 0) / 128 * 128)) 1 1 0 0)

/-- 64 bytes of a line that a CXL.mem read takes. -/
def half64 (o : Nat) (d : List Byte) : List Byte := (d.drop (o % 128 / 64 * 64)).take 64

/-- A poisoned read towards the host. -/
def poisonAns (m : Chip) (path : Nat) (bs : List Byte) : Chip := putAns (bump m HOST_POISON_CTR 1) path (some (.poison bs))

/-- HOST_MEM_READ (R591, R599). -/
def doHostMemRead (o : Nat) (m : Chip) : Chip :=
  if hostBad m o then poisonAns (hostErr m 0 o) 0 (List.replicate 64 0#8)
  else match memBias m o with
    | some (true, c) => poisonAns c 0 (List.replicate 64 0#8)
    | some (false, c) => putAns c 0 none
    | none =>
      let ln := ((windowDa m o).getD 0) / 128
      let g := readExit m ln false
      if g.1.fate = .good then putAns g.2 0 (some (.data (half64 o g.1.ln.data)))
      else poisonAns (recFate g.2 8 0 (5, 0, 0) 1 ln g.1) 0 (half64 o g.1.ln.data)

/-- Meaning of HOST_MEM_READ. -/
def execHostMemRead (off : Nat) (s : State) : Host.Outcome State Fault Refusal := runIf s (fun m => hostOpen m 0) (doHostMemRead off)

/-- The byte mask of a line for the 64 bytes at an offset. -/
def mask64 (o : Nat) (mask : List Bool) : Nat := maskN 64 (fun i => nthB mask i) * 2 ^ (o % 128 / 64 * 64)

/-- HOST_MEM_WRITE (R591, R599, R611): performed at its home before its completion. -/
def doHostMemWrite (o : Nat) (data : List Byte) (mask : List Bool) (m : Chip) : Chip :=
  if hostBad m o then putAns (hostErr m 0 o) 0 (some .done)
  else match memBias m o with
    | some (true, c) => putAns c 0 (some .done)
    | some (false, c) => putAns c 0 none
    | none =>
      let ln := ((windowDa m o).getD 0) / 128
      let at_ := o % 128 / 64 * 64
      let d := List.replicate at_ 0#8 ++ fit 64 0#8 data ++ List.replicate (64 - at_) 0#8
      let w := partialWrite m ln d (mask64 o mask) true false
      putAns (if w.1 = .good then w.2 else recFate w.2 8 0 (5, 0, 0) 1 ln { ln := failLine m ln zeroLine w.1, fate := w.1 }) 0 (some .done)

/-- Meaning of HOST_MEM_WRITE. -/
def execHostMemWrite (off : Nat) (data : List Byte) (mask : List Bool) (s : State) : Host.Outcome State Fault Refusal :=
  runIf s (fun m => hostOpen m 0) (doHostMemWrite off data mask)

/-- The lines that n bytes at an offset touch, as offsets. -/
def offLines (o n : Nat) : List Nat := (List.range ((o % 128 + n + 127) / 128)).map (fun i => o / 128 * 128 + i * 128)

/-- A CXL.io access first flips its HOST-bias granules (R598): none when it may go on. -/
def ioBias (m : Chip) (o n : Nat) : Option Chip :=
  let gs := ((offLines o n).map (· / 65536)).eraseDups
  let bad := gs.filter (fun g => hostBias m g || m.host.flips.any (fun f => f.granule == g))
  if bad = [] then none else some (bad.foldl (fun c g => autoFlip c g true) m)

/-- The read-ahead buffer of a CXL.io path (0 H0, 1 H1). -/
def raOf (m : Chip) (path : Nat) : Tab (Option (Nat × List Byte)) := m.host.ra.getD path []

/-- Set an entry of a read-ahead buffer. -/
def setRa (m : Chip) (path ln : Nat) (e : Option (Nat × List Byte)) : Chip := modHost m (fun h => { h with ra := modAt h.ra path (fun t => tput none ln e t) })

/-- The oldest entry gives way when 64 are held. -/
def raRoom (m : Chip) (path : Nat) : Chip :=
  let t := raOf m path
  if t.length < 64 then m
  else match t.foldl (fun (b : Option (Nat × Nat)) e => match b, e.2 with
      | none, some v => some (e.1, v.1)
      | some x, some v => if v.1 < x.2 then some (e.1, v.1) else some x
      | b, none => b) none with
    | some x => setRa m path x.1 none
    | none => m

/-- The lines after a read, within the same 4 KiB, go into the path's buffer (R604). -/
def raFill (m : Chip) (path o n : Nat) : Chip :=
  if !fon m HOST_CTRL_READAHEAD || n = 0 then m
  else
    let last := (o + n - 1) / 128
    ((List.range (31 - last % 32)).map (· + last + 1)).foldl (fun c l =>
      match windowDa c (l * 128) with
      | none => c
      | some da =>
        if badAddress c da false || (tget none (da / 128) (raOf c path)).isSome then c
        else
          let g := readExit c (da / 128) false
          if g.1.fate = .good then setRa (raRoom g.2 path) path (da / 128) (some (c.ns, g.1.ln.data)) else g.2) m

/-- One line for a CXL.io read: from the read-ahead buffer, or from its home; and whether it is good. -/
def ioLine (m : Chip) (path ln : Nat) : List Byte × Bool × Chip :=
  match (if fon m HOST_CTRL_READAHEAD then tget none ln (raOf m path) else none) with
  | some e => (e.2, true, m)
  | none =>
    let g := readExit m ln false
    (g.1.ln.data, g.1.fate == .good, if g.1.fate = .good then g.2 else recFate g.2 8 path (5, 0, 0) 0 ln g.1)

/-- HOST_IO_READ (R591, R598, R604, R610). path is 0 for H0, 1 for H1. -/
def doHostIoRead (path o n : Nat) (m0 : Chip) : Chip :=
  let m := h1Seen m0 (path + 1)
  match (offLines o n).find? (hostBad m) with
  | some b => putAns (hostErr m (path + 1) b) (path + 1) (some .unsupported)
  | none =>
    match ioBias m o n with
    | some c => putAns c (path + 1) none
    | none =>
      let r := (offLines o n).foldl (fun (a : List Byte × Bool × Chip) l =>
        let x := ioLine a.2.2 path (((windowDa a.2.2 l).getD 0) / 128)
        (a.1 ++ x.1, a.2.1 && x.2.1, x.2.2)) ([], true, m)
      let bs := (r.1.drop (o % 128)).take n
      let c := raFill r.2.2 path o n
      if r.2.1 then putAns c (path + 1) (some (.data bs)) else poisonAns c (path + 1) bs

/-- Meaning of HOST_IO_READ: at most 4,096 bytes within the window. -/
def execHostIoRead (path off len : Nat) (s : State) : Host.Outcome State Fault Refusal :=
  runIf s (fun m => decide (path < 2) && decide (len ≤ 4096) && hostOpen m (path + 1)) (doHostIoRead path off len)

/-- The part of a write that falls on one line. -/
def ioWriteLine (path o : Nat) (data : List Byte) (m : Chip) (l : Nat) : Chip :=
  let da := (windowDa m l).getD 0
  let lo := max o l
  let n := min (o + data.length) (l + 128) - lo
  let w := storeBytes m (da + (lo - l)) ((data.drop (lo - o)).take n) false
  let c := setRa w.2 path (da / 128) none
  if w.1 = .good then c else recFate c 8 path (5, 0, 0) 0 (da / 128) { ln := failLine m (da / 128) zeroLine w.1, fate := w.1 }

/-- HOST_IO_WRITE (R591, R598, R604, R609): posted, and discarded whole when a line of it errs. Writes are performed in the order in which their commands come, with
the attribute or without. -/
def doHostIoWrite (path o : Nat) (data : List Byte) (m0 : Chip) : Chip :=
  let m := h1Seen m0 (path + 1)
  match (offLines o data.length).find? (hostBad m) with
  | some b => putAns (hostErr m (path + 1) b) (path + 1) (some .discarded)
  | none => match ioBias m o data.length with
    | some c => putAns c (path + 1) none
    | none => putAns ((offLines o data.length).foldl (ioWriteLine path o data) m) (path + 1) (some .done)

/-- Meaning of HOST_IO_WRITE. -/
def execHostIoWrite (path off : Nat) (data : List Byte) (_relaxed : Bool) (s : State) : Host.Outcome State Fault Refusal :=
  runIf s (fun m => decide (path < 2) && decide (data.length ≤ 512) && hostOpen m (path + 1)) (doHostIoWrite path off data)

/-- HOST_ATOMICOP (R596): 0 FetchAdd, 1 Swap, 2 CAS, of 4 or 8 bytes on a SCRATCH granule; any other is an Unsupported Request. -/
def doHostAtomicop (path o op size : Nat) (v c : Nat) (m0 : Chip) : Chip :=
  let m := h1Seen m0 (path + 1)
  if (windowDa m o).isNone then putAns (hostErr m (path + 1) o) (path + 1) (some .unsupported)
  else
    let da := (windowDa m o).getD 0
    if (size ≠ 4 ∧ size ≠ 8) ∨ o % size ≠ 0 ∨ ¬ scratch m da then putAns (if hostBad m o then hostErr m (path + 1) o else m) (path + 1) (some .unsupported)
    else match ioBias m o size with
      | some x => putAns x (path + 1) none
      | none =>
        let r := atomicAt m (da / 128) (if op = 0 then 0 else if op = 1 then 9 else 10) size (da % 128) (v % 2 ^ (8 * size)) (c % 2 ^ (8 * size))
        let x := setRa r.2.2 path (da / 128) none
        if r.1 = .good then putAns x (path + 1) (some (.value r.2.1))
        else poisonAns (recFate x 8 path (5, 0, 0) 0 (da / 128) { ln := failLine m (da / 128) zeroLine r.1, fate := r.1 }) (path + 1) (leBytes size r.2.1)

/-- Meaning of HOST_ATOMICOP. -/
def execHostAtomicop (path off op size : Nat) (val cmp : BitVec 64) (s : State) : Host.Outcome State Fault Refusal :=
  runIf s (fun m => decide (path < 2) && decide (op < 3) && hostOpen m (path + 1)) (doHostAtomicop path off op size val.toNat cmp.toNat)

/-- Meaning of CXL_CACHE_SNOOP (R584): every snoop is answered as a miss. -/
def execCxlCacheSnoop (_line : Nat) (s : State) : Host.Outcome State Fault Refusal := runIf s (fun m => fon m HOST_STAT_H0_UP) (fun m => putAns m 0 (some .miss))

/-! ### Read-ahead and bias registers -/

/-- Meaning of READAHEAD_EXPIRE (R604): an entry is 2,048 lt old. -/
def execReadaheadExpire (path line : Nat) (s : State) : Host.Outcome State Fault Refusal :=
  runIf s (fun m => decide (path < 2) && (tget none line (raOf m path)).any (fun e => decide (e.1 + 2048 ≤ m.ns))) (fun m => setRa m path line none)

/-- Write the image of HOST_CTRL; READAHEAD 0 empties both buffers (R604, R621). -/
def writeHostCtrl (v : Nat) (m : Chip) : Chip :=
  let m1 := writeFields m HOST_CTRL_HOLDOFF_MS.off v
  if fon m1 HOST_CTRL_READAHEAD then m1 else emptyRa m1 [0, 1]

/-- Meaning of HOST_READAHEAD_WRITE: a write of HOST_CTRL with READAHEAD 0. -/
def execHostReadaheadWrite (val : Word) (s : State) : Host.Outcome State Fault Refusal := runIf s (fun _ => !tb val.toNat 2) (writeHostCtrl val.toNat)

/-- HOST_BIAS_DATA_ACCESS (R621): 32 granules, 1 for DEVICE; a write sets them without recall or wait. -/
def doHostBiasDataAccess (write : Bool) (v : Nat) (m : Chip) : Chip :=
  let k := fget m HOST_BIAS_SEL_WORD
  let m1 := if write then (List.range 32).foldl (fun c i => modHost c (fun h => { h with hostBias := tput false (32 * k + i) (!tb v i) h.hostBias })) m
    else { m with out := some (maskN 32 (fun i => !hostBias m (32 * k + i))) }
  fset m1 HOST_BIAS_SEL_WORD (if k = 32767 then 0 else k + 1)

/-- Meaning of HOST_BIAS_DATA_ACCESS. -/
def execHostBiasDataAccess (write : Bool) (val : Word) (s : State) : Host.Outcome State Fault Refusal := run s (doHostBiasDataAccess write val.toNat)

/-! ### The links of the host -/

/-- H0_LINK_UP (R617): within the hold-off, H0_LOST and a HOST_LINK notice. -/
def doH0LinkUp (speed width : Nat) (m : Chip) : Chip :=
  let m1 := fset (fset (fset m HOST_STAT_H0_UP 1) HOST_STAT_H0_SPEED speed) HOST_STAT_H0_WIDTH width
  if m.host.downAt.isNone then m1
  else
    let m2 := modHost (fset m1 HOST_STAT_H0_LOST 1) (fun h => { h with downAt := none })
    notice m2 8 [csr m2 HOST_STAT_H0_UP.off]

/-- Meaning of H0_LINK_UP: H0 is not held in reset. -/
def execH0LinkUp (speed width : Nat) (s : State) : Host.Outcome State Fault Refusal :=
  runIf s (fun m => !s.board.h0Perst && !fon m HOST_STAT_H0_UP && decide (1 ≤ speed) && decide (speed ≤ 6) && decide (width ≤ 4)) (doH0LinkUp speed width)

/-- H0's link is down: requests in flight are discarded, unanswered recalls are lost (R602, R617). -/
def h0Down (m : Chip) : Chip :=
  let m1 := fset (fset (fset m HOST_STAT_H0_UP 0) HOST_STAT_H0_SPEED 0) HOST_STAT_H0_WIDTH 0xF
  let m2 := putAns (putAns m1 0 (some .discarded)) 1 (some .discarded)
  (m2.host.flips.filter (·.toDevice)).foldl (fun c f => flipDone (recallLost c f.granule f.lines) f.granule true) m2

/-- Meaning of H0_LINK_DOWN (R617): the hold-off starts. -/
def execH0LinkDown (s : State) : Host.Outcome State Fault Refusal :=
  runIf s (fun m => fon m HOST_STAT_H0_UP) (fun m => h0Down (modHost m (fun h => { h with downAt := some m.ns })))

/-- Meaning of H1_LINK_LOSS (R620). -/
def execH1LinkLoss (s : State) : Host.Outcome State Fault Refusal :=
  run s (fun m => putAns (fset (fset (fset (fset m HOST_STAT_H1_UP 0) HOST_STAT_H1_SPEED 0) HOST_STAT_H1_WIDTH 0xF) HOST_STAT_H1_LOST 1) 2 (some .discarded))

/-! ### Commands -/

/-- TARGET keeps R590. -/
def targetOk (t : Nat) : Bool := decide (t ≤ 0x5FF) || (decide (0x38000 ≤ t) && decide (t ≤ 0x38007))

/-- HOST.WINDOW (R594, R595). A second one waits for the first. -/
def doHostWindow (i : Nat) (p : List Nat) (m : Chip) : Chip :=
  let w := nth p 0
  let k := bitsN w 23 18
  let t := bitsN w 17 0
  let on := tb w 31
  let old := csr m (HOST_SEGk_VALID k).off
  if on && !targetOk t then fail m i 0x0901
  else if on && (List.range 64).any (fun j => j != k && fon m (HOST_SEGk_VALID j) && fget m (HOST_SEGk_TARGET j) == t) then fail m i 0x0902
  else if on && decide (t ≤ 0x5FF) && !stackUp m (stackOf (t * 2 ^ 30)) then fail m i 1
  else if m.host.winCmd.isSome then m
  else windowGo (modHost (cmdOn m i []) (fun h => { h with winCmd := some (i, k, b2n on * 2 ^ 31 + t, old) }))

/-- Meaning of HOST_WINDOW. -/
def execHostWindow (i : Nat) (s : State) : Host.Outcome State Fault Refusal := runCmd s i 0x0901 (doHostWindow i)

/-- HOST.BIAS (R603): a second one waits for the first. -/
def doHostBias (i : Nat) (p : List Nat) (m : Chip) : Chip :=
  let w := nth p 0
  let dev := tb w 31
  let first := bitsN w 19 0
  let n := nth p 1
  if tb w 30 then
    let gs := (List.range n).filter (fun k => hostBias m (first + k) == dev)
    let m1 := gs.foldl (fun c k => setBias c (first + k) dev) m
    respond (flipsGo m1) i 0 [gs.length, elapsed m1 (cmdT0 m1 i)]
  else if m.host.biasCmd.isSome then m
  else biasGo (modHost (cmdOn m i [first, 0]) (fun h => { h with biasCmd := some (i, first, first + n, dev) }))

/-- Meaning of HOST_BIAS. -/
def execHostBias (i : Nat) (s : State) : Host.Outcome State Fault Refusal := runCmd s i 0x0902 (doHostBias i)

/-- HOST.POLICY (R621): the image is written, the previous one returned. -/
def doHostPolicy (i : Nat) (p : List Nat) (m : Chip) : Chip := respond (writeHostCtrl (nth p 0) m) i 0 [csr m HOST_CTRL_HOLDOFF_MS.off]

/-- Meaning of HOST_POLICY. -/
def execHostPolicy (i : Nat) (s : State) : Host.Outcome State Fault Refusal := runCmd s i 0x0903 (doHostPolicy i)

end Sys2Proof.Machine
end

