-- ==== Sys2Proof/Machine/Power.lean ====
section
/-! DEFINITION. Power and thermal control: rails, sampling, thermal states, performance steps, and the PWR commands (R772 to R798). -/

namespace Sys2Proof.Machine

/-! ### The rails and the management registers -/

/-- The byte registers of the management bus while the rails are on: each follows its source (R812). -/
def mgmtLive (b : Board) (m : Chip) : List Nat :=
  let tj := (List.range 10).foldl (fun a d => max a (fget m (PWR_TJd_TJ d))) 0
  [b2n b.trip * 128 + b2n (m.start.phase == 2) * 64 + fget m MB_GLOBAL_READY * 32 + fget m ERR_STAT_FATAL_VALID * 16 + fget m HOST_STAT_H0_LOST * 8 + b.slot % 8,
   tj, sat 255 (b.vinMv / 250), sat 255 (cdiv (fget m PWR_INPUT_AVG_W) 16), 0x40, 0x92]

/-- The byte registers of the management bus: while the rails are off each keeps its last value, but for the trip latch and SLOT, which VSB feeds (R812). -/
def mgmtNow (s : State) : List Nat :=
  if s.board.rails then mgmtLive s.board s.chip else modAt s.board.mgmt 0 (fun w => setBitsN (putBit w 7 s.board.trip) 2 0 (s.board.slot % 8))

/-- Every rail but VSB goes off: no volatile state is left (R2, R773, R782). -/
def railsOff (s : State) : State :=
  { s with board := { s.board with rails := false, mgmt := mgmtNow s }, chip := Chip.off }

/-- The ports whose links are ACTIVE. -/
def activePorts (m : Chip) : List Nat := (List.range 36).filter (linkActive m)

/-- The link hardware sends DEPART on every ACTIVE link; a module that takes no action sends nothing (R579, R670). -/
def sendDepart (s : State) (reason : Nat) : State :=
  if acts s then { s with board := { s.board with depart := (activePorts s.chip, reason) }, chip := departAll s.chip reason } else s

/-- VIN48_UNDERVOLT (R773): DEPART with REASON 1, then every rail but VSB goes off. -/
def doVin48Undervolt (s : State) : State :=
  let t := railsOff (sendDepart s 1)
  { t with board := { t.board with vin := false, fell := true } }

/-- Meaning of VIN48_UNDERVOLT. -/
def execVin48Undervolt (s : State) : Host.Outcome State Fault Refusal := .next (doVin48Undervolt s)

/-- VIN48_OVERVOLT (R773): the converters turn off at once, without a DEPART. -/
def doVin48Overvolt (s : State) : State :=
  let t := railsOff s
  { t with board := { t.board with vin := false } }

/-- Meaning of VIN48_OVERVOLT. -/
def execVin48Overvolt (s : State) : Host.Outcome State Fault Refusal := .next (doVin48Overvolt s)

/-- The base die whose loss a rail's fault is: rails 0 to 7 are VDD_CDd, 8 VBUS, 9 and 10 VMID, 11 and 12 VDD of the base dies, 13 VPHY, 14 to 25 VHBM0 to VHBM11, 26
VSB. -/
def railBase (r : Nat) : Nat := if r = 10 ∨ r = 12 ∨ (20 ≤ r ∧ r ≤ 25) then 1 else 0

/-- RAIL_FAULT (R775): VDD_CDd loses its die; any other rail but VSB is role-fatal, recorded as a base die's reset. -/
def doRailFault (r : Nat) (m : Chip) : Chip :=
  if r < 8 then loseDie r 0 m else if r < 26 then roleFatal (railBase r) 11 m else m

/-- Meaning of RAIL_FAULT. -/
def execRailFault (rail : Nat) (s : State) : Host.Outcome State Fault Refusal := run s (doRailFault rail)

/-! ### Limits (R776, R787, R791) -/

/-- The cap on the limit in force. -/
def limitCap (m : Chip) : Nat := if fon m PWR_STAT_PHASE_FAIL then 2000 else 2800

/-- The limit that is in force after the next THROTTLE window. -/
def nextLimit (m : Chip) : Nat :=
  let lim := fget m PWR_LIMIT_IN_FORCE
  let aim := fget m PWR_LIMIT_TARGET
  min (limitCap m) (if lim < aim then min aim (lim + 200) else max aim (lim - 200))

/-- A THERMAL notice (R797): event, die, its TJ, sensor. -/
def thermalNotice (m : Chip) (event die sensor : Nat) : Chip :=
  notice m 10 [event * 2 ^ 28 + die * 2 ^ 16 + fget m (PWR_TJd_TJ die) * 2 ^ 8 + sensor, fget m PWR_STAT_STEP]

/-- CONVERTER_FAIL (R776): the first caps the limit, the second is role-fatal. -/
def doConverterFail (n : Nat) (m : Chip) : Chip :=
  if 4 ≤ n ∨ m.pwr.convFail.contains n then m
  else
    let m1 := fset { m with pwr := { m.pwr with convFail := n :: m.pwr.convFail } } PWR_STAT_PHASE_FAIL 1
    if m.pwr.convFail ≠ [] then roleFatal 0 11 m1
    else thermalNotice (fset m1 PWR_LIMIT_IN_FORCE (min 2000 (fget m1 PWR_LIMIT_IN_FORCE))) 8 0 0

/-- Meaning of CONVERTER_FAIL. -/
def execConverterFail (n : Nat) (s : State) : Host.Outcome State Fault Refusal := run s (doConverterFail n)

/-- The input power of one sample above which the surge clamp acts. -/
def surgeTrip (m : Chip) : Nat := if fon m PWR_STAT_PHASE_FAIL then 2250 else 3000

/-- POWER_SAMPLE (R777, R791): the energy of 1,024 lt at the sampled voltage and current, and the surge clamp. -/
def doPowerSample (mv ma : Nat) (m : Chip) : Chip :=
  let uw := mv * ma
  let fj := m.pwr.remFj + uw * 1024
  let m1 := bump (fset { m with pwr := { m.pwr with remFj := fj % 10 ^ 12, epochUw := m.pwr.epochUw + uw } } PWR_INPUT_VIN_MV (sat 65535 mv)) PWR_ENERGY_CTR (fj / 10 ^ 12)
  if surgeTrip m1 * 10 ^ 6 < uw ∧ ¬ m1.pwr.surge then
    thermalNotice (bump (fset { m1 with pwr := { m1.pwr with surge := true } } PWR_STAT_SURGE 1) PWR_SURGE_CTR 1) 7 0 0
  else m1

/-- Meaning of POWER_SAMPLE: the management bus sees the voltage too (R812). -/
def execPowerSample (mv ma : Nat) (s : State) : Host.Outcome State Fault Refusal :=
  run (if acts s then { s with board := { s.board with vinMv := mv } } else s) (doPowerSample mv ma)

/-! ### Sensors (R777 to R780) -/

/-- Sensors of a die: a compute die's 4 × 4 grid, a base die's 4 × 8. -/
def sensors (d : Nat) : Nat := if d < 8 then 16 else 32

/-- Columns of a die's grid. -/
def sensorCols (d : Nat) : Nat := if d < 8 then 4 else 8

/-- The place of a sensor in a sample's lists: dies in order, each row by row. -/
def sensorAt (d s : Nat) : Nat := if d < 8 then 16 * d + s else 128 + 32 * (d - 8) + s

/-- The neighbours of a sensor (R777). -/
def neighbours (d s : Nat) : List Nat :=
  let c := sensorCols d
  (if s % c = 0 then [] else [s - 1]) ++ (if s % c = c - 1 then [] else [s + 1]) ++ (if s < c then [] else [s - c]) ++ (if s + c < sensors d then [s + c] else [])

/-- E_s in 1/256 °C: T_s + G_s × P_s, the readings in 1/256 °C and the powers in W (R778). -/
def estimate (temps powers : List Nat) (d s : Nat) : Nat := nth temps (sensorAt d s) + Config.gradient d s * nth powers (sensorAt d s)

/-- Sensor s of die d. -/
def sensor (m : Chip) (d s : Nat) : Sensor := tget {} (d * 64 + s) m.pwr.sens

/-- A sensor after a sample of estimates e, its neighbours' validity as it stood before (R779). -/
def sensorNext (m : Chip) (e : Nat → Nat) (d s : Nat) : Sensor :=
  let ns := (neighbours d s).filter (fun n => !(sensor m d n).suspect)
  let k := ns.length
  let sum := (ns.map e).foldl (· + ·) 0
  let diff := (e s * k - sum) + (sum - e s * k)
  let old := sensor m d s
  if k = 0 then { est := e s, suspect := old.suspect, run := 0 }
  else if old.suspect then
    (if 5 * 256 * k < diff then { est := e s, suspect := true, run := 0 }
     else if 64 ≤ old.run + 1 then { est := e s, suspect := false, run := 0 } else { est := e s, suspect := true, run := old.run + 1 })
  else if diff ≤ 15 * 256 * k then { est := e s, suspect := false, run := 0 }
  else if 16 ≤ old.run + 1 then { est := e s, suspect := true, run := 0 } else { est := e s, suspect := false, run := old.run + 1 }

/-- The valid sensors of a die. -/
def validOf (m : Chip) (d : Nat) : List Nat := (List.range (sensors d)).filter (fun s => !(sensor m d s).suspect)

/-- The largest estimate of a die's valid sensors. -/
def measured (m : Chip) (d : Nat) : Nat := ((validOf m d).map (fun s => (sensor m d s).est)).foldl max 0

/-- The die has sensors enough to give its own TJ (R780). -/
def enough (m : Chip) (d : Nat) : Bool := decide ((if d < 8 then 4 else 8) ≤ (validOf m d).length)

/-- The die is in service; the base dies always are. -/
def dieServes (m : Chip) (d : Nat) : Bool := decide (8 ≤ d) || dieUp m d

/-- TJ of a base die in 1/256 °C, and whether it is taken by fallback (R780). -/
def baseTj (m : Chip) (d : Nat) : Nat × Bool :=
  if (List.range 10).all (fun x => (validOf m x).isEmpty) then (115 * 256, true)
  else if enough m d then (measured m d, false)
  else if enough m (17 - d) then (measured m (17 - d) + 2560, true)
  else (((List.range 10).map (measured m)).foldl max 0 + 2560, true)

/-- TJ of a die, and whether it is taken by fallback (R780). -/
def dieTj (m : Chip) (d : Nat) : Nat × Bool :=
  if 8 ≤ d then baseTj m d
  else if (List.range 10).all (fun x => (validOf m x).isEmpty) then (115 * 256, true)
  else if enough m d then (measured m d, false)
  else
    let peers := (List.range 8).filter (fun x => x != d && x / 4 == d / 4 && dieUp m x && enough m x)
    ((if peers = [] then (baseTj m (8 + d / 4)).1 else (peers.map (measured m)).foldl max 0) + 2560, true)

/-- The thermal state that a TJ gives: 0 NORMAL, 1 WARNING, 2 THROTTLE (R781). -/
def thermalState (old tj : Nat) : Nat :=
  let warn := if old = 0 then decide (95 * 256 ≤ tj) else decide (90 * 256 < tj)
  let thr := if old = 2 then decide (100 * 256 < tj) else decide (105 * 256 ≤ tj)
  if thr then 2 else if warn then 1 else 0

/-- The shutdown condition of a die (R782). -/
def hotDie (m : Chip) (d : Nat) : Bool :=
  let t := dieTj m d
  (t.2 && decide (115 * 256 ≤ t.1)) ||
  (validOf m d).any (fun s => decide (115 * 256 ≤ (sensor m d s).est) &&
    (neighbours d s).any (fun n => !(sensor m d n).suspect && decide (105 * 256 ≤ (sensor m d n).est)))

/-- Every sensor takes its new estimate; each exclusion counts (R779). -/
def sampleSensors (temps powers : List Nat) (m : Chip) : Chip :=
  (List.range 10).foldl (fun c d => (List.range (sensors d)).foldl (fun c s =>
    let new := sensorNext m (estimate temps powers d) d s
    let c1 := { c with pwr := { c.pwr with sens := tput {} (d * 64 + s) new c.pwr.sens } }
    if new.suspect && !(sensor m d s).suspect then bump c1 PWR_SUSPECT_CTR 1 else c1) c) m

/-- The registers of a die's junction estimate. -/
def noteTj (m : Chip) (d : Nat) : Chip :=
  let t := dieTj m d
  fset (fset (fset m (PWR_TJd_FALLBACK d) (b2n t.2)) (PWR_TJd_VALID d) (validOf m d).length) (PWR_TJd_TJ d) (sat 255 (t.1 / 256))

/-- The notices of a die whose thermal state goes from old to new. -/
def stateNotices (m : Chip) (d old new : Nat) : Chip :=
  let m1 := if old = 0 ∧ new ≠ 0 then thermalNotice (fset m PWR_STAT_WARNING_SEEN 1) 0 d 0 else m
  let m2 := if old ≠ 2 ∧ new = 2 then thermalNotice (fset m1 PWR_STAT_THROTTLE_SEEN 1) 2 d 0 else m1
  let m3 := if old = 2 ∧ new ≠ 2 then thermalNotice m2 3 d 0 else m2
  if old ≠ 0 ∧ new = 0 then thermalNotice m3 1 d 0 else m3

/-- The notices of a sample: sensors that changed, dies that went into fallback, thermal states. old is the machine before it. -/
def sampleNotices (old m : Chip) : Chip :=
  (List.range 10).foldl (fun c d =>
    let c1 := (List.range (sensors d)).foldl (fun c s =>
      let a := (sensor old d s).suspect
      let b := (sensor m d s).suspect
      if a == b then c else thermalNotice c (if b then 4 else 5) d s) c
    let c2 := if fon m (PWR_TJd_FALLBACK d) && !fon old (PWR_TJd_FALLBACK d) then thermalNotice c1 6 d 0 else c1
    stateNotices c2 d (tget 0 d old.pwr.dieState) (tget 0 d m.pwr.dieState)) m

/-- THERMAL_SAMPLE (R778 to R781): the sensors, the junction estimates, the thermal states and their registers. -/
def doThermalSample (temps powers : List Nat) (m : Chip) : Chip :=
  let m1 := sampleSensors temps powers m
  let m2 := (List.range 10).foldl noteTj m1
  let st := (List.range 10).map (fun d => thermalState (tget 0 d m.pwr.dieState) (dieTj m1 d).1)
  let stuck := m.pwr.stuck || (!enough m1 8 && !enough m1 9)
  let m3 := { m2 with pwr := { m2.pwr with dieState := (List.range 10).foldl (fun t d => tput 0 d (nth st d) t) [], stuck := stuck,
                                           hotDies := (List.range 10).filter (hotDie m1) } }
  let top := (List.range 10).foldl (fun a d => if dieServes m3 d then max a (nth st d) else a) 0
  let m4 := fset (fset (fset m3 PWR_STAT_STATE top) PWR_STAT_SUSPECT (b2n ((List.range 10).any (fun d => decide ((validOf m3 d).length < sensors d)))))
    PWR_STAT_FALLBACK (b2n ((List.range 10).any (fun d => fon m3 (PWR_TJd_FALLBACK d))))
  sampleNotices m (if stuck then fset m4 PWR_STAT_S_THERMAL 11 else m4)

/-- A die meets the shutdown condition in a second sample running (R782). -/
def overheated (old m : Chip) : Bool := m.pwr.hotDies.any (fun d => old.pwr.hotDies.contains d)

/-- Thermal shutdown (R782, R810): no DEPART; every rail but VSB goes off and the trip latch is set. -/
def thermalTrip (s : State) : State :=
  let t := railsOff s
  { t with board := { t.board with trip := true, hot := true } }

/-- Meaning of THERMAL_SAMPLE: the thermal model is hardware, and acts in a role-fatal module too, which posts nothing. -/
def execThermalSample (temps powers : List Nat) (s : State) : Host.Outcome State Fault Refusal :=
  if s.board.rails && s.chip.start.phase != 0 then
    let m := doThermalSample temps powers s.chip
    .next (if overheated s.chip m then thermalTrip { s with chip := m }
      else { s with chip := if s.chip.start.phase = 7 then { m with err := s.chip.err } else settle m })
  else .next s

/-! ### Performance steps (R784 to R793) -/

/-- next_power (R788): S_power and the low run. -/
def nextPower (sp avg l run : Nat) : Nat × Nat :=
  if l < avg then (min (sp + 1) 11, 0)
  else if 100 * avg < 95 * l then (if 4 ≤ run + 1 then (sp - 1, 0) else (sp, run + 1))
  else (sp, 0)

/-- POWER_STEP_DECIDE (R777, R788 to R790): the epoch's average, S_power, S_thermal and NEXT_STEP. -/
def powerEpoch (m : Chip) : Chip :=
  let avg := sat 65535 (m.pwr.epochUw / (1024 * 10 ^ 6))
  let m1 := fset { m with pwr := { m.pwr with epochUw := 0 } } PWR_INPUT_AVG_W avg
  let m2 := if fon m1 PWR_STAT_S_THERMAL then bump m1 PWR_THR_EP_CTR 1 else m1
  let old := fget m2 PWR_STAT_S_THERMAL
  let any (k : Nat) : Bool := (List.range 10).any (fun d => tget 0 d m2.pwr.dieState == k)
  let th := if m2.pwr.stuck then 11 else if any 2 then min 11 (old + 1) else if any 1 then old else old - 1
  let force := fon m2 PWR_CTRL_FORCE
  let p := if force then (fget m2 PWR_STAT_S_POWER, m2.pwr.lowRun) else nextPower (fget m2 PWR_STAT_S_POWER) avg (nextLimit m2) m2.pwr.lowRun
  let floor := fget m2 PWR_CTRL_FLOOR
  let m3 := fset (fset { m2 with pwr := { m2.pwr with lowRun := p.2 } } PWR_STAT_S_THERMAL th) PWR_STAT_S_POWER p.1
  fset m3 PWR_STAT_NEXT_STEP (if force then max floor th else max (max p.1 th) floor)

/-- PERF_STEP_CHANGE (R785 to R787, R791, R792): NEXT_STEP and the next limit take effect, and the surge clamp ends. -/
def throttleAct (m : Chip) : Chip :=
  let new := fget m PWR_STAT_NEXT_STEP
  let m1 := if new = fget m PWR_STAT_STEP then m else bump m PWR_STEP_CTR 1
  let m2 := fset (fset (fset m1 PWR_STAT_STEP new) PWR_STAT_BCLK_HALF (b2n (decide (9 ≤ new)))) PWR_LIMIT_IN_FORCE (nextLimit m)
  let m3 := if m.pwr.surge then fset m2 PWR_STAT_S_POWER (min 11 (fget m PWR_STAT_S_POWER + 1)) else m2
  { m3 with pwr := { m3.pwr with surge := false, thrEpoch := now m / 2 ^ 20 + 1 } }

/-- Meaning of THROTTLE_WINDOW_OPEN. -/
def execThrottleWindowOpen (row : Nat) (s : State) : Host.Outcome State Fault Refusal :=
  runIf s (fun m => rowDue m row [6] .armed (·.start)) (openRow · row (fun _ c => throttleAct c))

/-- A THROTTLE row has an occurrence in this epoch that has not been skipped. -/
def throttleRowed (m : Chip) : Bool :=
  (rowsOf m).any (fun e => rowKind e.2.w == 6 && (e.2.st != .pending || e.2.start / 2 ^ 20 == now m / 2 ^ 20))

/-- THROTTLE_TIMER (R793): without a row in force, or when its occurrence was skipped, the controller acts at the same LT offset. -/
def throttleTimerDue (m : Chip) : Bool :=
  decide (0x80000 ≤ now m % 2 ^ 20) && m.pwr.thrEpoch != now m / 2 ^ 20 + 1 && !throttleRowed m

/-- Meaning of THROTTLE_TIMER. -/
def execThrottleTimer (s : State) : Host.Outcome State Fault Refusal := runIf s throttleTimerDue throttleAct

/-! ### Commands -/

/-- PWR.LIMIT (R796). The basic form sets FORCE and FLOOR to 0. -/
def doPwrLimit (i : Nat) (p : List Nat) (m : Chip) : Chip :=
  let w := nth p 0
  let lim := bitsN w 11 0
  if lim < 1000 ∨ 2800 < lim then fail m i 0x0B01
  else
    let m1 := fset (fset (fset m PWR_LIMIT_TARGET lim) PWR_CTRL_FLOOR (bitsN w 23 20)) PWR_CTRL_FORCE (bitN w 31)
    respond m1 i 0 [fget m PWR_LIMIT_TARGET * 2 ^ 16 + fget m PWR_LIMIT_IN_FORCE]

/-- Meaning of PWR_LIMIT. -/
def execPwrLimit (i : Nat) (s : State) : Host.Outcome State Fault Refusal := runCmd s i 0x0B01 (doPwrLimit i)

/-- PWR.STATUS (R796): one snapshot. -/
def doPwrStatus (i : Nat) (_ : List Nat) (m : Chip) : Chip :=
  respond m i 0 ([csr m PWR_STAT_STEP.off, csr m PWR_LIMIT_TARGET.off, csr m PWR_INPUT_AVG_W.off] ++ (List.range 10).map (fun d => csr m (PWR_TJd_TJ d).off) ++
    [csr m PWR_ENERGY_CTR, csr m (PWR_ENERGY_CTR + 4)])

/-- Meaning of PWR_STATUS. -/
def execPwrStatus (i : Nat) (s : State) : Host.Outcome State Fault Refusal := runCmd s i 0x0B02 (doPwrStatus i)

end Sys2Proof.Machine
end

