-- ==== Sys2Proof/Machine/Image.lean ====
section
/-! DEFINITION. The image: flash banks, headers, acceptance, the choice of a bank, keys, and the SEC commands (R671 to R676, R690 to R700). -/

namespace Sys2Proof.Machine

/-! ### Banks and headers (R671, R672) -/

/-- The flash bank k: 0 A, 1 B. -/
def bank (b : Board) (k : Nat) : Tab Byte := if k = 0 then b.bankA else b.bankB

/-- Set a flash bank. -/
def setBank (b : Board) (k : Nat) (t : Tab Byte) : Board := if k = 0 then { b with bankA := t } else { b with bankB := t }

/-- Bytes of a bank, which State holds as their differences from an erased byte, 0xFF (PRESUMED, assumption 52). -/
def bankBytes (b : Board) (k off n : Nat) : List Byte := (List.range n).map (fun i => 0xFF#8 ^^^ tget 0#8 (off + i) (bank b k))

/-- Write bytes into a bank; what lies beyond its 32 MiB is not reached. -/
def putBank (b : Board) (k off : Nat) (bs : List Byte) : Board := setBank b k (putCells (bank b k) off ((bs.take (2 ^ 25 - off)).map (fun x => 0xFF#8 ^^^ x)))

/-- MAGIC, FORMAT and the other words of a header. -/
def imgMagic : Nat := 0x4D494F54

/-- BODY_BYTES. -/
def imgBody (h : List Nat) : Nat := nth h 3
/-- SVN of a header. -/
def imgSvn (h : List Nat) : Nat := bitsN (nth h 2) 7 0
/-- KEY of a header. -/
def imgKey (h : List Nat) : Nat := bitsN (nth h 1) 7 0
/-- PUBKEY. -/
def imgPub (h : List Nat) : List Byte := (wordBytes ((h.drop 5).take 15)).take 57
/-- SIGNATURE. -/
def imgSig (h : List Nat) : List Byte := (wordBytes ((h.drop 20).take 29)).take 114

/-- The measurement of an image (R672). -/
def measure (h : List Nat) (body : List Byte) : List Byte :=
  shake256 (wordBytes (h.take 20 ++ List.replicate 29 0 ++ (h.drop 49).take 15) ++ body) 64

/-- Check 1 of R674: the form. -/
def formOk (h : List Nat) : Bool :=
  nth h 0 == imgMagic && bitsN (nth h 1) 31 16 == 1 && bitsN (nth h 1) 15 8 == 0 && bitsN (nth h 2) 31 8 == 0 &&
  imgBody h % 64 == 0 && decide (imgBody h ≤ 33554176) && bitsN (nth h 19) 31 8 == 0 && bitsN (nth h 48) 31 16 == 0 && ((h.drop 49).take 15).all (· == 0)

/-- Check 2: the key. -/
def keyOk (b : Board) (h : List Nat) : Bool :=
  let d := shake256 (imgPub h) 32
  match imgKey h with
  | 0 => d == b.key0 && !b.key0Revoked
  | 1 => d == b.key1
  | _ => false

/-- Check 3: the rollback check. -/
def svnOk (b : Board) (h : List Nat) : Bool := decide (b.fuseSvn ≤ imgSvn h)

/-- Check 4: the signature. -/
def sigOk (h : List Nat) (meas : List Byte) : Bool := edVerify (imgPub h) meas (imgSig h)

/-- The header of a bank. -/
def bankHeader (b : Board) (k : Nat) : List Nat := bytesWords (bankBytes b k 0 256)

/-- The measurement of a bank's image. -/
def bankMeas (b : Board) (k : Nat) : List Byte := measure (bankHeader b k) (bankBytes b k 256 (imgBody (bankHeader b k)))

/-- The boot ROM accepts a bank (R674); at a warm start an unchanged measurement stands in for check 4 (R676), which the answer says was skipped. -/
def accept (b : Board) (warm : Bool) (last : List Byte) (k : Nat) : Option Bool :=
  let h := bankHeader b k
  if formOk h && keyOk b h && svnOk b h then
    let ms := bankMeas b k
    if warm && last == ms then some true else if sigOk h ms then some false else none
  else none

/-- choose_bank (R675): the bank and whether check 4 was skipped, with the boot record as it is left. -/
def chooseBank (b : Board) (warm : Bool) (last : List Byte) : Option (Nat × Bool) × Board :=
  let ask (b : Board) (k : Nat) : Option (Nat × Bool) := (accept b warm last k).map (fun s => (k, s))
  let b0 := { b with bankPending := none }
  match b.bankPending.bind (ask b0) with
  | some r => (some r, { b0 with trial := some r.1 })
  | none =>
    match (if warm then b0.trial else none).bind (ask b0) with
    | some r => (some r, b0)
    | none =>
      let b1 := { b0 with trial := none }
      ((ask b1 b1.selected).or (ask b1 (1 - b1.selected)), b1)

/-! ### Keys (R690, R691) -/

/-- The identity key. -/
def identityKey (secret : List Byte) : List Byte :=
  shake256 (secret ++ [0x53#8, 0x59#8, 0x39#8, 0x32#8, 0x34#8, 0x30#8, 0x2D#8, 0x49#8, 0x44#8]) 57

/-- The alias key of a measurement and an SVN. -/
def aliasKeyOf (secret meas : List Byte) (svn : Nat) : List Byte := shake256 (secret ++ meas ++ [BitVec.ofNat 8 svn]) 57

/-- The DER length of n bytes. -/
def derLen (n : Nat) : List Byte :=
  if n < 128 then [BitVec.ofNat 8 n] else if n < 256 then [0x81#8, BitVec.ofNat 8 n] else [0x82#8, BitVec.ofNat 8 (n / 256), BitVec.ofNat 8 n]

/-- The alias certificate: the part to be signed, the algorithm Ed448, and the identity key's signature, as X.509 in DER (R691; RFC 8410). -/
def aliasCertOf (secret meas : List Byte) (svn : Nat) : List Byte :=
  let tbs := Config.aliasTbs (edPublic (aliasKeyOf secret meas svn)) meas svn
  let body := tbs ++ [0x30#8, 0x05#8, 0x06#8, 0x03#8, 0x2B#8, 0x65#8, 0x71#8] ++ [0x03#8, 0x73#8, 0x00#8] ++ edSign (identityKey secret) tbs
  0x30#8 :: derLen body.length ++ body

/-! ### State of the boot (R692, R701) -/

/-- The running bank is a trial bank. -/
def trialRuns (b : Board) (m : Chip) : Bool := b.trial == some m.start.running

/-- SEC_STAT as the boot record and the start leave it. -/
def secStat (b : Board) (m : Chip) : Chip :=
  let set (c : Chip) (f : Fld) (v : Bool) : Chip := fset c f (b2n v)
  set (set (set (set (set (set m SEC_STAT_VERIFY_SKIPPED m.start.skipped) SEC_STAT_TRIAL (trialRuns b m)) SEC_STAT_PENDING b.bankPending.isSome)
    SEC_STAT_SELECTED (b.selected == 1)) SEC_STAT_LAST_START m.start.warm) SEC_STAT_RUNNING (m.start.running == 1)

/-- Word 1 of SEC.MEASURE. -/
def svnWord (b : Board) (m : Chip) : Nat := b.fuseSvn % 256 * 2 ^ 16 + m.start.svn % 256 * 2 ^ 8 + m.start.key % 256

/-- Run a mailbox command whose meaning also reaches the fuses and the flash. -/
def runBoardCmd (s : State) (i code : Nat) (f : List Nat → State → State) : Host.Outcome State Fault Refusal :=
  if acts s && cmdReady s.chip i code then
    let t := f (cmdPay s.chip i) s
    .next { t with chip := settle (secStat t.board t.chip) }
  else run s id

/-- SEC.MEASURE (R692). -/
def doSecMeasure (b : Board) (i : Nat) (m : Chip) : Chip :=
  let w0 := b2n m.start.skipped * 2 ^ 24 + b2n (trialRuns b m) * 2 ^ 20 + b2n b.bankPending.isSome * 2 ^ 16 + b.selected % 2 * 2 ^ 8 + m.start.running % 2
  respond m i 0 ([w0, svnWord b m, b2n b.key0Revoked * 2 + b2n m.start.warm] ++ bytesWords (fit 64 0#8 m.start.meas))

/-- Meaning of SEC_MEASURE. -/
def execSecMeasure (i : Nat) (s : State) : Host.Outcome State Fault Refusal := runCmd s i 0x0C01 (fun _ => doSecMeasure s.board i)

/-- The report of SEC.ATTEST, words 0 to 35 (R694). -/
def attestReport (b : Board) (m : Chip) (nonce : List Nat) : List Nat :=
  [2 ^ 16 + 36, 0x92404130] ++ bytesWords (fit 16 0#8 b.serial) ++
  [b2n m.start.warm * 2 ^ 26 + b2n (trialRuns b m) * 2 ^ 25 + m.start.running % 2 * 2 ^ 24 + svnWord b m, Config.romId.toNat] ++
  bytesWords (fit 64 0#8 m.start.meas) ++ fit 8 0 nonce ++ lohi (now m) ++ [bitsN (csr m 0x43C) 11 0, 0]

/-- Words of a byte string, the last filled up with zeros. -/
def padWords (bs : List Byte) : List Nat := bytesWords (fit (cdiv bs.length 4 * 4) 0#8 bs)

/-- SEC.ATTEST (R693 to R695). -/
def doSecAttest (b : Board) (i : Nat) (p : List Nat) (m : Chip) : Chip :=
  if bitsN (nth p 0) 31 28 = 0 then
    let r := attestReport b m (p.drop 1)
    respond m i 0 (r ++ bytesWords (fit 116 0#8 (edSign m.start.aliasKey (wordBytes r))))
  else
    let cert := if tb (nth p 0) 24 then m.start.aliasCert else b.deviceCert
    let off := nth p 1
    if cert.length ≤ off then fail m i 2
    else
      let n := min 2000 (cert.length - off)
      respond m i 0 ([cert.length, n] ++ padWords ((cert.drop off).take n))

/-- Meaning of SEC_ATTEST. -/
def execSecAttest (i : Nat) (s : State) : Host.Outcome State Fault Refusal := runCmd s i 0x0C02 (doSecAttest s.board i)

/-! ### SEC.UPDATE (R696 to R699) -/

/-- The bank that is neither running nor selected, if there is one. -/
def freeBank (b : Board) (m : Chip) : Option Nat := if m.start.running = b.selected then some (1 - b.selected) else none

/-- The status of the first of R674's checks that an image fails. -/
def imageStatus (b : Board) (h : List Nat) (body : List Byte) (bytes : Nat) : Option Nat :=
  if !formOk h || bytes != 256 + imgBody h then some 0x0C01
  else if !keyOk b h then some 0x0C02
  else if !svnOk b h then some 0x0C03
  else if !sigOk h (measure h body) then some 0x0C04
  else none

/-- The header of a bank is erased (R697, step 2). -/
def eraseHeader (b : Board) (k : Nat) : Board := putBank b k 0 (List.replicate 256 0xFF#8)

/-- Answer a SEC.UPDATE that has finished: BANK, SVN, ELAPSED. -/
def updateDone (i k svn : Nat) (m : Chip) : Chip := respond m i 0 [k % 2 * 2 ^ 8 + svn % 256, elapsed m (cmdT0 m i)]

/-- SEC.UPDATE WRITE: the checks, then the erased header; programming goes on until FLASH_PROGRAM_DONE. An image with a line that fails its check has not the form. -/
def updateWrite (i : Nat) (p : List Nat) (s : State) : State :=
  let m := s.chip
  let da := nth p 1 + 2 ^ 32 * nth p 2
  let n := nth p 3
  if da % 128 ≠ 0 ∨ 2 ^ 25 < n ∨ !scratchRange m da (max 1 n) then { s with chip := fail m i 0x0101 }
  else if !deviceReady m da n then { s with chip := flipRange m da n }
  else
    let r := loadBytes m da n true
    let h := bytesWords (r.1.take 256)
    let body := r.1.drop 256
    match (if n < 256 ∨ r.2.1.isSome then some 0x0C01 else imageStatus s.board h body n), freeBank s.board m with
    | some st, _ => { s with chip := fail r.2.2 i st }
    | none, none => { s with chip := fail r.2.2 i 0x0C05 }
    | none, some k =>
      { s with board := eraseHeader s.board k,
               chip := cmdOn { r.2.2 with start := { m.start with update := some (i, k), updImage := r.1 } } i [] }

/-- SEC.UPDATE COMMIT (R698): the trial bank becomes the selected one, then the fuses follow its SVN unless KEEP_SVN is 1. -/
def updateCommit (i : Nat) (keep : Bool) (s : State) : State :=
  if !trialRuns s.board s.chip then { s with chip := fail s.chip i 0x0C05 }
  else
    let k := s.chip.start.running
    let svn := s.chip.start.svn
    let b := { s.board with selected := k, trial := none }
    if keep then { s with board := b, chip := updateDone i k svn s.chip }
    else if 64 < svn then { s with board := b, chip := fail s.chip i 0x0C07 }
    else { s with board := { b with fuseSvn := max b.fuseSvn svn }, chip := updateDone i k svn s.chip }

/-- SEC.UPDATE REVERT (R698): a pending bank is pending no more; else the other bank is selected when it passes checks 1 to 3. -/
def updateRevert (i : Nat) (s : State) : State :=
  let b := s.board
  let k := 1 - b.selected
  let h := bankHeader b k
  if b.bankPending.isSome then
    { s with board := { b with bankPending := none }, chip := updateDone i b.selected (imgSvn (bankHeader b b.selected)) s.chip }
  else if !formOk h || !keyOk b h then { s with chip := fail s.chip i 0x0C05 }
  else if !svnOk b h then { s with chip := fail s.chip i 0x0C03 }
  else { s with board := { b with selected := k }, chip := updateDone i k (imgSvn h) s.chip }

/-- SEC.UPDATE. -/
def doSecUpdate (i : Nat) (p : List Nat) (s : State) : State :=
  if s.chip.start.update.isSome then { s with chip := fail s.chip i 1 }
  else match bitsN (nth p 0) 31 28 with
    | 0 => updateWrite i p s
    | 1 => updateCommit i (tb (nth p 0) 24) s
    | _ => updateRevert i s

/-- Meaning of SEC_UPDATE. -/
def execSecUpdate (i : Nat) (s : State) : Host.Outcome State Fault Refusal := runBoardCmd s i 0x0C03 (doSecUpdate i)

/-- FLASH_PROGRAM_DONE (R697, steps 3 to 5): the image stands in its bank and the bank is pending, or SEC_FLASH. -/
def doFlashProgramDone (ok : Bool) (s : State) : State :=
  match s.chip.start.update with
  | none => s
  | some (i, k) =>
    let img := s.chip.start.updImage
    let m := { s.chip with start := { s.chip.start with update := none, updImage := [] } }
    if ok then { s with board := { putBank s.board k 0 img with bankPending := some k }, chip := updateDone i k (imgSvn (bytesWords (img.take 256))) m }
    else { s with chip := fail m i 0x0C06 }

/-- Meaning of FLASH_PROGRAM_DONE. -/
def execFlashProgramDone (ok : Bool) (s : State) : Host.Outcome State Fault Refusal :=
  if acts s && s.chip.start.update.isSome then
    let t := doFlashProgramDone ok s
    .next { t with chip := settle (secStat t.board t.chip) }
  else run s id

end Sys2Proof.Machine
end

