-- ==== Sys2Proof/Machine/Flags.lean ====
section
/-! DEFINITION. The predicates of a group: comparisons, their combination, and writing predicates (R207 to R210). -/

namespace Sys2Proof.Machine

/-- Predicate i of a group as a mask over its threads. -/
def preds (g : Grp) (i : Nat) : Nat := tget 0 i g.p

/-- Predicate i of thread t. -/
def predOf (g : Grp) (i t : Nat) : Bool := tb (preds g i) t

/-- Set predicate i in the threads of a mask to the bits given; other threads keep it. -/
def setPreds (g : Grp) (i mask bits : Nat) : Grp :=
  { g with p := tput 0 i (((preds g i) &&& (allThreads - mask % 2 ^ 64)) ||| (bits &&& (mask % 2 ^ 64))) g.p }

/-- An integer comparison (R207): 0 EQ, 1 NE, 2 LT, 3 LE, 4 GT, 5 GE; unsigned or signed. -/
def cmpInt (c : Nat) (uns : Bool) (a b : Nat) : Bool :=
  let lt := if uns then decide (a < b) else decide (sgn 32 a < sgn 32 b)
  let eq := a == b
  match c with
  | 0 => eq
  | 1 => !eq
  | 2 => lt
  | 3 => lt || eq
  | 4 => !(lt || eq)
  | _ => !lt

/-- A floating-point comparison (R207): false with a NaN operand, but NE true; the zeros are equal. -/
def cmpFp (c : Nat) (a b : Fv) : Bool :=
  if a.isNan || b.isNan then c == 1
  else
    let lt := a.lt b
    let gt := b.lt a
    match c with
    | 0 => !lt && !gt
    | 1 => lt || gt
    | 2 => lt
    | 3 => !gt
    | 4 => gt
    | _ => !lt

/-- Combine a comparison with a predicate (R207): 0 none, 1 AND, 2 OR, 3 XOR. -/
def combine (k : Nat) (x p : Bool) : Bool :=
  match k with
  | 0 => x
  | 1 => x && p
  | 2 => x || p
  | _ => x != p

/-- The mask of the threads, among those of mask, at which f holds. -/
def predMask (mask : Nat) (f : Nat → Bool) : Nat := maskN 64 (fun t => tb mask t && f t)

/-- The whole comparison of a word in thread t: its result combined with p[PSEL]. -/
def cmpResult (w : Nat) (g : Grp) (x : Nat → Bool) (t : Nat) : Bool := combine (iAux w / 32 % 4) (x t) (predOf g (iPsel w) t)

end Sys2Proof.Machine
end

