-- ==== Sys2Proof/Machine/IntInstr.lean ====
section
/-! DEFINITION. Integer, move and lane instructions (R190 to R194), and the uniform instructions of class 0x9. -/

namespace Sys2Proof.Machine

/-! ### The operations -/

/-- Saturate to the signed 32-bit range (R190). -/
def satS32 (v : Int) : Nat := unsgn 32 (if v > 2147483647 then 2147483647 else if v < -2147483648 then -2147483648 else v)

/-- IADD (R190). -/
def opIadd (w a b : Nat) : Nat := if iSat w then satS32 (sgn 32 a + sgn 32 b) else (a + b) % 2 ^ 32

/-- ISUB (R190). -/
def opIsub (w a b : Nat) : Nat := if iSat w then satS32 (sgn 32 a - sgn 32 b) else (a + 2 ^ 32 - b % 2 ^ 32) % 2 ^ 32

/-- IMULHI (R190): the high word of the product, signed when AUX[0] is 1. -/
def opImulhi (s : Bool) (a b : Nat) : Nat := if s then unsgn 64 (sgn 32 a * sgn 32 b) / 2 ^ 32 else a * b / 2 ^ 32 % 2 ^ 32

/-- Smaller of a and b, unsigned or signed. -/
def opMin (uns : Bool) (a b : Nat) : Nat := if uns then min a b else if sgn 32 b < sgn 32 a then b else a

/-- Larger of a and b, unsigned or signed. -/
def opMax (uns : Bool) (a b : Nat) : Nat := if uns then max a b else if sgn 32 a < sgn 32 b then b else a

/-- SHL (R190). -/
def opShl (a b : Nat) : Nat := let n := b % 64; if n ≥ 32 then 0 else a * 2 ^ n % 2 ^ 32

/-- SHR (R190): arithmetic when asked. -/
def opShr (ar : Bool) (a b : Nat) : Nat :=
  let n := b % 64
  if ar then unsgn 32 (sgn 32 a / 2 ^ (min n 32)) else if n ≥ 32 then 0 else a / 2 ^ n

/-- Leading zeros of a 32-bit value; 32 of 0. -/
def opClz (a : Nat) : Nat := if a = 0 then 32 else 31 - Nat.log2 a

/-- BEXT (R190): b[13:8] bits of a from bit b[4:0]; bits above bit 31 read as 0; sign-extended from the field's top bit when asked. -/
def opBext (s : Bool) (a b : Nat) : Nat :=
  let n := bitsN b 13 8
  let v := a / 2 ^ (b % 32) % 2 ^ n
  if s && n != 0 && decide (n < 32) && tb v (n - 1) then 2 ^ 32 - 2 ^ n + v else v % 2 ^ 32

/-- BINS (R190): bits from b[4:0] on, b[13:8] of them, of c replaced by the low bits of a; bits above bit 31 are not written. -/
def opBins (a b c : Nat) : Nat :=
  let p := b % 32
  let n := min (bitsN b 13 8) (32 - p)
  if n = 0 then c else setBitsN c (p + n - 1) p a

/-- BSEL (R190): byte i is chosen by nibble i of c from the 64-bit value b:a, or is 0. -/
def opBsel (a b c : Nat) : Nat :=
  sumN 4 (fun i => let n := bitsN c (4 * i + 3) (4 * i); if n ≥ 8 then 0 else bitsN (a + 2 ^ 32 * b) (8 * n + 7) (8 * n) * 2 ^ (8 * i))

/-- The source thread of XLANE, if it lies in 0 to 63 (R193). -/
def xlaneFrom (mode t b : Nat) : Option Nat :=
  match mode with
  | 0 => some (b % 64)
  | 1 => if b ≤ t then some (t - b) else none
  | 2 => if t + b < 64 then some (t + b) else none
  | _ => some (t ^^^ (b % 64))

/-! ### Shapes of instructions -/

/-- A Thread instruction with one result per thread: DST of each acting thread takes f at its A, B and C. -/
def alu3 (f : Nat → Nat → Nat → Nat → Nat) (w : Nat) (g : Grp) : Grp :=
  perThread g (acting w g) (iDst w) (fun t => f w (rget g (iA w) t) (srcB w g t) (srcC w g t))

/-- A Group instruction with one result: DST takes f at A and B. -/
def uni2 (f : Nat → Nat → Nat) (w : Nat) (g : Grp) : Grp := rput g (iDst w) 0 (f (rget g (iA w) 0) (rget g (iB w) 0))

/-! ### Meanings -/

/-- Meaning of IADD. -/
def execIadd (core slot : Nat) (word : BitVec 64) (s : State) : Host.Outcome State Fault Refusal :=
  issueAlu s core slot word [0x10, 0x20] (alu3 (fun w a b _ => opIadd (if iOp w = 0x20 then 0 else w) a b))

/-- Meaning of ISUB. -/
def execIsub (core slot : Nat) (word : BitVec 64) (s : State) : Host.Outcome State Fault Refusal :=
  issueAlu s core slot word [0x11, 0x21] (alu3 (fun w a b _ => opIsub (if iOp w = 0x21 then 0 else w) a b))

/-- Meaning of IMUL: the low 32 bits of the product (R190). -/
def execImul (core slot : Nat) (word : BitVec 64) (s : State) : Host.Outcome State Fault Refusal :=
  issueAlu s core slot word [0x12, 0x22] (alu3 (fun _ a b _ => a * b % 2 ^ 32))

/-- AUX[0] of a format R word; format I has no AUX. -/
def aux0 (w : Nat) : Bool := decide (iOp w / 16 = 1) && tb w 0

/-- Meaning of IMULHI. -/
def execImulhi (core slot : Nat) (word : BitVec 64) (s : State) : Host.Outcome State Fault Refusal :=
  issueAlu s core slot word [0x13, 0x23] (alu3 (fun w a b _ => opImulhi (aux0 w) a b))

/-- Meaning of IMAC: the low 32 bits of a × b + c (R190). -/
def execImac (core slot : Nat) (word : BitVec 64) (s : State) : Host.Outcome State Fault Refusal :=
  issueAlu s core slot word [0x14, 0x24] (alu3 (fun _ a b c => (a * b + c) % 2 ^ 32))

/-- Meaning of IMIN. -/
def execImin (core slot : Nat) (word : BitVec 64) (s : State) : Host.Outcome State Fault Refusal :=
  issueAlu s core slot word [0x15, 0x25] (alu3 (fun w a b _ => opMin (aux0 w) a b))

/-- Meaning of IMAX. -/
def execImax (core slot : Nat) (word : BitVec 64) (s : State) : Host.Outcome State Fault Refusal :=
  issueAlu s core slot word [0x16, 0x26] (alu3 (fun w a b _ => opMax (aux0 w) a b))

/-- Meaning of SHL. -/
def execShl (core slot : Nat) (word : BitVec 64) (s : State) : Host.Outcome State Fault Refusal :=
  issueAlu s core slot word [0x17, 0x27] (alu3 (fun _ a b _ => opShl a b))

/-- Meaning of SHR. -/
def execShr (core slot : Nat) (word : BitVec 64) (s : State) : Host.Outcome State Fault Refusal :=
  issueAlu s core slot word [0x18, 0x28] (alu3 (fun w a b _ => opShr (aux0 w) a b))

/-- Meaning of AND. -/
def execAndI (core slot : Nat) (word : BitVec 64) (s : State) : Host.Outcome State Fault Refusal :=
  issueAlu s core slot word [0x19, 0x29] (alu3 (fun _ a b _ => a &&& b))

/-- Meaning of OR. -/
def execOrI (core slot : Nat) (word : BitVec 64) (s : State) : Host.Outcome State Fault Refusal :=
  issueAlu s core slot word [0x1A, 0x2A] (alu3 (fun _ a b _ => a ||| b))

/-- Meaning of XOR. -/
def execXorI (core slot : Nat) (word : BitVec 64) (s : State) : Host.Outcome State Fault Refusal :=
  issueAlu s core slot word [0x1B, 0x2B] (alu3 (fun _ a b _ => a ^^^ b))

/-- Meaning of PCNT. -/
def execPcnt (core slot : Nat) (word : BitVec 64) (s : State) : Host.Outcome State Fault Refusal :=
  issueAlu s core slot word [0x1C] (alu3 (fun _ a _ _ => popN 32 a))

/-- Meaning of CLZ. -/
def execClz (core slot : Nat) (word : BitVec 64) (s : State) : Host.Outcome State Fault Refusal :=
  issueAlu s core slot word [0x1D] (alu3 (fun _ a _ _ => opClz a))

/-- Meaning of BEXT. -/
def execBext (core slot : Nat) (word : BitVec 64) (s : State) : Host.Outcome State Fault Refusal :=
  issueAlu s core slot word [0x1E, 0x2E] (alu3 (fun w a b _ => opBext (aux0 w) a b))

/-- Meaning of BINS. -/
def execBins (core slot : Nat) (word : BitVec 64) (s : State) : Host.Outcome State Fault Refusal :=
  issueAlu s core slot word [0x1F, 0x2F] (alu3 (fun _ a b c => opBins a b c))

/-- Meaning of MOV. -/
def execMov (core slot : Nat) (word : BitVec 64) (s : State) : Host.Outcome State Fault Refusal :=
  issueAlu s core slot word [0x30] (alu3 (fun _ a _ _ => a))

/-- Meaning of MOVI. -/
def execMovi (core slot : Nat) (word : BitVec 64) (s : State) : Host.Outcome State Fault Refusal :=
  issueAlu s core slot word [0x31] (fun w g => perThread g (acting w g) (iDst w) (fun _ => iImm w))

/-- Meaning of SEL: a where p[PSEL] is 1, else b (R190). -/
def execSel (core slot : Nat) (word : BitVec 64) (s : State) : Host.Outcome State Fault Refusal :=
  issueAlu s core slot word [0x32]
    (fun w g => perThread g (acting w g) (iDst w) (fun t => if predOf g (iPsel w) t then rget g (iA w) t else rget g (iB w) t))

/-- Meaning of BSEL. -/
def execBsel (core slot : Nat) (word : BitVec 64) (s : State) : Host.Outcome State Fault Refusal :=
  issueAlu s core slot word [0x33] (alu3 (fun _ a b c => opBsel a b c))

/-- XLANE (R193). -/
def doXlane (w : Nat) (g : Grp) : Grp :=
  let act := acting w g
  perThread g act (iDst w) (fun t =>
    match xlaneFrom (iAux w % 4) t (rget g (iB w) t) with
    | some x => if tb act x then rget g (iA w) x else rget g (iA w) t
    | none => rget g (iA w) t)

/-- Meaning of XLANE. -/
def execXlane (core slot : Nat) (word : BitVec 64) (s : State) : Host.Outcome State Fault Refusal :=
  issueAlu s core slot word [0x34] doXlane

/-- The value of a special register but TID (R194). -/
def specialReg (m : Chip) (c : Nat) (g : Grp) (b : Blk) (x : Nat) : Nat :=
  match x with
  | 1 => g.idx
  | 2 => b.groups
  | 3 => b.num
  | 4 => ((launch m b.launch).map launchBlocks).getD 0
  | 5 => c
  | 6 => selfNum m
  | 7 => g.active % 2 ^ 32
  | 8 => g.active / 2 ^ 32
  | 9 => now m
  | _ => b.units.length * 512

/-- RDSP (R194). -/
def doRdsp (c slot w : Nat) (g : Grp) (b : Blk) (m : Chip) : Chip :=
  let v := specialReg m c g b (iAux w)
  setGrp m c slot (some (advance (perThread g (acting w g) (iDst w) (fun t => if iAux w = 0 then t else v))))

/-- Meaning of RDSP. -/
def execRdsp (core slot : Nat) (word : BitVec 64) (s : State) : Host.Outcome State Fault Refusal :=
  issueOp s core slot word [0x35] (doRdsp core slot)

/-- Meaning of IADD64: 64-bit a + b on register pairs (R190). -/
def execIadd64 (core slot : Nat) (word : BitVec 64) (s : State) : Host.Outcome State Fault Refusal :=
  issueAlu s core slot word [0x36]
    (fun w g => perThread64 g (acting w g) (iDst w) (fun t => (rget64 g (iA w) t + rget64 g (iB w) t) % 2 ^ 64))

/-! ### Uniform instructions -/

/-- Meaning of UADD. -/
def execUadd (core slot : Nat) (word : BitVec 64) (s : State) : Host.Outcome State Fault Refusal :=
  issueAlu s core slot word [0x90] (uni2 (fun a b => (a + b) % 2 ^ 32))

/-- Meaning of USUB. -/
def execUsub (core slot : Nat) (word : BitVec 64) (s : State) : Host.Outcome State Fault Refusal :=
  issueAlu s core slot word [0x91] (uni2 (fun a b => (a + 2 ^ 32 - b) % 2 ^ 32))

/-- Meaning of UMUL. -/
def execUmul (core slot : Nat) (word : BitVec 64) (s : State) : Host.Outcome State Fault Refusal :=
  issueAlu s core slot word [0x92] (uni2 (fun a b => a * b % 2 ^ 32))

/-- Meaning of UAND. -/
def execUand (core slot : Nat) (word : BitVec 64) (s : State) : Host.Outcome State Fault Refusal :=
  issueAlu s core slot word [0x93] (uni2 (fun a b => a &&& b))

/-- Meaning of UOR. -/
def execUor (core slot : Nat) (word : BitVec 64) (s : State) : Host.Outcome State Fault Refusal :=
  issueAlu s core slot word [0x94] (uni2 (fun a b => a ||| b))

/-- Meaning of UXOR. -/
def execUxor (core slot : Nat) (word : BitVec 64) (s : State) : Host.Outcome State Fault Refusal :=
  issueAlu s core slot word [0x95] (uni2 (fun a b => a ^^^ b))

/-- Meaning of USHL, as SHL on u registers (R188, R190). -/
def execUshl (core slot : Nat) (word : BitVec 64) (s : State) : Host.Outcome State Fault Refusal :=
  issueAlu s core slot word [0x96] (uni2 opShl)

/-- Meaning of USHR, as the logical SHR on u registers (R188, R190). -/
def execUshr (core slot : Nat) (word : BitVec 64) (s : State) : Host.Outcome State Fault Refusal :=
  issueAlu s core slot word [0x97] (uni2 (opShr false))

/-- Meaning of UMOV. -/
def execUmov (core slot : Nat) (word : BitVec 64) (s : State) : Host.Outcome State Fault Refusal :=
  issueAlu s core slot word [0x98] (fun w g => rput g (iDst w) 0 (rget g (iA w) 0))

/-- Meaning of UMOVI. -/
def execUmovi (core slot : Nat) (word : BitVec 64) (s : State) : Host.Outcome State Fault Refusal :=
  issueAlu s core slot word [0x99] (fun w g => rput g (iDst w) 0 (iImm w))

/-- Meaning of UADD64: 64-bit sum of u register pairs. -/
def execUadd64 (core slot : Nat) (word : BitVec 64) (s : State) : Host.Outcome State Fault Refusal :=
  issueAlu s core slot word [0x9A] (fun w g => rput64 g (iDst w) 0 ((rget64 g (iA w) 0 + rget64 g (iB w) 0) % 2 ^ 64))

/-- UCMP (R207): one comparison of u registers, for every live thread. -/
def doUcmp (w : Nat) (g : Grp) : Grp :=
  let x := cmpInt (iAux w % 16) (tb w 4) (rget g (iA w) 0) (rget g (iB w) 0)
  setPreds g (iDst w % 8) g.live (predMask g.live (cmpResult w g (fun _ => x)))

/-- Meaning of UCMP. -/
def execUcmp (core slot : Nat) (word : BitVec 64) (s : State) : Host.Outcome State Fault Refusal :=
  issueAlu s core slot word [0x9B] doUcmp

/-- URDSP (R194). -/
def doUrdsp (c slot w : Nat) (g : Grp) (b : Blk) (m : Chip) : Chip :=
  let v := specialReg m c g b (iAux w)
  setGrp m c slot (some (advance (if iAux w = 9 then rput64 g (iDst w) 0 v else rput g (iDst w) 0 v)))

/-- Meaning of URDSP. -/
def execUrdsp (core slot : Nat) (word : BitVec 64) (s : State) : Host.Outcome State Fault Refusal :=
  issueOp s core slot word [0x9C] (doUrdsp core slot)

end Sys2Proof.Machine
end

