-- ==== Sys2Proof/Machine/FpInstr.lean ====
section
/-! DEFINITION. Floating-point, packed, special-function and conversion instructions (R195 to R206). -/

namespace Sys2Proof.Machine

/-- A two- or three-operand operation on exact data under a rounding mode. -/
abbrev FpOp := Nat → Fv → Fv → Fv → Fv

/-- FADD, FMUL, FMAC, FMIN, FMAX (R195, R200). -/
def fpAdd : FpOp := fun r a b _ => a.add r b
/-- Product. -/
def fpMul : FpOp := fun _ a b _ => a.mul b
/-- Product and sum with one rounding. -/
def fpMac : FpOp := fun r a b c => (a.mul b).add r c
/-- Minimum. -/
def fpMin : FpOp := fun _ a b _ => a.min b
/-- Maximum. -/
def fpMax : FpOp := fun _ a b _ => a.max b

/-- The rounding mode of a word: RND of format R or of format I. -/
def fpRnd (w : Nat) : Nat := if 0x50 ≤ iOp w ∧ iOp w ≤ 0x54 then iRndI w else iRnd w

/-- The bits RND to FTZ of a format R word; a format I word has none of NEG, ABS, SAT and FTZ. -/
def fpMods (w : Nat) : Nat := if 0x50 ≤ iOp w ∧ iOp w ≤ 0x54 then 0 else w % 2 ^ 16

/-- One FP32 operation on bits (R195 to R199). -/
def fp32Op (op : FpOp) (w a b c : Nat) : Nat :=
  let q := fpMods w
  fp32.dst (fpRnd w) (iFtz q) (iSat q)
    (op (fpRnd w) (fp32.src (iFtz q) (iAbsA q) (iNegA q) a) (fp32.src (iFtz q) false (iNegB q) b) (fp32.src (iFtz q) false false c))

/-- One packed operation on both 16-bit elements (R201). -/
def pkOp (op : FpOp) (w a b c : Nat) : Nat :=
  let f := if tb w 0 then bf16 else fp16
  let e (i x : Nat) : Nat := x / 2 ^ (16 * i) % 65536
  let r (i : Nat) : Nat := f.dst (iRnd w) (iFtz w) (iSat w)
    (op (iRnd w) (f.src (iFtz w) (iAbsA w) (iNegA w) (e i a)) (f.src (iFtz w) false (iNegB w) (e i b)) (f.src (iFtz w) false false (e i c)))
  r 0 + 65536 * r 1

/-- Meaning of FADD. -/
def execFadd (core slot : Nat) (word : BitVec 64) (s : State) : Host.Outcome State Fault Refusal :=
  issueAlu s core slot word [0x40, 0x50] (alu3 (fp32Op fpAdd))

/-- Meaning of FMUL. -/
def execFmul (core slot : Nat) (word : BitVec 64) (s : State) : Host.Outcome State Fault Refusal :=
  issueAlu s core slot word [0x41, 0x51] (alu3 (fp32Op fpMul))

/-- Meaning of FMAC: format I adds to the previous DST, as R191 gives for IMAC (DEDUCED, assumption 41). -/
def execFmac (core slot : Nat) (word : BitVec 64) (s : State) : Host.Outcome State Fault Refusal :=
  issueAlu s core slot word [0x42, 0x52] (alu3 (fp32Op fpMac))

/-- Meaning of FMIN. -/
def execFmin (core slot : Nat) (word : BitVec 64) (s : State) : Host.Outcome State Fault Refusal :=
  issueAlu s core slot word [0x43, 0x53] (alu3 (fp32Op fpMin))

/-- Meaning of FMAX. -/
def execFmax (core slot : Nat) (word : BitVec 64) (s : State) : Host.Outcome State Fault Refusal :=
  issueAlu s core slot word [0x44, 0x54] (alu3 (fp32Op fpMax))

/-- Meaning of PKADD. -/
def execPkadd (core slot : Nat) (word : BitVec 64) (s : State) : Host.Outcome State Fault Refusal :=
  issueAlu s core slot word [0x60] (alu3 (pkOp fpAdd))

/-- Meaning of PKMUL. -/
def execPkmul (core slot : Nat) (word : BitVec 64) (s : State) : Host.Outcome State Fault Refusal :=
  issueAlu s core slot word [0x61] (alu3 (pkOp fpMul))

/-- Meaning of PKMAC. -/
def execPkmac (core slot : Nat) (word : BitVec 64) (s : State) : Host.Outcome State Fault Refusal :=
  issueAlu s core slot word [0x62] (alu3 (pkOp fpMac))

/-- Meaning of PKMIN. -/
def execPkmin (core slot : Nat) (word : BitVec 64) (s : State) : Host.Outcome State Fault Refusal :=
  issueAlu s core slot word [0x63] (alu3 (pkOp fpMin))

/-- Meaning of PKMAX. -/
def execPkmax (core slot : Nat) (word : BitVec 64) (s : State) : Host.Outcome State Fault Refusal :=
  issueAlu s core slot word [0x64] (alu3 (pkOp fpMax))

/-- CVT of one element (R203 to R206): the source element of A, merged into DST at PSEL. -/
def opCvt (w a old : Nat) : Nat :=
  let sc := iAux w / 16
  let dc := iAux w % 16
  let sw := cvtWidth sc
  let dw := cvtWidth dc
  let r := cvt sc dc (iRnd w) (iSat w) (iFtz w) (a / 2 ^ (iC w * sw) % 2 ^ sw)
  setBitsN old (iPsel w * dw + dw - 1) (iPsel w * dw) r

/-- Meaning of CVT. -/
def execCvt (core slot : Nat) (word : BitVec 64) (s : State) : Host.Outcome State Fault Refusal :=
  issueAlu s core slot word [0x70] (fun w g => perThread g (acting w g) (iDst w) (fun t => opCvt w (rget g (iA w) t) (rget g (iDst w) t)))

/-- The source bits of a special function, through ABS_A and NEG_A (R198). -/
def specialSrc (w a : Nat) : Nat :=
  let b := if iAbsA w then a % 2 ^ 31 else a
  if iNegA w then b ^^^ 2 ^ 31 else b

/-- A special function in every acting thread (R202). -/
def doSpecial (fn : Nat) (w : Nat) (g : Grp) : Grp := perThread g (acting w g) (iDst w) (fun t => special fn (specialSrc w (rget g (iA w) t)))

/-- Meaning of RCP. -/
def execRcp (core slot : Nat) (word : BitVec 64) (s : State) : Host.Outcome State Fault Refusal := issueAlu s core slot word [0x71] (doSpecial 0)

/-- Meaning of RSQ. -/
def execRsq (core slot : Nat) (word : BitVec 64) (s : State) : Host.Outcome State Fault Refusal := issueAlu s core slot word [0x72] (doSpecial 1)

/-- Meaning of SQRT. -/
def execSqrt (core slot : Nat) (word : BitVec 64) (s : State) : Host.Outcome State Fault Refusal := issueAlu s core slot word [0x73] (doSpecial 2)

/-- Meaning of EXP2. -/
def execExp2 (core slot : Nat) (word : BitVec 64) (s : State) : Host.Outcome State Fault Refusal := issueAlu s core slot word [0x74] (doSpecial 3)

/-- Meaning of LOG2. -/
def execLog2 (core slot : Nat) (word : BitVec 64) (s : State) : Host.Outcome State Fault Refusal := issueAlu s core slot word [0x75] (doSpecial 4)

/-- Meaning of TANH. -/
def execTanh (core slot : Nat) (word : BitVec 64) (s : State) : Host.Outcome State Fault Refusal := issueAlu s core slot word [0x76] (doSpecial 5)

end Sys2Proof.Machine
end

