-- ==== Sys2Proof/Machine/PredInstr.lean ====
section
/-! DEFINITION. Predicate instructions (R207 to R210). -/

namespace Sys2Proof.Machine

/-- ICMP (R207). -/
def doIcmp (w : Nat) (g : Grp) : Grp :=
  let act := acting w g
  setPreds g (iDst w % 8) act (predMask act (cmpResult w g (fun t => cmpInt (iAux w % 16) (tb w 4) (rget g (iA w) t) (rget g (iB w) t))))

/-- Meaning of ICMP. -/
def execIcmp (core slot : Nat) (word : BitVec 64) (s : State) : Host.Outcome State Fault Refusal := issueAlu s core slot word [0x80] doIcmp

/-- FCMP (R207): sources through FTZ, ABS_A and NEG (R197, R198). -/
def doFcmp (w : Nat) (g : Grp) : Grp :=
  let act := acting w g
  let a (t : Nat) := fp32.src (iFtz w) (iAbsA w) (iNegA w) (rget g (iA w) t)
  let b (t : Nat) := fp32.src (iFtz w) false (iNegB w) (rget g (iB w) t)
  setPreds g (iDst w % 8) act (predMask act (cmpResult w g (fun t => cmpFp (iAux w % 16) (a t) (b t))))

/-- Meaning of FCMP. -/
def execFcmp (core slot : Nat) (word : BitVec 64) (s : State) : Host.Outcome State Fault Refusal := issueAlu s core slot word [0x81] doFcmp

/-- PCOMB (R208). -/
def doPcomb (w : Nat) (g : Grp) : Grp :=
  let act := acting w g
  let a (t : Nat) : Bool := predOf g (iA w % 8) t != iNegA w
  let b (t : Nat) : Bool := predOf g (iB w % 8) t != iNegB w
  setPreds g (iDst w % 8) act (predMask act (fun t =>
    match iAux w with
    | 0 => a t && b t
    | 1 => a t || b t
    | _ => a t != b t))

/-- Meaning of PCOMB. -/
def execPcomb (core slot : Nat) (word : BitVec 64) (s : State) : Host.Outcome State Fault Refusal := issueAlu s core slot word [0x82] doPcomb

/-- PGRP (R209): OR, AND or MASK over the acting threads. -/
def doPgrp (w : Nat) (g : Grp) : Grp :=
  let act := acting w g
  let on := preds g (iA w % 8) &&& act
  match iAux w with
  | 0 => setPreds g (iDst w % 8) act (if on ≠ 0 then act else 0)
  | 1 => setPreds g (iDst w % 8) act (if on = act then act else 0)
  | _ => rput64 g (iDst w) 0 on

/-- Meaning of PGRP. -/
def execPgrp (core slot : Nat) (word : BitVec 64) (s : State) : Host.Outcome State Fault Refusal := issueAlu s core slot word [0x83] doPgrp

/-- Meaning of P2V: p7 to p0 in bits 7:0 (R210). -/
def execP2v (core slot : Nat) (word : BitVec 64) (s : State) : Host.Outcome State Fault Refusal :=
  issueAlu s core slot word [0x84] (fun w g => perThread g (acting w g) (iDst w) (fun t => maskN 8 (fun i => predOf g i t)))

/-- V2P (R210): p_i takes bit i of A for each i that AUX selects. -/
def doV2p (w : Nat) (g : Grp) : Grp :=
  let act := acting w g
  (List.range 8).foldl (fun h i => if tb (iAux w) i then setPreds h i act (predMask act (fun t => tb (rget g (iA w) t) i)) else h) g

/-- Meaning of V2P. -/
def execV2p (core slot : Nat) (word : BitVec 64) (s : State) : Host.Outcome State Fault Refusal := issueAlu s core slot word [0x85] doV2p

end Sys2Proof.Machine
end

