-- ==== Sys2Proof/Machine/FlowInstr.lean ====
section
/-! DEFINITION. Control flow: branches, calls, EXIT, barriers and TRAP (R113 to R122, R211 to R214). -/

namespace Sys2Proof.Machine

/-- Meaning of NOP. -/
def execNop (core slot : Nat) (word : BitVec 64) (s : State) : Host.Outcome State Fault Refusal := issueAlu s core slot word [0x00] (fun _ g => g)

/-- A PC a signed number of instructions away. -/
def pcPlus (pc : Nat) (n : Int) : Nat := unsgn 64 (Int.ofNat pc + 8 * n)

/-- BRA (R113, R114, R211): uniform, or divergent with two entries pushed and the fall-through threads first. -/
def braGrp (w : Nat) (g : Grp) : Grp :=
  let t := acting w g
  if t = g.active then settleGrp { g with pc := pcPlus g.pc (iTarget w) }
  else if t = 0 then advance g
  else advance { g with active := g.active - t,
                        stack := (pcPlus g.pc (iTarget w), t, false) :: (pcPlus g.pc (iReconv w), g.active, true) :: g.stack }

/-- The branch diverges and finds fewer than two free entries of the 32 (R115). -/
def braFull (w : Nat) (g : Grp) : Bool := acting w g != g.active && acting w g != 0 && decide (30 < g.stack.length)

/-- BRA, with RECONV_OVERFLOW. -/
def doBra (c slot w : Nat) (g : Grp) (_ : Blk) (m : Chip) : Chip :=
  if braFull w g then fault m c slot 0x04 (lowest g.active) 0 0 else setGrp m c slot (some (braGrp w g))

/-- Meaning of BRA. -/
def execBra (core slot : Nat) (word : BitVec 64) (s : State) : Host.Outcome State Fault Refusal :=
  issueOp s core slot word [0x01] (doBra core slot)

/-- CALL (R213): PC + 8 to the link pair. -/
def doCall (c slot w : Nat) (g : Grp) (_ : Blk) (m : Chip) : Chip :=
  setGrp m c slot (some (settleGrp { rput64 g (0x80 + 2 * iLink w) 0 (nextPc g) with pc := pcPlus g.pc (iTarget w) }))

/-- Meaning of CALL. -/
def execCall (core slot : Nat) (word : BitVec 64) (s : State) : Host.Outcome State Fault Refusal :=
  issueOp s core slot word [0x02] (doCall core slot)

/-- JMP (R213). -/
def doJmp (c slot w : Nat) (g : Grp) (_ : Blk) (m : Chip) : Chip :=
  setGrp m c slot (some (settleGrp { g with pc := rget64 g (iA w) 0 }))

/-- Meaning of JMP. -/
def execJmp (core slot : Nat) (word : BitVec 64) (s : State) : Host.Outcome State Fault Refusal :=
  issueOp s core slot word [0x03] (doJmp core slot)

/-- EXIT (R116, R214): the acting threads leave every mask. -/
def exitGrp (w : Nat) (g : Grp) : Grp :=
  let t := acting w g
  advance { g with live := g.live - (g.live &&& t), active := g.active - (g.active &&& t) }

/-- EXIT; the group may end, a barrier open, the block and its launch complete (R110, R117, R120, R161, R653). -/
def doExit (c slot w : Nat) (g : Grp) (_ : Blk) (m : Chip) : Chip := grpCheck (setGrp m c slot (some (exitGrp w g))) c slot

/-- Meaning of EXIT. -/
def execExit (core slot : Nat) (word : BitVec 64) (s : State) : Host.Outcome State Fault Refusal :=
  issueOp s core slot word [0x04] (doExit core slot)

/-- The barrier limit of a block (R111, R122). -/
def barLimit (m : Chip) (b : Blk) : Nat := 2 ^ (if b.barLog2 = 0 then fget m CG_CTRL_WDOG_LOG2 else b.barLog2)

/-- The acting threads wait at the barrier; the watchdog starts at the first (R118, R122). -/
def barGrp (w : Nat) (g : Grp) : Grp :=
  let t := acting w g
  if t = 0 then advance g
  else advance { g with active := g.active - t, parked := g.parked ++ [(nextPc g, t, iAux w % 4)] }

/-- BAR (R118 to R122, R214). -/
def doBar (c slot w : Nat) (g : Grp) (b : Blk) (m : Chip) : Chip :=
  let t := acting w g
  let i := iAux w % 4
  let m1 := setGrp m c slot (some (barGrp w g))
  let m2 := if t = 0 ∨ b.wd.any (fun x => x.1 == i) then m1
    else modBlk m1 c g.blk (fun k => { k with wd := k.wd ++ [(i, m.ns, barLimit m b, g.pc, g.idx, lowest t)] })
  barCheck m2 c g.blk

/-- Meaning of BAR. -/
def execBar (core slot : Nat) (word : BitVec 64) (s : State) : Host.Outcome State Fault Refusal :=
  issueOp s core slot word [0x05] (doBar core slot)

/-- TRAP (R214): a fault with IMM32 as its code when a thread acts. -/
def doTrap (c slot w : Nat) (g : Grp) (_ : Blk) (m : Chip) : Chip :=
  if acting w g = 0 then setGrp m c slot (some (advance g)) else fault m c slot 0x0B (lowest (acting w g)) 0 (iImm w)

/-- Meaning of TRAP. -/
def execTrap (core slot : Nat) (word : BitVec 64) (s : State) : Host.Outcome State Fault Refusal :=
  issueOp s core slot word [0x06] (doTrap core slot)

end Sys2Proof.Machine
end

