-- ==== Sys2Proof/Machine/MemInstr.lean ====
section
/-! DEFINITION. Loads, stores, fences, atomics, signals and UWAIT of the cores, and the events that serve them (R123 to R149, R151 to R161, R215 to
R228, R825). -/

namespace Sys2Proof.Machine

/-! ### Address checks (R124, R125, R130) -/

/-- A core may load and store the DA: HBM, or the buffer outside the reserved range. -/
def daOk (da : Nat) : Bool := isHbm da || (isBuf da && !reservedBuf da)

/-- The fault code of an address of n bytes in a FORM, if any: 7 ADDRESS, 9 MISALIGNED. -/
def addrCode (m : Chip) (form a n scratchBytes : Nat) : Option Nat :=
  let bad := match form with
    | 0 => decide (2 ^ 48 ≤ a) || !daOk a
    | 1 =>
      let md := bitsN a 58 48
      decide (2 ^ 59 ≤ a) || md / 8 != selfNum m / 8 || (md == selfNum m && !daOk (a % 2 ^ 48))
    | _ => decide (scratchBytes < a + n)
  if bad then some 7 else if a % n ≠ 0 then some 9 else none

/-- The fault code of an atomic's address: also 8 ATOMIC_SPACE outside the buffers (R130, R235). -/
def atomCode (m : Chip) (form a n : Nat) : Option Nat :=
  match addrCode m form a n 0 with
  | some 7 => some 7
  | x => if isBuf (a % 2 ^ 48) then x else some 8

/-- The fault an instruction raises: the lowest code, then the lowest thread (R235, R236), with its address. -/
def firstFault (cs : List (Nat × Nat × Nat)) : Option (Nat × Nat × Nat) :=
  cs.foldl (fun b x => match b with
    | none => some x
    | some y => if x.1 < y.1 then some x else some y) none

/-- Faults of the acting threads: code, thread, address. -/
def laneFaults (ls : List (Nat × Nat)) (f : Nat → Option Nat) : List (Nat × Nat × Nat) := ls.filterMap (fun l => (f l.2).map (fun c => (c, l.1, l.2)))

/-! ### Loads -/

/-- An earlier store or atomic of the core to the line is not acknowledged: a miss to it waits. -/
def storeWaits (m : Chip) (c key : Nat) : Bool :=
  let mine (w : Who) : Bool := match w with
    | .coreStore d _ _ _ _ => d == c
    | .coreAtom d _ _ _ _ _ _ => d == c
    | _ => false
  m.reqs.any (fun r => r.line == key && mine r.who) ||
  (List.range 36).any (fun p => (port m p).out.any (fun o => (o.peer + 1) * 2 ^ 41 + o.line == key && mine o.who))

/-- Sort keys ascending, without repeats. -/
def sortKeys (ks : List Nat) : List Nat :=
  ks.foldl (fun l k => if l.contains k then l else (l.filter (· < k)) ++ [k] ++ (l.filter (k < ·))) []

/-- A line of the load: served from the L0, or waited for. Answers the machine, the line when at hand, and the fill waited for; none when a peer
cannot be reached. -/
def loadLine (m : Chip) (c key : Nat) (bypass : Bool) (ranges : List (Nat × Nat)) : Option (Chip × Option (List Byte) × List Nat) :=
  let peer := key / 2 ^ 41 != 0
  let m1 := if bypass || peer then m else l0Check m c key ranges
  let k := core m1 c
  match (if bypass || peer then none else l0Find k key) with
  | some e => some (modCore m1 c (fun k => l0Touch k e), some (tget {} e k.l0).data, [])
  | none =>
    match (if bypass then none else k.fills.find? (fun f => f.line == key && f.keep)) with
    | some f => some (m1, none, [f.id])
    | none =>
      let id := nextReq m1
      let r := coreReq m1 c key { id := 0, kind := .read, line := 0, who := .coreFill c id } 0 0 []
      if r.2 then some (modCore r.1 c (fun k => { k with fills := k.fills ++ [⟨id, key, !bypass && !peer⟩] }), none, [id]) else none

/-- The stride detector's work on a miss (R138, R141): the new detectors and the stride when it prefetches. -/
def trainDet (ds : List Det) (clock b pc ln : Nat) : List Det × Option Int :=
  match ds.find? (fun d => d.blk == b && d.pc == pc) with
  | some d =>
    let dist : Int := Int.ofNat ln - Int.ofNat d.last
    let d1 : Det := if dist = d.stride ∧ dist ≠ 0 ∧ dist.natAbs ≤ 16 then { d with last := ln, conf := min 3 (d.conf + 1), used := clock }
      else { d with last := ln, stride := dist, conf := 0, used := clock }
    (ds.map (fun x => if x.blk = b ∧ x.pc = pc then d1 else x), if 2 ≤ d1.conf then some d1.stride else none)
  | none =>
    let new : Det := ⟨b, pc, ln, 0, 0, clock⟩
    if ds.length < 16 then (ds ++ [new], none)
    else
      let oldest := ds.foldl (fun a d => min a d.used) (ds.headD new).used
      match ds.findIdx? (fun d => d.used == oldest) with
      | some i => (setAt ds i new, none)
      | none => (ds, none)

/-- Prefetch one line, unless it is present, on its way or not allowed (R139, R140). -/
def prefetch (m : Chip) (c ln : Nat) : Chip :=
  let k := core m c
  if !daOk (ln * 128) || (l0Find k ln).isSome || k.fills.any (fun f => f.line == ln) then m
  else
    let id := nextReq m
    let m1 := pushReq m { id := 0, kind := .read, line := ln, ing := coreIng c ln, who := .coreFill c id }
    bump (modCore m1 c (fun k => { k with fills := k.fills ++ [⟨id, ln, true⟩] })) CG_PF_CTR 1

/-- STRIDE_PREFETCH: a load's misses train the detector of its block and address with the lowest of them (R138 to R142). -/
def trainMiss (m : Chip) (c b pc pf : Nat) (misses : List Nat) : Chip :=
  match misses with
  | [] => m
  | ln :: _ =>
    let k := core m c
    let r := trainDet k.dets (k.clock + 1) b pc ln
    let m1 := modCore m c (fun k => { k with dets := r.1, clock := k.clock + 1 })
    match r.2 with
    | none => m1
    | some st =>
      (List.range pf).foldl (fun n i =>
        let t : Int := Int.ofNat ln + st * (i + 1 : Nat)
        if t < 0 ∨ t.toNat / 512 ≠ ln / 512 then n else prefetch n c t.toNat) m1

/-- The load itself once its addresses are checked: lanes are (thread, key * 128 + byte). -/
def loadGo (c slot w : Nat) (g : Grp) (b : Blk) (ls : List (Nat × Nat)) (m : Chip) : Chip :=
  let keys := sortKeys (ls.map (fun l => l.2 / 128))
  let n := accBytes w
  let by_ := iBypass w
  let misses := keys.filter (fun k => by_ || k / 2 ^ 41 != 0 || (l0Find (core m c) k).isNone)
  if misses.any (storeWaits m c) then m
  else
    let r := keys.foldl (fun (a : Option (Chip × List (Nat × List Byte) × List Nat)) k =>
      match a with
      | none => none
      | some (n1, got, need) =>
        match loadLine n1 c k by_ ((ls.filter (fun l => l.2 / 128 == k)).map (fun l => (l.2 % 128, n))) with
        | none => none
        | some (n2, some d, _) => some (n2, got ++ [(k, d)], need)
        | some (n2, none, ids) => some (n2, got, need ++ ids)) (some (m, [], []))
    match r with
    | none =>
      let l := (ls.find? (fun l => peerShut m (l.2 / 128))).getD (0, 0)
      noPort m c g.blk slot (l.2 / 128) (l.1, gaOf m l.2)
    | some (n1, got, need) =>
      let p : Pend := { pc := g.pc, dst := iDst w, n := sizeRegs (iSize w), size := n, sext := iSext w && decide (iOp w = 0xA0), lanes := ls, need := need,
                        got := got, form := iForm w, acq := if iOrd w = 1 ∧ ls ≠ [] then iScope w + 1 else 0 }
      let n2 := trainMiss n1 c g.blk g.pc b.pf (if by_ then [] else misses.filter (fun k => k / 2 ^ 41 == 0))
      loadsDone (modGrp n2 c slot (fun h => advance { h with pend := h.pend ++ [p] })) c slot

/-- A scratch load (R143 to R147): at once; a parity error raises SCRATCH_PARITY. -/
def scratchLoad (c slot w : Nat) (g : Grp) (b : Blk) (ls : List (Nat × Nat)) (m : Chip) : Chip :=
  let k := core m c
  let n := accBytes w
  match ls.find? (fun l => let p := scratchAt b.units l.2; l0Parity k p.1 p.2 n) with
  | some l => fault m c slot 0x0A l.1 l.2 0
  | none =>
    let vals := ls.map (fun l => (l.1, extend n (iSext w) (leNat (scratchRead k b.units l.2 n))))
    setGrp m c slot (some (advance (vals.foldl (fun h v => rputN (sizeRegs (iSize w)) h (iDst w) v.1 v.2) g)))

/-- LD (R123 to R129, R131, R136 to R141, R215 to R220). -/
def doLd (c slot w : Nat) (g : Grp) (b : Blk) (m : Chip) : Chip :=
  let ls := (lanes (acting w g)).map (fun t => (t, effAddr w g t))
  match firstFault (laneFaults ls (fun a => addrCode m (iForm w) a (accBytes w) (b.units.length * 512))) with
  | some f => fault m c slot f.1 f.2.1 f.2.2 0
  | none =>
    if iForm w = 2 then scratchLoad c slot w g b ls m
    else loadGo c slot w g b (ls.map (fun l => (l.1, lineKey m (iForm w) l.2 * 128 + l.2 % 128))) m

/-- Meaning of LD. -/
def execLd (core slot : Nat) (word : BitVec 64) (s : State) : Host.Outcome State Fault Refusal :=
  issueOp s core slot word [0xA0] (doLd core slot)

/-- ULD (R221): one access for the group, into u registers. -/
def doUld (c slot w : Nat) (g : Grp) (b : Blk) (m : Chip) : Chip :=
  let a := effAddr w g 0
  match addrCode m (iForm w) a (accBytes w) 0 with
  | some f => fault m c slot f (lowest g.active) a 0
  | none => loadGo c slot w g b [(0, lineKey m (iForm w) a * 128 + a % 128)] m

/-- Meaning of ULD. -/
def execUld (core slot : Nat) (word : BitVec 64) (s : State) : Host.Outcome State Fault Refusal :=
  issueOp s core slot word [0xA4] (doUld core slot)

/-! ### Stores -/

/-- The bytes that a thread stores: n bytes from its address, from DATA on. -/
def storeData (w : Nat) (g : Grp) (t a : Nat) : List (Nat × Byte) :=
  let v := sumN (sizeRegs (iSize w)) (fun i => rget g (if iDst w = 0xC0 then 0xC0 else iDst w + i) t * 2 ^ (32 * i))
  (leBytes (accBytes w) v).zipIdx.map (fun b => (a + b.2, b.1))

/-- Send the lines of a store, ascending, and move on (R126 to R128). ls holds the threads and their addresses. -/
def storeGo (c slot form : Nat) (g : Grp) (ls : List (Nat × Nat)) (bs : List (Nat × Byte)) (m : Chip) : Chip :=
  modGrp ((groupLines m form bs).foldl (fun n l => coreStoreLine n c g.blk slot l.1 l.2.1 l.2.2 (failAt m form ls l.1)) m) c slot advance

/-- Write bytes of a block's scratch and move on. -/
def scratchGo (c slot : Nat) (b : Blk) (bs : List (Nat × Byte)) (m : Chip) : Chip :=
  modGrp (modCore m c (fun k => bs.foldl (fun k x => scratchWrite k b.units x.1 [x.2]) k)) c slot advance

/-- ST (R123 to R128, R131, R215 to R219). -/
def doSt (c slot w : Nat) (g : Grp) (b : Blk) (m : Chip) : Chip :=
  let ls := (lanes (acting w g)).map (fun t => (t, effAddr w g t))
  match firstFault (laneFaults ls (fun a => addrCode m (iForm w) a (accBytes w) (b.units.length * 512))) with
  | some f => fault m c slot f.1 f.2.1 f.2.2 0
  | none =>
    let bs := ls.flatMap (fun l => storeData w g l.1 l.2)
    if iForm w = 2 then scratchGo c slot b bs m else storeGo c slot (iForm w) g ls bs m

/-- Meaning of ST. -/
def execSt (core slot : Nat) (word : BitVec 64) (s : State) : Host.Outcome State Fault Refusal :=
  issueOp s core slot word [0xA1] (doSt core slot)

/-! ### Fences and the L0 -/

/-- FENCE (R157, R222): it issues when the release it makes may perform, and is an acquire. -/
def doFence (c slot w : Nat) (_ : Grp) (_ : Blk) (m : Chip) : Chip := modGrp (acquire m c (iScope w)) c slot advance

/-- Meaning of FENCE. -/
def execFence (core slot : Nat) (word : BitVec 64) (s : State) : Host.Outcome State Fault Refusal :=
  issueOp s core slot word [0xA2] (doFence core slot)

/-- L0INV (R148, R222). -/
def doL0inv (c slot : Nat) (_ : Nat) (_ : Grp) (_ : Blk) (m : Chip) : Chip := modGrp (modCore m c l0Clear) c slot advance

/-- Meaning of L0INV. -/
def execL0inv (core slot : Nat) (word : BitVec 64) (s : State) : Host.Outcome State Fault Refusal :=
  issueOp s core slot word [0xA3] (doL0inv core slot)

/-- L0_INV_ALL_WRITE (R148, R168): invalidate-all in every core of a die in service. -/
def doL0InvAllWrite (v : Nat) (m : Chip) : Chip :=
  if tb v 0 then m.cores.foldl (fun n e => if dieUp m (dieOf e.1) then modCore n e.1 l0Clear else n) m else m

/-- Meaning of L0_INV_ALL_WRITE. -/
def execL0InvAllWrite (val : Word) (s : State) : Host.Outcome State Fault Refusal := run s (doL0InvAllWrite val.toNat)

/-! ### Atomics -/

/-- Insert a thread by its key. -/
def insertBy (key : Nat → Nat) (t : Nat) : List Nat → List Nat
  | [] => [t]
  | x :: r => if key x < key t then x :: insertBy key t r else t :: x :: r

/-- The order in which the threads' atomics are performed is not specified: free keys order them (R226). -/
def freeOrder (n : Nat) (ts : List Nat) : List Nat := ts.foldr (insertBy (fun t => Config.choice n t)) []

/-- The operand block of an atomic request to a peer (R518). -/
def atomBody (op sub size off b c : Nat) (ret : Bool) : List Byte :=
  wordBytes ([op * 2 ^ 24 + sub * 2 ^ 20 + (if size = 8 then 2 ^ 19 else 0) + (if ret then 2 ^ 18 else 0) + off, 0] ++ lohi b ++ lohi c ++ [0, 0])

/-- Send one atomic. x is the operation of R225, op and sub how a peer names it, bad the thread and address that a failure names. -/
def atomSend (m : Chip) (c slot : Nat) (g : Grp) (key off size x op sub b d t : Nat) (ret : Bool) (rd : Option Nat) (bad : Nat × Nat) : Chip :=
  let m0 := if key / 2 ^ 41 = 0 then modCore m c (fun k => l0Drop k key) else m
  let r : Req := { id := 0, kind := .atomic, line := 0, op := x, size := size, at_ := off, a := b, b := d, who := .coreAtom c g.blk slot t rd bad.1 bad.2 }
  let s := coreReq m0 c key r 3 0 (atomBody op sub size off b d ret)
  if s.2 then modBlk s.1 c g.blk (fun k => { k with outst := k.outst + 1 }) else noPort s.1 c g.blk slot key bad

/-- An atomic instruction (R130, R132, R215, R225, R226). -/
def doAtom (c slot w : Nat) (g : Grp) (_ : Blk) (m : Chip) : Chip :=
  let n := accBytes w
  let ls := (lanes (acting w g)).map (fun t => (t, effAddr w g t))
  match firstFault (laneFaults ls (fun a => atomCode m (iForm w) a n)) with
  | some f => fault m c slot f.1 f.2.1 f.2.2 0
  | none =>
    let ts := ls.map (·.1)
    let acq := if iOrd w % 2 = 1 ∧ ts ≠ [] then iScope w + 1 else 0
    let keep := (iRet w || acq != 0) && !ts.isEmpty
    let dst := if iRet w then iDst w else 0xC0
    let p : Pend := { pc := g.pc, dst := dst, n := sizeRegs (iSize w), size := n, threads := ts, acq := acq }
    let d := draw m
    let val (f t : Nat) : Nat := if n = 8 then rget64 g f t else rget g f t
    let m1 := modGrp d.2 c slot (fun h => advance (if keep then { h with pend := h.pend ++ [p] } else h))
    (freeOrder d.1 ts).foldl (fun q t =>
      let a := effAddr w g t
      atomSend q c slot g (lineKey m (iForm w) a) (a % 128) n (iOp w - 0xB0) (iOp w) 0 (val (iAtB w) t) (if iOp w = 0xBA then val (iAtC w) t else 0) t
        (iRet w) (if keep then some dst else none) (failAt m (iForm w) ls (lineKey m (iForm w) a))) m1

/-- Meaning of ATOM ADD. -/
def execAtomAdd (core slot : Nat) (word : BitVec 64) (s : State) : Host.Outcome State Fault Refusal := issueOp s core slot word [0xB0] (doAtom core slot)
/-- Meaning of ATOM FADD. -/
def execAtomFadd (core slot : Nat) (word : BitVec 64) (s : State) : Host.Outcome State Fault Refusal := issueOp s core slot word [0xB1] (doAtom core slot)
/-- Meaning of ATOM SMIN. -/
def execAtomSmin (core slot : Nat) (word : BitVec 64) (s : State) : Host.Outcome State Fault Refusal := issueOp s core slot word [0xB2] (doAtom core slot)
/-- Meaning of ATOM SMAX. -/
def execAtomSmax (core slot : Nat) (word : BitVec 64) (s : State) : Host.Outcome State Fault Refusal := issueOp s core slot word [0xB3] (doAtom core slot)
/-- Meaning of ATOM UMIN. -/
def execAtomUmin (core slot : Nat) (word : BitVec 64) (s : State) : Host.Outcome State Fault Refusal := issueOp s core slot word [0xB4] (doAtom core slot)
/-- Meaning of ATOM UMAX. -/
def execAtomUmax (core slot : Nat) (word : BitVec 64) (s : State) : Host.Outcome State Fault Refusal := issueOp s core slot word [0xB5] (doAtom core slot)
/-- Meaning of ATOM AND. -/
def execAtomAnd (core slot : Nat) (word : BitVec 64) (s : State) : Host.Outcome State Fault Refusal := issueOp s core slot word [0xB6] (doAtom core slot)
/-- Meaning of ATOM OR. -/
def execAtomOr (core slot : Nat) (word : BitVec 64) (s : State) : Host.Outcome State Fault Refusal := issueOp s core slot word [0xB7] (doAtom core slot)
/-- Meaning of ATOM XOR. -/
def execAtomXor (core slot : Nat) (word : BitVec 64) (s : State) : Host.Outcome State Fault Refusal := issueOp s core slot word [0xB8] (doAtom core slot)
/-- Meaning of ATOM EXCH. -/
def execAtomExch (core slot : Nat) (word : BitVec 64) (s : State) : Host.Outcome State Fault Refusal := issueOp s core slot word [0xB9] (doAtom core slot)
/-- Meaning of ATOM CAS. -/
def execAtomCas (core slot : Nat) (word : BitVec 64) (s : State) : Host.Outcome State Fault Refusal := issueOp s core slot word [0xBA] (doAtom core slot)

/-- The operation of SUBOP (R227): EXCH, ADD, UMAX. -/
def sigOp (k : Nat) : Nat :=
  match k with
  | 0 => 9
  | 1 => 0
  | _ => 5

/-- SIG (R227, R228): once for the group, with release at device scope; the evaluator may then test the word (GATE_POLL). -/
def doSig (c slot w : Nat) (g : Grp) (_ : Blk) (m : Chip) : Chip :=
  let a := effAddr w g 0
  match atomCode m 0 a 4 with
  | some f => fault m c slot f (lowest g.active) a 0
  | none => atomSend (modGrp m c slot advance) c slot g (a / 128) (a % 128) 4 (sigOp (iSubop w)) 0xBB (iSubop w) (rget g (iAtB w) 0) 0 0 false none (lowest g.active, a)

/-- Meaning of SIG. -/
def execSig (core slot : Nat) (word : BitVec 64) (s : State) : Host.Outcome State Fault Refusal := issueOp s core slot word [0xBB] (doSig core slot)

/-! ### UWAIT -/

/-- UWAIT (R223): the group suspends; its word must be a 4-byte aligned buffer DA of the module. -/
def doUwait (c slot w : Nat) (g : Grp) (_ : Blk) (m : Chip) : Chip :=
  let a := rget64 g (iA w) 0
  let t := iAux w % 32
  if !(isBuf a && !reservedBuf a && a % 4 == 0) then fault m c slot 0x08 (lowest g.active) a 0
  else setGrp m c slot (some { g with wait := .uwait a (rget g (iB w) 0) (iPsel w) (m.ns + 2 ^ (if t = 0 then 24 else t)) false })

/-- Meaning of UWAIT. -/
def execUwait (core slot : Nat) (word : BitVec 64) (s : State) : Host.Outcome State Fault Refusal := issueOp s core slot word [0xA5] (doUwait core slot)

/-- The group in a slot is suspended in a UWAIT. -/
def inUwait (m : Chip) (c slot : Nat) : Bool :=
  match grp m c slot with
  | some g => (match g.wait with
    | .uwait .. => true
    | _ => false)
  | none => false

/-- The result predicate of a UWAIT in every live thread, and on (R224). -/
def uwaitDone (psel : Nat) (ok : Bool) (g : Grp) : Grp := advance { setPreds g psel g.live (if ok then g.live else 0) with wait := .run }

/-- UWAIT_POLL (R223, R224, R825): a good read that meets the condition wakes the group with an acquire. -/
def doUwaitPoll (c slot : Nat) (m : Chip) : Chip :=
  match grp m c slot with
  | none => m
  | some g =>
    match g.wait with
    | .uwait a v ps lim polled =>
      if !deviceReady m a 4 then flipRange m a 4 else
      let r := loadWord m a false
      match r.2.1 with
      | none => if v ≤ r.1 then setGrp (modCore r.2.2 c l0Clear) c slot (some (uwaitDone ps true g)) else r.2.2
      | some (ln, bad) =>
        if bad.fate = .uncorrectable ∨ bad.fate = .poisoned then
          if polled then r.2.2
          else coreRecord (setGrp r.2.2 c slot (some { g with wait := .uwait a v ps lim true })) c g.blk 0 ln bad
        else memError (coreRecord r.2.2 c g.blk 0x20 ln bad) c g.blk (some slot) (lowest g.active, a)
    | _ => m

/-- Meaning of UWAIT_POLL. -/
def execUwaitPoll (core slot : Nat) (s : State) : Host.Outcome State Fault Refusal :=
  runIf s (fun m => inUwait m core slot) (doUwaitPoll core slot)

/-- The time-out of a UWAIT has passed. -/
def uwaitLate (m : Chip) (c slot : Nat) : Bool :=
  match grp m c slot with
  | some g => (match g.wait with
    | .uwait _ _ _ lim _ => decide (lim ≤ m.ns)
    | _ => false)
  | none => false

/-- UWAIT_TIMEOUT (R224): the predicate is 0, and no acquire. -/
def doUwaitTimeout (c slot : Nat) (m : Chip) : Chip :=
  modGrp m c slot (fun g => match g.wait with
    | .uwait _ _ ps _ _ => uwaitDone ps false g
    | _ => g)

/-- Meaning of UWAIT_TIMEOUT. -/
def execUwaitTimeout (core slot : Nat) (s : State) : Host.Outcome State Fault Refusal :=
  runIf s (fun m => uwaitLate m core slot) (doUwaitTimeout core slot)

/-! ### Fills, code and the watchdog -/

/-- The answer of a core's fill. -/
def fillResp (m : Chip) (c id : Nat) : Option Resp := m.resps.find? (fun r => r.who == .coreFill c id)

/-- L0_LINE_FILL (R128, R129, R131, R136, R137, R149): the line meets the loads that wait and is kept in the L0 when it may be. -/
def doL0LineFill (c id : Nat) (m : Chip) : Chip :=
  match fillResp m c id with
  | some r => fillArrive (linkMove { m with resps := m.resps.filter (fun x => x.who != .coreFill c id) } (returnKeys r.who r.line) (· - 1)) c id r.line r.fate r.ln
  | none => m

/-- Meaning of L0_LINE_FILL. -/
def execL0LineFill (core id : Nat) (s : State) : Host.Outcome State Fault Refusal :=
  runIf s (fun m => (fillResp m core id).isSome) (doL0LineFill core id)

/-- The group's PC names a line that its die's code cache does not hold. -/
def codeMiss (m : Chip) (c slot : Nat) : Bool :=
  (grp m c slot).any (fun g => g.wait == .run && g.active != 0 && (codeWord m (dieOf c) g.pc).isNone)

/-- CODE_CACHE_FILL (R171, R173, R236, R746): the line goes into the die's code cache of 256 KiB, or the group raises INSTR_FETCH, which has no thread's
address; a stack at level 3 lets it wait (R455). -/
def doCodeCacheFill (c slot : Nat) (m : Chip) : Chip :=
  match grp m c slot with
  | none => m
  | some g =>
    if !daOk g.pc || g.pc % 8 != 0 then fault m c slot 0x01 (lowest g.active) 0 0
    else if stackHeld m (g.pc / 128) then m
    else
      let r := readExit m (g.pc / 128) false
      if r.1.fate = .good then
        { r.2 with code := modAt r.2.code (dieOf c) (fun l => (if 2048 ≤ l.length then l.drop 1 else l) ++ [(g.pc / 128, r.1.ln.data)]) }
      else fault (coreRecord r.2 c g.blk 0x01 (g.pc / 128) r.1) c slot 0x01 (lowest g.active) 0 0

/-- Meaning of CODE_CACHE_FILL. -/
def execCodeCacheFill (core slot : Nat) (s : State) : Host.Outcome State Fault Refusal :=
  runIf s (fun m => decide (core < 2560) && codeMiss m core slot) (doCodeCacheFill core slot)

/-- A barrier of the block has been closed for its limit. -/
def barLate (m : Chip) (c b : Nat) : Option (Nat × Nat × Nat × Nat × Nat × Nat) :=
  (blk m c b).bind (fun k => k.wd.find? (fun w => decide (w.2.1 + w.2.2.1 ≤ m.ns)))

/-- BARRIER_STALL (R122, R165): the block ends; the record names the barrier, as its TRAP code, and the address of the first arrival. -/
def doBarrierStall (c b : Nat) (m : Chip) : Chip :=
  match barLate m c b with
  | some (i, _, _, pc, gi, t) => endBlk (countFault m 0x21) c b (.fault ⟨0x21, gi, t, c, b % 2 ^ 32, pc, pc, i⟩)
  | none => m

/-- Meaning of BARRIER_STALL. -/
def execBarrierStall (core block : Nat) (s : State) : Host.Outcome State Fault Refusal :=
  runIf s (fun m => (barLate m core block).isSome) (doBarrierStall core block)

end Sys2Proof.Machine
end

