-- ==== Sys2Proof/Machine/MatInstr.lean ====
section
/-! DEFINITION. Matrix instructions: operands in registers, arithmetic, structured sparsity, zero skipping, and the matrix unit (R229 to R233, R241
to R272). -/

namespace Sys2Proof.Machine

/-! ### Operands -/

/-- The byte array of n registers from v b (R245); bytes held by threads that do not act read as sub. -/
def fragment (g : Grp) (b n act sub : Nat) : List Byte :=
  (List.range n).flatMap (fun r => (List.range 64).flatMap (fun t => if tb act t then leBytes 4 (rget g (b + r) t) else leBytes 4 sub))

/-- What metadata bytes of threads that do not act read as (R266). -/
def metaSub (sp : Nat) : Nat :=
  match sp with
  | 1 => 0x33333333
  | 2 => 0x0F0F0F0F
  | _ => 0

/-- Element k of a row of a byte array (R246). -/
def fragElem (bs : List Byte) (row rowBytes bits k : Nat) : Nat :=
  let o := row * rowBytes
  let at_ (i : Nat) : Nat := (bs.getD i 0#8).toNat
  match bits with
  | 16 => at_ (o + 2 * k) + 256 * at_ (o + 2 * k + 1)
  | 8 => at_ (o + k)
  | _ => at_ (o + k / 2) / (if k % 2 = 0 then 1 else 16) % 16

/-- The datum of an element in a matrix format code (R230, R251). -/
def matVal (f w : Nat) : Fv :=
  match f with
  | 0 => bf16.decode w
  | 1 => fp16.decode w
  | 2 => e4m3.decode w
  | 3 => e5m2.decode w
  | 4 => e4m3.decode w
  | 5 => e5m2.decode w
  | 6 => e3m2.decode (w % 64)
  | 7 => e2m3.decode (w % 64)
  | 8 => let i := sgn 8 w; .num (decide (i < 0)) i.natAbs 0
  | 11 => let i := sgn 4 w; .num (decide (i < 0)) i.natAbs 0
  | _ => e2m1.decode w

/-- The value of an E8M0 scale (R252). -/
def scaleVal (e : Nat) : Fv := if e = 255 then .nan else .num false 1 ((e : Int) - 127)

/-! ### Sparsity (R258, R259) -/

/-- The logical positions of a row's stored elements. -/
def keptAt (sp kd : Nat) (bs : List Byte) (row : Nat) : List Nat :=
  let byte (i : Nat) : Nat := (bs.getD (row * (kd / 4) + i) 0#8).toNat
  match sp with
  | 0 => List.range kd
  | 1 => (List.range (kd / 2)).flatMap (fun g => ((List.range 4).filter (fun p => tb (byte (g / 2)) (4 * (g % 2) + p))).map (4 * g + ·))
  | 2 => (List.range (kd / 4)).flatMap (fun g => ((List.range 8).filter (fun p => tb (byte g) p)).map (8 * g + ·))
  | _ => (List.range kd).map (fun g => 4 * g + byte (g / 4) / 2 ^ (2 * (g % 4)) % 4)

/-- A metadata byte breaks R260. -/
def metaBad (sp x : Nat) : Bool :=
  match sp with
  | 1 => popN 4 (x % 16) != 2 || popN 4 (x / 16) != 2
  | 2 => popN 8 x != 4
  | _ => false

/-- The acting threads whose metadata breaks R260. -/
def metaFails (sp act : Nat) (bs : List Byte) : List Nat :=
  (lanes act).filter (fun t => (List.range (bs.length / 256)).any (fun r => (List.range 4).any (fun i => metaBad sp (bs.getD (256 * r + 4 * t + i) 0#8).toNat)))

/-! ### Zero blocks (R262) -/

/-- A B element encodes zero. -/
def zeroBits (f w : Nat) : Bool :=
  match f with
  | 0 => w % 2 ^ 15 == 0
  | 1 => w % 2 ^ 15 == 0
  | 6 => w % 32 == 0
  | 7 => w % 32 == 0
  | 8 => w == 0
  | 9 => w % 8 == 0
  | 10 => w % 8 == 0
  | 11 => w == 0
  | _ => w % 128 == 0

/-- The activation blocks whose B elements are all zero: block b of 32 positions and rows 8 q to 8 q + 7, as 4 b + q. -/
def zeroBlocks (fb kl bbits : Nat) (bs : List Byte) : List Nat :=
  (List.range (kl / 32 * 4)).filter (fun x => (List.range 8).all (fun r => (List.range 32).all (fun k =>
    zeroBits fb (fragElem bs (8 * (x % 4) + r) (kl * bbits / 8) bbits (32 * (x / 4) + k)))))

/-! ### Arithmetic (R254 to R257) -/

/-- A datum is minus zero. -/
def isNegZero : Fv → Bool
  | .num s m _ => s && m == 0
  | _ => false

/-- The exponent of a non-zero finite datum. -/
def expOf : Fv → Option Int
  | .num _ m e => if m = 0 then none else some (Int.ofNat (Nat.log2 m) + e)
  | _ => none

/-- A finite datum truncated towards zero to a multiple of 2^q, in units of 2^q. -/
def truncTo (q : Int) : Fv → Int
  | .num s m e =>
    let n := if q ≤ e then m * 2 ^ (e - q).toNat else m / 2 ^ (q - e).toNat
    if s then -(Int.ofNat n) else Int.ofNat n
  | _ => 0

/-- The FP32 bits of a sum of terms (R254, R255). -/
def mmaSum (ts : List Fv) : Nat :=
  let infP := ts.any (fun t => t == .inf false)
  let infN := ts.any (fun t => t == .inf true)
  if ts.any Fv.isNan || (infP && infN) then fp32.nanBits
  else if infP then fp32.round 0 (.inf false)
  else if infN then fp32.round 0 (.inf true)
  else
    match (ts.filterMap expOf) with
    | [] => fp32.round 0 (.num (!ts.isEmpty && ts.all isNegZero) 0 0)
    | e :: r =>
      let q := r.foldl max e - 50
      let n := ts.foldl (fun a t => a + truncTo q t) 0
      fp32.round 0 (.num (decide (n < 0)) n.natAbs q)

/-- A term that resolves to NaN: R255's first case is the product's own NaN. -/
def mmaProduct (a b sa sb : Fv) : Fv := (a.mul b).mul (sa.mul sb)

/-- The logical row of A: the element bits at each logical position, none where nothing is kept. -/
def rowA (o : MmaOp) (c : MmaClass) (j : Nat) : List (Option Nat) :=
  let kept := keptAt (iSparse o.word) c.kd o.meta_ j
  (List.range (mmaKl c (iSparse o.word))).map (fun k =>
    (kept.findIdx? (· == k)).map (fun i => fragElem o.a j (c.kd * c.abits / 8) c.abits i))

/-- The terms of element (i, j) but the old value (R241, R253, R254, R263). -/
def mmaTerms (o : MmaOp) (c : MmaClass) (ra : List (Option Nat)) (i j : Nat) : List Fv :=
  let kl := mmaKl c (iSparse o.word)
  let sc (base row b : Nat) : Fv := if c.mx then scaleVal ((o.scale.getD (base + row * (kl / 32) + b) 0#8).toNat) else .num false 1 0
  (List.range (kl / 32)).flatMap (fun b =>
    if o.skip.contains (4 * b + i / 8) then [.num false 0 0]
    else
      let sa := sc 0 j b
      let sb := sc kl i b
      (List.range 32).map (fun x =>
        let k := 32 * b + x
        let av := match ra.getD k none with
          | some w => matVal (iFmtA o.word) w
          | none => .num false 0 0
        mmaProduct av (matVal (iFmtB o.word) (fragElem o.b i (kl * c.bbits / 8) c.bbits k)) sa sb))

/-- A finite datum with no fraction, as an integer. -/
def fvInt : Fv → Int
  | .num s m _ => if s then -(Int.ofNat m) else Int.ofNat m
  | _ => 0

/-- The new value of element (i, j) (R241, R254, R257). -/
def mmaElem (o : MmaOp) (c : MmaClass) (old : Nat) (ra : List (Option Nat)) (i j : Nat) : Nat :=
  let ts := mmaTerms o c ra i j
  if c.int then unsgn 32 (ts.foldl (fun a t => a + fvInt t) (if iAcc o.word then Int.ofNat old else 0))
  else mmaSum (if iAcc o.word then fp32.decode old :: ts else ts)

/-- The thread that owns element (i, j) (R247). -/
def tileOwner (i j : Nat) : Nat := i % 2 * 32 + j

/-- Write the elements of tile t that acting threads own. -/
def tileWrite (g : Grp) (t act : Nat) (f : Nat → Nat → Nat) : Grp :=
  let vs := (List.range 32).flatMap (fun j => ((List.range 32).filter (fun i => tb act (tileOwner i j))).map (fun i => (1024 * t + 32 * i + j, f i j)))
  { g with tiles := vs.foldl (fun x v => tput 0 v.1 v.2 x) g.tiles }

/-- Element (i, j) of tile t. -/
def tileAt (g : Grp) (t i j : Nat) : Nat := tget 0 (1024 * t + 32 * i + j) g.tiles

/-! ### Issue -/

/-- A Tile instruction raises DIVERGENT_MMA (R265): fewer than 64 threads act outside masked-zero mode. -/
def divergent (w : Nat) (g : Grp) (b : Blk) : Bool := acting w g != allThreads && !b.masked

/-- MMA at issue (R260, R261): it joins the matrix unit with its operands (R267, R272). -/
def doMma (c slot w : Nat) (g : Grp) (b : Blk) (m : Chip) : Chip :=
  match mmaClass (iFmtA w) (iFmtB w) with
  | none => m
  | some cl =>
    let n := mmaRegs cl (iSparse w)
    let act := acting w g
    if divergent w g b then fault m c slot 0x05 (lowest g.active) 0 0
    else
      let mt := fragment g (iMeta w) n.2.2.1 act (metaSub (iSparse w))
      match metaFails (iSparse w) act mt with
      | t :: _ => fault m c slot 0x06 t 0 0
      | [] =>
        if act = 0 then setGrp m c slot (some (advance g))
        else
          let bf := fragment g (iTb w) n.2.1 act 0
          let o : MmaOp := ⟨slot, w, fragment g (iTa w) n.1 act 0, bf, mt, fragment g (iScale w) n.2.2.2 act 0x7F7F7F7F, act, b.masked,
            if iZskip w && fon m MU_CTRL_ZSKIP_EN then zeroBlocks (iFmtB w) (mmaKl cl (iSparse w)) cl.bbits bf else []⟩
          modCore (setGrp m c slot (some (advance g))) c (fun k => { k with mmas := k.mmas ++ [o] })

/-- Meaning of MMA. -/
def execMma (core slot : Nat) (word : BitVec 64) (s : State) : Host.Outcome State Fault Refusal := issueOp s core slot word [0xC0] (doMma core slot)

/-- The tile after an MMA. -/
def mmaWrite (o : MmaOp) (g : Grp) : Grp :=
  match mmaClass (iFmtA o.word) (iFmtB o.word) with
  | none => g
  | some c =>
    let rows := (List.range 32).map (rowA o c)
    tileWrite g (iTd o.word) o.act (fun i j => mmaElem o c (tileAt g (iTd o.word) i j) (rows.getD j []) i j)

/-- MMA_ARRAY_COMPLETE (R267, R268, R270): the MMA in the array writes its tile, and the next one starts. -/
def doMmaArrayComplete (c : Nat) (m : Chip) : Chip :=
  match (core m c).mmas with
  | [] => m
  | o :: r => bump (bump (modGrp (modCore m c (fun k => { k with mmas := r })) c o.slot (mmaWrite o)) MU_MMA_CTR 1) MU_SKIP_CTR o.skip.length

/-- Meaning of MMA_ARRAY_COMPLETE. -/
def execMmaArrayComplete (core_ : Nat) (s : State) : Host.Outcome State Fault Refusal :=
  runIf s (fun m => !(core m core_).mmas.isEmpty) (doMmaArrayComplete core_)

/-- A Tile instruction on the group's own registers and tiles. -/
def tileOp (c slot w : Nat) (f : Grp → Grp) (g : Grp) (b : Blk) (m : Chip) : Chip :=
  if divergent w g b then fault m c slot 0x05 (lowest g.active) 0 0 else setGrp m c slot (some (advance (f g)))

/-- TZERO (R231). -/
def doTzero (c slot w : Nat) : Grp → Blk → Chip → Chip := tileOp c slot w (fun g => tileWrite g (iTd w) (acting w g) (fun _ _ => 0))

/-- Meaning of TZERO. -/
def execTzero (core slot : Nat) (word : BitVec 64) (s : State) : Host.Outcome State Fault Refusal := issueOp s core slot word [0xC1] (doTzero core slot)

/-- TRD (R231, R247): the tile into 16 registers. -/
def trdGrp (w : Nat) (g : Grp) : Grp :=
  (List.range 16).foldl (fun h r => perThread h (acting w g) (if iDst w = 0xC0 then 0xC0 else iDst w + r)
    (fun t => tileAt g (iAux w % 4) (2 * r + t / 32) (t % 32))) g

/-- TRD, with DIVERGENT_MMA. -/
def doTrd (c slot w : Nat) : Grp → Blk → Chip → Chip := tileOp c slot w (trdGrp w)

/-- Meaning of TRD. -/
def execTrd (core slot : Nat) (word : BitVec 64) (s : State) : Host.Outcome State Fault Refusal := issueOp s core slot word [0xC2] (doTrd core slot)

/-- TWR (R231, R247): 16 registers into the tile. -/
def doTwr (c slot w : Nat) : Grp → Blk → Chip → Chip :=
  tileOp c slot w (fun g => tileWrite g (iAux w % 4) (acting w g) (fun i j => rget g (if iA w = 0xC0 then 0xC0 else iA w + i / 2) (tileOwner i j)))

/-- Meaning of TWR. -/
def execTwr (core slot : Nat) (word : BitVec 64) (s : State) : Host.Outcome State Fault Refusal := issueOp s core slot word [0xC3] (doTwr core slot)

/-- The bytes that TST stores at an address (R232, R266): row-major, in the format SIZE selects, of the elements that acting threads own. -/
def tstBytes (w : Nat) (g : Grp) (a : Nat) : List (Nat × Byte) :=
  let es := if iSize w = 0 then 4 else 2
  let conv (v : Nat) : Nat := match iSize w with
    | 0 => v
    | 1 => cvt 0 2 0 false false v
    | _ => cvt 0 1 0 false false v
  (List.range 32).flatMap (fun i => ((List.range 32).filter (fun j => tb (acting w g) (tileOwner i j))).flatMap (fun j =>
    (leBytes es (conv (tileAt g (iDst w % 4) i j))).zipIdx.map (fun b => (a + i * 32 * es + j * es + b.2, b.1))))

/-- TST (R124, R232, R265). -/
def doTst (c slot w : Nat) (g : Grp) (b : Blk) (m : Chip) : Chip :=
  let a := effAddr w g 0
  let es := if iSize w = 0 then 4 else 2
  let bad := firstFault ((List.range 32).filterMap (fun i => (addrCode m (iForm w) (a + i * 32 * es) 1 (b.units.length * 512 - (32 * es - 1))).map (fun x => (x, 0, 0))))
  if divergent w g b then fault m c slot 0x05 (lowest g.active) 0 0
  else if acting w g = 0 then setGrp m c slot (some (advance g))
  else match bad with
    | some f => fault m c slot f.1 (lowest (acting w g)) a 0
    | none =>
      if a % 128 ≠ 0 then fault m c slot 0x09 (lowest (acting w g)) a 0
      else if iForm w = 2 then scratchGo c slot b (tstBytes w g a) m
      else storeGo c slot (iForm w) g [(lowest (acting w g), a)] (tstBytes w g a) m

/-- Meaning of TST. -/
def execTst (core slot : Nat) (word : BitVec 64) (s : State) : Host.Outcome State Fault Refusal := issueOp s core slot word [0xC4] (doTst core slot)

end Sys2Proof.Machine
end

