-- ==== Sys2Proof/Machine/Launching.lean ====
section
/-! DEFINITION. Launches: acceptance and checks, gates, the placement of blocks, SYS.ABORT, and DIAG.CORE (R105 to R112, R161, R167, R414 to R420,
R647 to R655). -/

namespace Sys2Proof.Machine

/-! ### Acceptance (R647, R648) -/

/-- REGS of a launch's shape. -/
def shRegs (w : List Nat) : Nat := bitsN (nth w 4) 31 24
/-- GROUPS. -/
def shGroups (w : List Nat) : Nat := bitsN (nth w 4) 23 16
/-- SCRATCH units. -/
def shScratch (w : List Nat) : Nat := bitsN (nth w 4) 15 13
/-- CORE_FIRST. -/
def shFirst (w : List Nat) : Nat := bitsN (nth w 6) 11 0
/-- CORE_COUNT. -/
def shCount (w : List Nat) : Nat := bitsN (nth w 6) 27 16
/-- The cores of a launch's range that are in service. -/
def shCores (m : Chip) (w : List Nat) : List Nat := ((List.range (shCount w)).map (shFirst w + ·)).filter (fun c => dieUp m (dieOf c))

/-- A limit field of a power of two: 0, or 16 to 30. -/
def limitOk (n : Nat) : Bool := n == 0 || (decide (16 ≤ n) && decide (n ≤ 30))

/-- A launch descriptor has no reserved field or encoding, and REGS and GROUPS lie in R111. -/
def launchFieldsOk (w : List Nat) : Bool :=
  bitsN (nth w 0) 31 28 == 1 && bitsN (nth w 0) 26 0 == 0 && decide (1 ≤ launchTag { ring := 0, seq := 0, w := w, t0 := 0 }) && bitsN (nth w 1) 15 0 == 0 &&
  decide (nth w 3 < 65536) && bitsN (nth w 4) 10 5 == 0 && shRegs w % 8 == 0 && decide (8 ≤ shRegs w) && decide (shRegs w ≤ 128) &&
  decide (1 ≤ shGroups w) && decide (shGroups w ≤ 16) && decide (shScratch w ≤ 4) && limitOk (bitsN (nth w 4) 4 0) &&
  bitsN (nth w 6) 31 28 == 0 && bitsN (nth w 6) 15 12 == 0 && nth w 7 == 0 && bitsN (nth w 11) 29 5 == 0 && limitOk (bitsN (nth w 11) 4 0) &&
  nth w 13 == 0 && nth w 15 == 0 && nth w 28 == 0 && nth w 29 == 0

/-- The launch breaks check 2 of R648. -/
def launchShapeBad (m : Chip) (w : List Nat) : Bool :=
  nth w 5 == 0 || shCount w == 0 || decide (2560 < shFirst w + shCount w) || (shCores m w).isEmpty || decide (96 < shGroups w * (shRegs w / 8))

/-- WAIT_EN of the gate. -/
def gateWait (w : List Nat) : Bool := tb (nth w 8) 31
/-- SKIP_EN. -/
def gateSkip (w : List Nat) : Bool := tb (nth w 10) 31
/-- The wait word's address. -/
def gateWaitDa (w : List Nat) : Nat := 0xE00000000000 + 4 * bitsN (nth w 8) 30 0
/-- The skip word's address. -/
def gateSkipDa (w : List Nat) : Nat := 0xE00000000000 + 4 * bitsN (nth w 10) 30 0

/-- A gate word is not a signal word of the module (R415). -/
def gateBad (m : Chip) (w : List Nat) : Bool := (gateWait w && !scratch m (gateWaitDa w)) || (gateSkip w && !scratch m (gateSkipDa w))

/-- The status of the first failing check of R648. -/
def launchChecks (m : Chip) (w : List Nat) : Option Nat :=
  if !launchFieldsOk w then some 1 else if launchShapeBad m w then some 2 else if gateBad m w then some 7 else none

/-- The launches that wait at their gates. -/
def gatesWaiting (m : Chip) : Nat := (m.launches.filter (fun e => e.2.any (·.atGate))).length

/-- Bring PTS_STAT.GATES up to date. -/
def gatesNote (m : Chip) : Chip := fset m PTS_STAT_GATES (gatesWaiting m)

/-- A launch leaves its gate for its ring's placement queue (R418, R650). -/
def gateLeave (m : Chip) (l : Nat) : Chip :=
  gatesNote { modLaunch m l (fun x => { x with atGate := false, met := true, order := m.launchOrder + 1 }) with launchOrder := m.launchOrder + 1 }

/-- A bad read of a gate word makes its first record (R825). -/
def gateBadRead (m : Chip) (l : Nat) (x : Launch) (ln : Nat) (g : Got) : Chip :=
  if x.polled then m
  else
    let u := homeSource (ln * 128)
    recFate (modLaunch m l (fun x => { x with polled := true })) u.1 u.2 (1, x.ring, launchTag x) 0 ln g

/-- The skip condition (R414). -/
def skipHolds (w : List Nat) (v : Nat) : Bool :=
  let k := nth w 12
  match bitsN (nth w 11) 31 30 with
  | 0 => v == k
  | 1 => v != k
  | 2 => (v &&& k) != 0
  | _ => (v &&& k) == 0

/-- The evaluator, the wait condition met, reads the skip word and lets the launch go, or completes it SKIPPED (R418). -/
def gateSkipTest (m : Chip) (l : Nat) (x : Launch) : Chip :=
  if !gateSkip x.w then gateLeave m l
  else if !deviceReady m (gateSkipDa x.w) 4 then flipRange m (gateSkipDa x.w) 4
  else
    let r := loadWord m (gateSkipDa x.w) true
    match r.2.1 with
    | some (ln, g) => gateBadRead r.2.2 l x ln g
    | none =>
      if skipHolds x.w r.1 then gatesNote (endLaunch (bump r.2.2 PTS_SKIP_CTR 1) l 5) else gateLeave r.2.2 l

/-- GATE_POLL (R417, R418, R825): a good read that meets the condition goes on to the skip word. -/
def doGatePoll (l : Nat) (m : Chip) : Chip :=
  match launch m l with
  | none => m
  | some x =>
    if x.met || !gateWait x.w then gateSkipTest m l x
    else if !deviceReady m (gateWaitDa x.w) 4 then flipRange m (gateWaitDa x.w) 4
    else
      let r := loadWord m (gateWaitDa x.w) true
      match r.2.1 with
      | some (ln, g) => gateBadRead r.2.2 l x ln g
      | none => if nth x.w 9 ≤ r.1 then gateSkipTest (modLaunch r.2.2 l (fun x => { x with met := true })) l { x with met := true } else r.2.2

/-- Meaning of GATE_POLL. -/
def execGatePoll (id : Nat) (s : State) : Host.Outcome State Fault Refusal :=
  runIf s (fun m => (launch m id).any (·.atGate)) (doGatePoll id)

/-- The gate's limit has passed, counted from acceptance (R420). -/
def gateLate (m : Chip) (l : Nat) : Bool :=
  (launch m l).any (fun x => x.atGate && decide (x.t0 + 2 ^ (if bitsN (nth x.w 11) 4 0 = 0 then fget m PTS_CTRL_GATE_LOG2 else bitsN (nth x.w 11) 4 0) ≤ m.ns))

/-- GATE_TIMEOUT (R420). -/
def doGateTimeout (l : Nat) (m : Chip) : Chip := gatesNote (endLaunch (bump m PTS_GATE_TO_CTR 1) l 6)

/-- Meaning of GATE_TIMEOUT. -/
def execGateTimeout (id : Nat) (s : State) : Host.Outcome State Fault Refusal := runIf s (fun m => gateLate m id) (doGateTimeout id)

/-- An accepted launch: its checks, its gate, or the placement queue (R648 to R650). -/
def launchTake (n seq : Nat) (w : List Nat) (m : Chip) : Chip :=
  let l := m.launchId
  let x : Launch := { ring := n, seq := seq, w := w, t0 := m.ns, atGate := gateWait w || gateSkip w }
  let m1 := { setLaunch m l (some x) with launchId := l + 1 }
  match launchChecks m w with
  | some st => endLaunch m1 l st
  | none =>
    if gateWait w then gatesNote m1
    else if gateSkip w then gatesNote (gateSkipTest m1 l x)
    else gateLeave m1 l

/-- A launch may be read now: with 256 gates waiting, none that would wait (R416). -/
def launchAgree (m : Chip) (w : List Nat) : Bool := !(gateWait w && decide (256 ≤ gatesWaiting m) && (launchChecks m w).isNone)

/-- The launches that are active. -/
def launchesActive (m : Chip) : Nat := (m.launches.filter (fun e => e.2.isSome)).length

/-- The launch ring has an entry to read, and fewer than 1,024 launches are active (R649). -/
def launchWants (m : Chip) (n : Nat) : Bool := ringWants m n && ringKind m n == 1 && decide (launchesActive m < 1024)

/-- LAUNCH_ACCEPT. -/
def doLaunchAccept (n : Nat) (m : Chip) : Chip := ringRead m n (launchAgree m) (launchTake n)

/-- Meaning of LAUNCH_ACCEPT. -/
def execLaunchAccept (ring : Nat) (s : State) : Host.Outcome State Fault Refusal := runIf s (fun m => launchWants m ring) (doLaunchAccept ring)

/-! ### Placement (R105 to R108, R112, R143, R148, R161, R650, R651) -/

/-- Free group slots of a core, ascending. -/
def freeSlots (k : Core) : List Nat := (List.range 16).filter (fun s => (tget none s k.groups).isNone)

/-- Register chunks in use on a core. -/
def chunksUsed (k : Core) : Nat :=
  sumN 16 (fun s => match tget none s k.groups with
    | some g => ((tget none g.blk k.blocks).map (fun b => b.regs / 8)).getD 0
    | none => 0)

/-- Free scratch units of a core, ascending. -/
def freeUnits (k : Core) : List Nat := (List.range 4).filter (fun u => (k.units.getD u none).isNone)

/-- A block of a launch fits on a core (R106). -/
def fits (k : Core) (w : List Nat) : Bool :=
  decide (shGroups w ≤ (freeSlots k).length) && decide (shGroups w * (shRegs w / 8) + chunksUsed k ≤ 96) && decide (shScratch w ≤ (freeUnits k).length)

/-- A group at its first instruction (R170, R651). -/
def newGrp (b idx : Nat) (w : List Nat) : Grp :=
  { blk := b, idx := idx, pc := nth w 2 + 2 ^ 32 * nth w 3, u := (List.range 12).foldl (fun t i => tput 0 i (nth w (16 + i)) t) [] }

/-- Place block num of launch l on core k: its groups, its scratch units set to zero, and an invalidate-all (R143, R148, R161). -/
def placeOn (m : Chip) (l num : Nat) (w : List Nat) (k : Core) : Core :=
  let id := blkId l num
  let us := (freeUnits k).take (shScratch w)
  let b : Blk := { launch := l, num := num, regs := shRegs w, groups := shGroups w, left := shGroups w, units := us, masked := tb (nth w 4) 11,
                   pf := if tb (nth w 4) 12 || !fon m CG_CTRL_PF_EN then 0 else fget m CG_CTRL_PF_DEPTH, barLog2 := bitsN (nth w 4) 4 0 }
  let k1 := { k with blocks := tput none id (some b) k.blocks, units := us.foldl (fun x u => setAt x u (some id)) k.units,
                     groups := (((freeSlots k).take (shGroups w)).zipIdx).foldl (fun t (s : Nat × Nat) => tput none s.1 (some (newGrp id s.2 w)) t) k.groups }
  l0Clear { k1 with l0 := us.foldl (fun t u => (List.range 4).foldl (fun t e => tput {} (44 - 4 * u + e) ⟨0, false, List.replicate 128 0#8, 0⟩ t) t) k1.l0 }

/-- The launch at the head of a ring's placement queue. -/
def queueHead (m : Chip) (n : Nat) : Option (Nat × Launch) :=
  (m.launches.filterMap (fun e => match e.2 with
    | some x => if x.ring = n ∧ !x.atGate ∧ x.next < launchBlocks x ∧ x.order ≠ 0 then some (e.1, x) else none
    | none => none)).foldl (fun b p => match b with
      | none => some p
      | some q => if p.2.order < q.2.order then some p else some q) none

/-- The lowest core of the launch's range on which its next block fits (R107, R112). -/
def placeCore (m : Chip) (x : Launch) : Option Nat := (shCores m x.w).find? (fun c => fits (core m c) x.w)

/-- The next placement: ring heads in ascending ring number after the ring last served (R650). -/
def nextPlace (m : Chip) : Option (Nat × Nat × Launch × Nat) :=
  (List.range 64).findSome? (fun i =>
    let n := (m.placeRing + 1 + i) % 64
    (queueHead m n).bind (fun q => (placeCore m q.2).map (fun c => (n, q.1, q.2, c))))

/-- Empty the code caches of the dies a launch uses (R171). -/
def codeClear (m : Chip) (w : List Nat) : Chip :=
  { m with code := (List.range 8).map (fun d => if (shCores m w).any (fun c => dieOf c == d) then [] else m.code.getD d []) }

/-- BLOCK_PLACE. -/
def doBlockPlace (m : Chip) : Chip :=
  match nextPlace m with
  | none => m
  | some (n, l, x, c) =>
    let m1 := if x.inv then m else codeClear m x.w
    modLaunch (modCore { m1 with placeRing := n } c (placeOn m l x.next x.w)) l (fun y => { y with next := y.next + 1, live := y.live + 1, inv := true })

/-- Meaning of BLOCK_PLACE. -/
def execBlockPlace (s : State) : Host.Outcome State Fault Refusal := runIf s (fun m => (nextPlace m).isSome) doBlockPlace

/-! ### SYS.ABORT (R655) -/

/-- End a resident block by an abort, R164 applying to its stores. -/
def abortBlk (m : Chip) (c b : Nat) : Chip :=
  match blk m c b with
  | some k => modLaunch (scramble (dropBlk m c b true) k.wrote) k.launch (countEnd .abort)
  | none => m

/-- The resident blocks of a launch: core and block id. -/
def residentOf (m : Chip) (l : Nat) : List (Nat × Nat) :=
  m.cores.flatMap (fun e => e.2.blocks.filterMap (fun b => if b.2.any (fun k => k.launch == l) then some (e.1, b.1) else none))

/-- A launch ends with LAUNCH_ABORT: blocks never placed count as lost (R654). -/
def abortLaunch (m : Chip) (l : Nat) : Chip :=
  match launch m l with
  | none => m
  | some x =>
    let m1 := (residentOf m l).foldl (fun n p => abortBlk n p.1 p.2) m
    gatesNote (endLaunch (modLaunch m1 l (fun y => { y with lost := y.lost + (launchBlocks x - x.next) })) l 8)

/-- SYS.ABORT. -/
def doSysAbort (i : Nat) (p : List Nat) (m : Chip) : Chip :=
  let n := bitsN (nth p 0) 5 0
  let ls := m.launches.filterMap (fun e => if e.2.any (fun x => x.ring == n && (tb (nth p 0) 31 || launchTag x == nth p 1)) then some e.1 else none)
  respond (ls.foldl abortLaunch m) i 0 [ls.length]

/-- Meaning of SYS.ABORT. -/
def execSysAbort (i : Nat) (s : State) : Host.Outcome State Fault Refusal := runCmd s i 0x0105 (doSysAbort i)

/-! ### DIAG.CORE (R167) -/

/-- DIAG.CORE: BUSY unless the die is out of service; else its test runs. -/
def doDiagCore (i : Nat) (p : List Nat) (m : Chip) : Chip := if dieUp m (nth p 0) then fail m i 1 else cmdOn m i [nth p 0]

/-- Meaning of DIAG.CORE. -/
def execDiagCore (i : Nat) (s : State) : Host.Outcome State Fault Refusal := runCmd s i 0x0D01 (doDiagCore i)

/-- The mailbox whose DIAG.CORE tests a die. -/
def coreTest (m : Chip) (d : Nat) : Option Nat := firstIdx 4 (fun i => cmdGoing m i 0x0D01 && nth (cmdAux m i) 0 == d)

/-- CORE_TEST_END (R167, R663): the failing units, the cores that failed and the lowest of them. -/
def doCoreTestEnd (d units failed first : Nat) (m : Chip) : Chip :=
  match coreTest m d with
  | some i => respond m i 0 [units % 8 * 2 ^ 24 + min failed 320, if failed = 0 then 0xFFF else first % 4096, elapsed m (cmdT0 m i)]
  | none => m

/-- Meaning of CORE_TEST_END. -/
def execCoreTestEnd (die units failed first : Nat) (s : State) : Host.Outcome State Fault Refusal :=
  runIf s (fun m => (coreTest m die).isSome) (doCoreTestEnd die units failed first)

end Sys2Proof.Machine
end

