-- ==== Sys2Proof/Machine/Points.lean ====
section
/-! DEFINITION. The points unit: jobs, the expert table, routing into capacity slots, tallies, completion (R390 to R407, R413, R423 to R426). -/

namespace Sys2Proof.Machine

/-! ### The shape of a job (R396) -/

/-- K. -/
def jK (w : List Nat) : Nat := bitsN (nth w 0) 23 20
/-- RANKS. -/
def jRanks (w : List Nat) : Nat := bitsN (nth w 0) 19 16
/-- The job is a ROUTE. -/
def jRoute (w : List Nat) : Bool := bitsN (nth w 0) 31 28 == 1
/-- CAP. -/
def jCap (w : List Nat) : Nat := bitsN (nth w 1) 15 0
/-- TOKENS, or SOURCES of a TALLY. -/
def jTokens (w : List Nat) : Nat := nth w 3
/-- ROW_BYTES. -/
def jRow (w : List Nat) : Nat := nth w 4
/-- POS_COUNT, or LOCALS of a TALLY. -/
def jPos (w : List Nat) : Nat := bitsN (nth w 12) 12 0
/-- The line DA[47:7] of a buffer line field in word i. -/
def jLine (w : List Nat) (i : Nat) : Nat := 0xE00000000000 / 128 + bitsN (nth w i) 25 0
/-- BLOCK. -/
def jBlock (w : List Nat) : Nat := slotBlock (jCap w) (jRow w)
/-- Records per queue. -/
def jQueueCap (w : List Nat) : Nat := if nth w 8 = 0 then jTokens w * jK w else nth w 8
/-- Lines of a queue. -/
def jQueueLines (w : List Nat) : Nat := cdiv (jQueueCap w * 16) 128
/-- The first line of queue q: 0 overflow, 1 fallback. -/
def jQueue (w : List Nat) (q : Nat) : Nat := jLine w 7 + q * jQueueLines w
/-- The wait word's address, with WAIT_EN. -/
def jWait (w : List Nat) : Option Nat := if tb (nth w 9) 31 then some (0xE00000000000 + 4 * bitsN (nth w 9) 30 0) else none
/-- The done word's address, with DONE_EN. -/
def jDone (w : List Nat) : Option Nat := if tb (nth w 11) 31 then some (0xE00000000000 + 4 * bitsN (nth w 11) 30 0) else none

/-- The areas of a job: start and bytes. -/
def jAreas (w : List Nat) : List (Nat × Nat) :=
  let at_ (i : Nat) : Nat := jLine w i * 128
  if jRoute w then
    [(at_ 2, jTokens w * 32), (at_ 5, jTokens w * jRow w), (at_ 6, jPos w * jBlock w), (jQueue w 0 * 128, jQueueLines w * 128), (jQueue w 1 * 128, jQueueLines w * 128)]
  else [(at_ 2, jPos w * jTokens w * jBlock w), (at_ 6, jPos w * 4)]

/-- Two areas of a list overlap. -/
def anyMeet : List (Nat × Nat) → Bool
  | [] => false
  | a :: r => r.any (fun b => rangesMeet a.1 a.2 b.1 b.2) || anyMeet r

/-- The shape check of R397. -/
def jShapeBad (w : List Nat) : Bool :=
  let common := jCap w == 0 || jRow w % 128 != 0 || jRow w == 0 || decide (65536 < jRow w) || jPos w == 0 || decide (4096 < jPos w) || jTokens w == 0
  common || (if jRoute w then jK w == 0 || decide (4 < jK w) || decide (jRanks w < jK w) || decide (8 < jRanks w) else decide (2048 < jTokens w))

/-- The address check of R397. -/
def jAddrBad (m : Chip) (w : List Nat) : Bool :=
  (jAreas w).any (fun a => !scratchRange m a.1 a.2) || (jWait w).any (fun a => !scratch m a) || (jDone w).any (fun a => !scratch m a) || anyMeet (jAreas w)

/-- The STATUS of the first failing check of R397. -/
def jChecks (m : Chip) (w : List Nat) : Option Nat :=
  if !jobFieldsOk w then some 1 else if jShapeBad w then some 2 else if jAddrBad m w then some 3 else none

/-! ### The active job -/

/-- The active job of engine e (0 PE-N, 1 PE-S). -/
def ptsJob (m : Chip) (e : Nat) : Option Job := m.pts.jobs.getD e none

/-- Set the job of engine e, and its BUSY bit. -/
def setJob (m : Chip) (e : Nat) (j : Option Job) : Chip :=
  fset { m with pts := { m.pts with jobs := setAt m.pts.jobs e j } } (if e = 0 then PTS_STAT_BUSY_N else PTS_STAT_BUSY_S) (b2n j.isSome)

/-- Owner of a job's errors (R748). -/
def ownJob (j : Job) : Owner := (3, j.ring.getD 0, bitsN (nth j.w 1) 31 16)

/-- A job completes with a STATUS (R404, R406, R407). -/
def ptsEnd (m : Chip) (e st : Nat) : Chip :=
  match ptsJob m e with
  | none => m
  | some j =>
    let m1 := if st = 0 then (match jDone j.w with
        | some a => incWord m (ownJob j) a
        | none => m)
      else scramble m j.wrote
    let rec_ := [st * 65536 + bitsN (nth j.w 1) 31 16] ++ fit 6 0 j.counts ++ [elapsed m (if j.run then j.start else j.t0)]
    let m2 := setJob m1 e none
    match j.ring with
    | some n => ringDone (if st ≠ 0 ∨ tb (nth j.w 0) 27 then putCompletion m2 n j.seq rec_ else m2) n
    | none => respond m2 j.seq 0 rec_

/-- Take a job: its checks, its wait, or its start (R397, R398). -/
def ptsAccept (m : Chip) (e : Nat) (ring : Option Nat) (seq : Nat) (w : List Nat) : Chip :=
  let wait := (jWait w).isSome
  let m1 := setJob m e (some { ring := ring, seq := seq, w := w, t0 := m.ns, start := m.ns, run := !wait })
  match jChecks m w with
  | some st => ptsEnd m1 e st
  | none => m1

/-- The lowest points ring of an engine's KIND (4 PE-N, 5 PE-S) that has an entry. -/
def ptsRing (m : Chip) (e : Nat) : Option Nat := firstIdx 64 (fun n => ringWants m n && ringKind m n == 4 + e)

/-- Engine e takes jobs now. -/
def ptsOpen (m : Chip) (e : Nat) : Bool := decide (e < 2) && (ptsJob m e).isNone && fon m (if e = 0 then PTS_CTRL_ACCEPT_N else PTS_CTRL_ACCEPT_S)

/-- An accepted entry of a points ring. -/
def ptsTake (n seq : Nat) (w : List Nat) (m : Chip) : Chip := ptsAccept m (ringKind m n - 4) (some n) seq w

/-- PTS_JOB_ACCEPT (R390, R397). -/
def doPtsJobAccept (e : Nat) (m : Chip) : Chip :=
  match ptsRing m e with
  | some n => ringRead m n (fun _ => true) (ptsTake n)
  | none => m

/-- Meaning of PTS_JOB_ACCEPT. -/
def execPtsJobAccept (engine : Nat) (s : State) : Host.Outcome State Fault Refusal := runIf s (fun m => ptsOpen m engine) (doPtsJobAccept engine)

/-- PTS_WAIT_POLL (R398, R825). -/
def doPtsWaitPoll (e : Nat) (m : Chip) : Chip :=
  match ptsJob m e with
  | none => m
  | some j =>
    match jWait j.w with
    | none => m
    | some a =>
      if !deviceReady m a 4 then flipRange m a 4 else
      let r := loadWord m a false
      match r.2.1 with
      | some (ln, g) => if j.polled then r.2.2 else recFate (setJob r.2.2 e (some { j with polled := true })) 6 e (ownJob j) 0 ln g
      | none => if nth j.w 10 ≤ r.1 then setJob r.2.2 e (some { j with run := true, start := m.ns }) else r.2.2

/-- Meaning of PTS_WAIT_POLL. -/
def execPtsWaitPoll (engine : Nat) (s : State) : Host.Outcome State Fault Refusal :=
  runIf s (fun m => (ptsJob m engine).any (fun j => !j.run)) (doPtsWaitPoll engine)

/-- The wait has lasted its limit (R398). -/
def ptsLate (m : Chip) (e : Nat) : Bool := (ptsJob m e).any (fun j => !j.run && decide (j.t0 + 2 ^ fget m PTS_CTRL_WAIT_LOG2 ≤ m.ns))

/-- Meaning of PTS_WAIT_TIMEOUT (R398). -/
def execPtsWaitTimeout (engine : Nat) (s : State) : Host.Outcome State Fault Refusal := runIf s (fun m => ptsLate m engine) (fun m => ptsEnd m engine 6)

/-! ### Lines of a job -/

/-- A job under way: the machine, the job, and the STATUS of its first failure (0 none). -/
structure PRun where
  m : Chip
  j : Job
  st : Nat := 0

/-- Read and check a source line (R406). -/
def pGet (e : Nat) (x : PRun) (ln : Nat) : Line × PRun :=
  if x.st ≠ 0 then (zeroLine, x)
  else
    let r := readExit x.m ln false
    if r.1.fate = .good then (⟨r.1.ln.data, r.1.ln.wb, false, []⟩, { x with m := r.2 })
    else (zeroLine, { x with m := recFate r.2 6 e (ownJob x.j) 0 ln r.1, st := if r.1.fate = .waybill then 4 else 5 })

/-- Note a write's end: an error ends the job with PTS_MEMORY. -/
def pWrote (e : Nat) (x : PRun) (ln mask : Nat) (l : Line) (r : Fate × Chip) : PRun :=
  let j := { x.j with wrote := tmod 0 ln (fun o => o ||| mask) x.j.wrote }
  if r.1 = .good then { x with m := r.2, j := j } else { m := recFate r.2 6 e (ownJob j) 0 ln { ln := failLine x.m ln l r.1, fate := r.1 }, j := j, st := 5 }

/-- Write a line. -/
def pPut (e : Nat) (x : PRun) (ln : Nat) (l : Line) : PRun := if x.st ≠ 0 then x else pWrote e x ln (2 ^ 128 - 1) l (writeLine x.m ln l false)

/-- Write n bytes within a line at byte o. -/
def pPatch (e : Nat) (x : PRun) (ln o : Nat) (bs : List Byte) : PRun :=
  if x.st ≠ 0 then x
  else
    let mask := (2 ^ bs.length - 1) * 2 ^ o
    let d := List.replicate o 0#8 ++ bs ++ List.replicate (128 - o - bs.length) 0#8
    pWrote e x ln mask (goodLine d) (partialWrite x.m ln d mask true false)

/-- Keep a run: the job goes on, or ends with its failure. -/
def pKeep (e : Nat) (x : PRun) : Chip :=
  let m := setJob x.m e (some x.j)
  if x.st = 0 then m else ptsEnd m e x.st

/-- Count one in the job's counts and in a counter register. -/
def pCount (x : PRun) (i ctr : Nat) : PRun := { x with j := { x.j with counts := modAt x.j.counts i (· + 1) }, m := bump x.m ctr 1 }

/-! ### Routing (R392, R400 to R403) -/

/-- An expert table entry. -/
def expert (m : Chip) (e : Nat) : Nat := tget 0 e m.pts.table

/-- Expert id e is known to a job. -/
def known (m : Chip) (w : List Nat) (e : Nat) : Bool := decide (e < 4096) && tb (expert m e) 31 && decide (bitsN (expert m e) 11 0 < jPos w)

/-- POS of an expert. -/
def posOf (m : Chip) (e : Nat) : Nat := bitsN (expert m e) 11 0

/-- Put a record on queue q (0 overflow, 1 fallback) with its reason (0 full, 1 unknown, 2 duplicate). -/
def pEnqueue (e : Nat) (x : PRun) (q t r ex reason wt : Nat) : PRun :=
  let x1 := pCount x (3 + q) (if q = 0 then PTS_OVERFLOW_CTR else PTS_FALLBACK_CTR)
  let n := nth x.j.queued q
  if jQueueCap x.j.w ≤ n then { x1 with j := { x1.j with counts := modAt x1.j.counts 5 (· + 1) } }
  else pPatch e { x1 with j := { x1.j with queued := setAt x1.j.queued q (n + 1) } } (jQueue x.j.w q + n / 8) (16 * (n % 8))
    (wordBytes [t, reason * 2 ^ 30 + r * 2 ^ 27 + ex, wt, 0])

/-- Place a token in the next slot of an expert: its metadata is noted and its row copied with its waybill (R402). -/
def pPlace (e : Nat) (x : PRun) (ex t r demoted wt : Nat) : PRun :=
  let w := x.j.w
  let p := posOf x.m ex
  let s := tget 0 p x.j.fill
  let x1 := pCount { x with j := { x.j with fill := tput 0 p (s + 1) x.j.fill, meta_ := x.j.meta_ ++ [[p, t, r, demoted, wt, ex]] } } 1 PTS_ROUTED_CTR
  let x2 := if demoted = 1 then pCount x1 2 PTS_DEMOTED_CTR else x1
  let row := jLine w 6 + (p * jBlock w + 128 * (1 + cdiv (jCap w) 8) + s * jRow w) / 128
  (List.range (jRow w / 128)).foldl (fun x i =>
    let l := pGet e x (jLine w 5 + (t * jRow w) / 128 + i)
    pPut e l.2 (row + i) l.1) x2

/-- The state of one token's decisions: the run, the experts it was given, and the next alternate rank. -/
abbrev TokenRun := PRun × List Nat × Nat

/-- EXPERT of rank r of a selection record (R395). -/
def selExpert (rec_ : List Nat) (r : Nat) : Nat := bitsN (nth rec_ r) 31 16

/-- The one try of an assignment at an alternate (R400). -/
def tryAlternate (x : PRun) (rec_ used : List Nat) (alt : Nat) : Bool :=
  let a := selExpert rec_ alt
  a != 0xFFFF && known x.m x.j.w a && !used.contains a && !((List.range (jK x.j.w)).any (fun r => selExpert rec_ r == a)) &&
  decide (tget 0 (posOf x.m a) x.j.fill < jCap x.j.w)

/-- The decision on primary rank r of token t (R400). -/
def decideRank (e t : Nat) (rec_ : List Nat) (s : TokenRun) (r : Nat) : TokenRun :=
  let x := s.1
  let ex := selExpert rec_ r
  let wt (r : Nat) : Nat := bitsN (nth rec_ r) 15 0
  if x.st ≠ 0 ∨ ex = 0xFFFF then s
  else
    let x1 := pCount x 0 PTS_IN_CTR
    if !known x.m x.j.w ex then (pEnqueue e x1 1 t r ex 1 (wt r), s.2)
    else if s.2.1.contains ex then (pEnqueue e x1 0 t r ex 2 (wt r), s.2)
    else if tget 0 (posOf x.m ex) x.j.fill < jCap x.j.w then (pPlace e x1 ex t r 0 (wt r), s.2.1 ++ [ex], s.2.2)
    else if s.2.2 < jRanks x.j.w then
      (if tryAlternate x rec_ s.2.1 s.2.2
       then (pPlace e x1 (selExpert rec_ s.2.2) t s.2.2 1 (wt s.2.2), s.2.1 ++ [selExpert rec_ s.2.2], s.2.2 + 1)
       else (pEnqueue e x1 0 t r ex 0 (wt r), s.2.1, s.2.2 + 1))
    else (pEnqueue e x1 0 t r ex 0 (wt r), s.2)

/-- The decisions of the next token. -/
def routeToken (e : Nat) (x : PRun) : PRun :=
  let t := x.j.tok
  let l := pGet e x (jLine x.j.w 2 + t / 4)
  let rec_ := bytesWords ((l.1.data.drop (32 * (t % 4))).take 32)
  let s := (List.range (jK x.j.w)).foldl (decideRank e t rec_) (l.2, [], jK x.j.w)
  { s.1 with j := { s.1.j with tok := t + 1 } }

/-- The lowest id whose valid entry holds a POS, or 0xFFFF (R401). -/
def expertAt (m : Chip) (w : List Nat) (p : Nat) : Nat := (firstIdx 4096 (fun e => known m w e && posOf m e == p)).getD 0xFFFF

/-- The metadata record of one filled slot (R401). -/
def slotMeta (q : List Nat) : List Nat := [nth q 1, 2 ^ 31 + nth q 3 * 2 ^ 30 + nth q 2 * 2 ^ 27 + nth q 5, nth q 4, 0]

/-- Header, metadata and, with ZERO_FILL, zero rows of the next slot block (R401, R402). -/
def routeBlock (e : Nat) (x : PRun) : PRun :=
  let w := x.j.w
  let p := x.j.blk
  let n := tget 0 p x.j.fill
  let base := jLine w 6 + p * jBlock w / 128
  let k := cdiv (jCap w) 8
  let hdr := [jCap w * 65536 + n, bitsN (nth w 1) 31 16 * 65536 + expertAt x.m w p, nth w 13, selfNum x.m] ++ List.replicate 28 0
  let me := fit (32 * k) 0 ((x.j.meta_.filter (fun q => nth q 0 == p)).flatMap slotMeta)
  let x1 := pPut e x base (goodLine (wordBytes hdr))
  let x2 := (List.range k).foldl (fun x i => pPut e x (base + 1 + i) (goodLine (wordBytes ((me.drop (32 * i)).take 32)))) x1
  let x3 := if tb (nth w 0) 26 then (List.range ((jCap w - n) * (jRow w / 128))).foldl (fun x i => pPut e x (base + 1 + k + n * (jRow w / 128) + i) zeroLine) x2 else x2
  { x3 with j := { x3.j with blk := p + 1, fin := p + 1 == jPos w } }

/-- Run the next part of a job, when its areas are in DEVICE bias; else their flips start (R598). -/
def ptsPart (e : Nat) (m : Chip) (f : Job → PRun → PRun) : Chip :=
  match ptsJob m e with
  | some j =>
    if (jAreas j.w).all (fun a => deviceReady m a.1 a.2) then pKeep e (f j { m := m, j := j }) else (jAreas j.w).foldl (fun c a => flipRange c a.1 a.2) m
  | none => m

/-- ROUTE_JOB_RUN: the decisions of the next token, or after the last token the next slot block. -/
def doRouteJobRun (e : Nat) (m : Chip) : Chip := ptsPart e m (fun j x => if j.tok < jTokens j.w then routeToken e x else routeBlock e x)

/-- Engine e runs a job of an OP that has work left. -/
def ptsRuns (m : Chip) (e : Nat) (route : Bool) : Bool := (ptsJob m e).any (fun j => j.run && !j.fin && jRoute j.w == route)

/-- Meaning of ROUTE_JOB_RUN. -/
def execRouteJobRun (engine : Nat) (s : State) : Host.Outcome State Fault Refusal := runIf s (fun m => ptsRuns m engine true) (doRouteJobRun engine)

/-! ### Tallying (R413) -/

/-- The header of one block: its FILL counts when its STAMP matches. -/
def tallyHeader (e : Nat) (x : PRun) (ln : Nat) : PRun :=
  let l := pGet e x ln
  if l.2.st ≠ 0 then l.2
  else
    let h := bytesWords (l.1.data.take 16)
    let j := { l.2.j with counts := modAt l.2.j.counts 0 (· + 1) }
    if nth h 2 = nth j.w 13 then
      let f := bitsN (nth h 0) 15 0
      { l.2 with j := { j with counts := modAt j.counts 1 (fun c => (c + f) % 2 ^ 32), tally := modAt j.tally j.blk (· + f) } }
    else { l.2 with j := { j with counts := modAt j.counts 4 (· + 1) } }

/-- The headers of the next local expert. -/
def tallyLocal (e : Nat) (x : PRun) : PRun :=
  let w := x.j.w
  let x0 := { x with j := { x.j with tally := x.j.tally ++ [0] } }
  let x1 := (List.range (jTokens w)).foldl (fun x s => tallyHeader e x (jLine w 2 + (x0.j.blk * jTokens w + s) * jBlock w / 128)) x0
  { x1 with j := { x1.j with blk := x1.j.blk + 1 } }

/-- The tally words, line by line. -/
def tallyWrite (e : Nat) (x : PRun) : PRun :=
  let bs := wordBytes x.j.tally
  let x1 := (List.range (cdiv bs.length 128)).foldl (fun y i => pPatch e y (jLine y.j.w 6 + i) 0 ((bs.drop (128 * i)).take 128)) x
  { x1 with j := { x1.j with fin := true } }

/-- TALLY_JOB_RUN: the next local expert, and after the last the tally words. -/
def doTallyJobRun (e : Nat) (m : Chip) : Chip := ptsPart e m (fun j x => if j.blk < jPos j.w then tallyLocal e x else tallyWrite e x)

/-- Meaning of TALLY_JOB_RUN. -/
def execTallyJobRun (engine : Nat) (s : State) : Host.Outcome State Fault Refusal := runIf s (fun m => ptsRuns m engine false) (doTallyJobRun engine)

/-- Meaning of PTS_JOB_COMPLETE (R404, R407): every write of the job is acknowledged. -/
def execPtsJobComplete (engine : Nat) (s : State) : Host.Outcome State Fault Refusal :=
  runIf s (fun m => (ptsJob m engine).any (·.fin)) (fun m => ptsEnd m engine 0)

/-! ### The expert table (R391 to R394) -/

/-- Store an entry in both engines. -/
def setExpert (m : Chip) (i v : Nat) : Chip := { m with pts := { m.pts with table := tput 0 i (v &&& 0x87FF0FFF) m.pts.table } }

/-- PTS_TBL_DATA_WRITE (R426): entry INDEX, then INDEX moves on. -/
def doPtsTblDataWrite (v : Nat) (m : Chip) : Chip :=
  let i := fget m PTS_TBL_IDX_INDEX
  fset (setExpert m i v) PTS_TBL_IDX_INDEX ((i + 1) % 4096)

/-- Meaning of PTS_TBL_DATA_WRITE. -/
def execPtsTblDataWrite (val : Word) (s : State) : Host.Outcome State Fault Refusal := run s (doPtsTblDataWrite val.toNat)

/-- PTS.TABLE (R394). -/
def doPtsTable (i : Nat) (p : List Nat) (m : Chip) : Chip :=
  if (ptsJob m 0).isSome || (ptsJob m 1).isSome then fail m i 1
  else respond ((List.range (nth p 1)).foldl (fun c k => setExpert c (nth p 0 + k) (nth p (2 + k))) m) i 0 []

/-- Meaning of PTS.TABLE. -/
def execPtsTable (i : Nat) (s : State) : Host.Outcome State Fault Refusal := runCmd s i 0x0501 (doPtsTable i)

/-! ### Commands -/

/-- The send area of a route job meets the send area or phase list of an EXCHANGE row (R399). -/
def sendMeets (m : Chip) (w : List Nat) : Bool :=
  (rowsOf m).any (fun e => rowKind e.2.w == 3 && e.2.par != [] &&
    [sendRange m e.2, (nth e.2.par 6 + nth e.2.par 7 % 65536 * 2 ^ 32, bitsN (nth e.2.par 2) 27 16 * 32)].any
      (fun q => rangesMeet (jLine w 6 * 128) (jPos w * jBlock w) q.1 q.2))

/-- PTS.ROUTE and PTS.TALLY (R398, R399): the job of the base die that holds SEND_LINE or TALLY_LINE. They wait for their engine. -/
def ptsSubmit (i : Nat) (p : List Nat) (m : Chip) : Chip :=
  let w := fit 14 0 p
  let e := bitN (nth w 6) 25
  if jRoute w && sendMeets m w then fail m i 1
  else if !ptsOpen m e then m
  else ptsAccept (cmdOn m i [e]) e none i w

/-- Meaning of PTS.ROUTE. -/
def execPtsRoute (i : Nat) (s : State) : Host.Outcome State Fault Refusal := runCmd s i 0x0502 (ptsSubmit i)

/-- Meaning of PTS.TALLY. -/
def execPtsTally (i : Nat) (s : State) : Host.Outcome State Fault Refusal := runCmd s i 0x0503 (ptsSubmit i)

/-- Reset the engines of a mask: the active job completes with PTS_ABORT (R425). -/
def ptsResetMask (m : Chip) (k : Nat) : Chip := [0, 1].foldl (fun c e => if tb k e then ptsEnd c e 8 else c) m

/-- Meaning of PTS_RESET_WRITE (R425, R426). -/
def execPtsResetWrite (val : Word) (s : State) : Host.Outcome State Fault Refusal := run s (fun m => ptsResetMask m (val.toNat % 4))

/-- PTS.RESET. -/
def doPtsReset (i : Nat) (p : List Nat) (m : Chip) : Chip := respond (ptsResetMask m (2 ^ bitN (nth p 0) 0)) i 0 []

/-- Meaning of PTS.RESET. -/
def execPtsReset (i : Nat) (s : State) : Host.Outcome State Fault Refusal := runCmd s i 0x0504 (doPtsReset i)

/-! ### The audit (R423, R424) -/

/-- IN is ROUTED + OVERFLOW + FALLBACK; no assignment is inside the engine between two steps. -/
def jobAudit (j : Job) : Bool := nth j.counts 0 == nth j.counts 1 + nth j.counts 3 + nth j.counts 4

/-- The audit of the epoch. -/
def ptsAuditEpoch (m : Chip) : Chip :=
  if !fon m PTS_CTRL_AUDIT_EN then m
  else [0, 1].foldl (fun c e =>
    if (ptsJob c e).any (fun j => jRoute j.w && !jobAudit j)
    then
      let r := auditRun (notice (bump (fset c (if e = 0 then PTS_STAT_AUDIT_FAIL_N else PTS_STAT_AUDIT_FAIL_S) 1) PTS_AUDIT_CTR 1) 11 [2 + e * 256]) (512 + e)
      let c1 := ptsEnd r.2 e 7
      if r.1 then ptsResetMask (recErr c1 1 6 3 e ownMioto 0 0 0 0 0) (2 ^ e) else c1
    else c) m

end Sys2Proof.Machine
end

