-- ==== Sys2Proof/Machine/Start.lean ====
section
/-! DEFINITION. Cold and warm starts: what each keeps, the steps, their causes, and the SYS commands (R43, R618, R619, R627, R644, R660, R665
to R689, R807 to R809). -/

namespace Sys2Proof.Machine

/-! ### What a start keeps (R684, R701, R759) -/

/-- A line of the record fails its check. -/
def recBad (m : Chip) (i : Nat) : Bool := (readExit m (recLine i) true).1.fate != .good

/-- Registers that every start keeps: the fatal record, the counts of starts. -/
def keptCold (off : Nat) : Bool := (decide (0xD0080 ≤ off) && decide (off < 0xD00B0)) || (decide (0xB0010 ≤ off) && decide (off < 0xB0020))

/-- Registers that a warm start keeps whole: the size table, the counters, line time's status, region slots, window segments, LNK_TOPO, ring definitions with L
and C. -/
def keptWarm (off : Nat) : Bool :=
  keptCold off || (runIndex 0x400 4 21 off).isSome || isCtrLo off || isCtrHi off || off == TT_LT_STAT_STATE.off ||
  (decide (0x30040 ≤ off) && decide (off < 0x30080)) || (runIndex 0x90100 4 64 off).isSome || off == LNK_TOPO_VALID.off ||
  (runIndex 0xA0100 4 64 off).isSome || (runIndex 0xA0200 4 64 off).isSome

/-- Registers of the parts that step 2 of a warm start resets: consist, points unit, link layer, host port, Mioto's mailboxes. -/
def resetWarm (off : Nat) : Bool :=
  off / 2 ^ 16 == 4 || off / 2 ^ 16 == 5 || off / 2 ^ 16 == 7 || off / 2 ^ 16 == 9 || off / 2 ^ 16 == 0xA

/-- A register through a warm start: kept, reset with its part, or with its RW fields at their reset values. -/
def warmReg (off v : Nat) : Nat :=
  if keptWarm off then v
  else if resetWarm off then regReset off
  else match regFields off with
    | some fs => fs.foldl (fun w f => if f.ty = .rw then setBitsN w f.hi f.lo f.reset else w) v
    | none => v

/-- Control space through a warm start. ROOT belongs to the lock logic, which is not reset; H0_LOST and H1_LOST stay for the host to see (R618, R620). -/
def warmCsr (m : Chip) : Tab Nat :=
  let t := m.csr.filterMap (fun e => if warmReg e.1 e.2 = regReset e.1 then none else some (e.1, warmReg e.1 e.2))
  let c := fset { m with csr := t } TT_CTRL_ROOT (fget m TT_CTRL_ROOT)
  (fset (fset c HOST_STAT_H0_LOST (fget m HOST_STAT_H0_LOST)) HOST_STAT_H1_LOST (fget m HOST_STAT_H1_LOST)).csr

/-- Control space through a cold start, or after VIN48's rise when fresh. -/
def coldCsr (b : Board) (m : Chip) : Tab Nat :=
  let c := { m with csr := m.csr.filter (fun e => keptCold e.1) }
  (fset (fset c ERR_STAT_FATAL_VALID (fget m ERR_STAT_FATAL_VALID)) LNK_TOPO_SLOT b.slot).csr

/-- The module after step 2 of a cold start: everything is as at power-up, but for BD-N's control memory and the model's clock. -/
def coldChip (b : Board) (m : Chip) : Chip :=
  { csr := coldCsr b m, ns := m.ns, freeCtr := m.freeCtr,
    d2d := (List.range 9).map (fun u => { ({} : D2dUnit) with fused := b.fusedSpares.getD u [] }),
    start := { completed := m.start.completed, lastMeas := m.start.lastMeas, fatalPosted := m.start.fatalPosted, t0 := m.ns } }

/-! ### Ending the work of a running module (R644, R678 step 1, R685) -/

/-- Resident blocks end and every launch completes with LAUNCH_ABORT. -/
def endLaunches (m : Chip) : Chip :=
  let bs := m.cores.flatMap (fun e => e.2.blocks.filterMap (fun b => b.2.map (fun k => k.launch)))
  let m1 := { bs.foldl (fun c l => modLaunch c l (countEnd .abort)) m with cores := [] }
  (m.launches.map (·.1)).foldl (fun c l => match launch c l with
    | some x => endLaunch (modLaunch c l (fun y => { y with lost := y.lost + (launchBlocks x - x.next) })) l 8
    | none => c) m1

/-- A mailbox's descriptor or job ends without a response, its mailbox being reset. -/
def dropMbWork (m : Chip) : Chip :=
  let m1 := [0, 1].foldl (fun c d => (descsOf c d).foldl (fun c e => if e.2.ring.isNone then
      modCon (((conDie c d).wagons.filter (fun w => w.desc == e.1)).foldl (dropWagon d) c) d (fun x => { x with descs := tput none e.1 none x.descs })
    else c) c) m
  [0, 1].foldl (fun c e => if (ptsJob c e).any (fun j => j.ring.isNone) then setJob (scramble c (((ptsJob c e).map (·.wrote)).getD [])) e none else c) m1

/-- Stop acceptance, end blocks, descriptors and jobs, and drop what no home has acknowledged. Completions of ring entries wait for the start's end. -/
def endWork (m : Chip) : Chip :=
  let m1 := m.reqs.foldl loosenReq { m with start := { m.start with phase := 6 } }
  let m2 := m.host.deferred.foldl (fun c d => (List.range d.bytes.length).foldl (fun c i => loosen c ((d.da + i) / 128) (255 * 2 ^ (8 * ((d.da + i) % 128))) (decide (128 ≤ d.bytes.length))) c) m1
  let m3 := dropMbWork (endLaunches m2)
  let m4 := [0, 1].foldl (fun c d => (descsOf c d).foldl (fun c e => conEnd c d e.1 9 noBad) c) m3
  ptsResetMask { m4 with reqs := [], resps := [] } 3

/-- A stack through a warm start: out of service by command it stays out, else it serves again when its training is verified. -/
def warmStack (q : Stack) : Stack :=
  { svc := if q.byCmd && !q.byReg then 2 else 0, byCmd := q.byCmd && !q.byReg, level := q.level, setting := q.setting, saved := q.saved, lastRefresh := q.lastRefresh,
    destroyed := q.destroyed, lostPc := q.lostPc, tests := q.tests }

/-- A port through a warm start. -/
def warmPort (m : Chip) (p : Nat) : Port := { ({} : Port) with oos := (port m p).oos && !fon m (LNKp_CFG_OOS p) }

/-- Twinning through a warm start: the pairing, the regions, the alias table and the state; an occurrence, a pairing or a command under way ends (R739). -/
def warmTwin (t : TwinState) : TwinState :=
  { t with occ := none, snap := [], imgLeft := [], img := [], pagesSent := 0, wait := none, imgAck := [], rxLines := 0, rxEnd := none, hbSeen := false, routedSeen := false,
           mb := none, handover := 0, jFrom := none, jCame := false, pairSeen := none, regionWait := [], refused := false }

/-- Line time through a warm start (R687): a module in SYSTEM whose parent's markers stop holds over, and R60 stays off while both inputs are present. -/
def warmLt (m : Chip) : Chip :=
  let m1 := if ltState m = 3 ∧ ¬ fon m TT_CTRL_ROOT then ltEnter m 4 else m
  let ext := (ltState m1 == 3 || ltState m1 == 4) && fon m1 TT_LT_STAT_LTREF_OK && fon m1 TT_LT_STAT_LTEPOCH_OK
  { m1 with lt := { m1.lt with lock := none, parent := none, fresh := true, marked := false, sent := [], heard := [], posted := false, armDue := true, extRef := ext } }

/-- The module after step 2 of a warm start (R678, R684). -/
def warmChip (m : Chip) : Chip :=
  let n := warmLt (endWork m)
  { csr := warmCsr n, ns := n.ns, freeCtr := n.freeCtr, mem := n.mem, lmeta := n.lmeta,
    buf := { cache := n.buf.cache, plru := n.buf.plru, ev := n.buf.ev, siding := n.buf.siding },
    stks := n.stks.map warmStack, reqId := n.reqId, lt := n.lt,
    rings := n.rings.map (fun e => (e.1, e.2.map (fun r => { r with target := none, waiting := false, stopped := false, badSeen := false }))),
    err := { ovf := n.err.ovf, due := n.err.due }, pwr := n.pwr, twin := warmTwin n.twin, start := { n.start with warm := true, phase := 1, update := none, updImage := [] },
    ports := (List.range 36).foldl (fun t p => tput {} p (warmPort n p) t) [],
    d2d := n.d2d.map (fun u => { ({} : D2dUnit) with map := u.map, saved := u.saved, fused := u.fused, byCmd := u.byCmd }),
    host := { hostBias := n.host.hostBias }, launchId := n.launchId, pts := { table := n.pts.table } }

/-! ### The steps (R678 to R680, R689) -/

/-- Step 3: the clocks run. -/
def clocksUp (m : Chip) : Chip := fset (fset (fset m D2D_CLK_STAT_REF_OK 1) D2D_CLK_STAT_BDS_BCLK_OK 1) D2D_CLK_STAT_CD_CLK_OK 0xFF

/-- The state of a compute die while the start runs: out by command it stays out, else its links come up. A warm start shows no die out of service that was in. -/
def stepDie (m : Chip) (d : Nat) : Chip :=
  fset m (D2D_CDd_STAT_STATE d) (if (d2dUnit m d).byCmd then 1 else if m.start.warm && dieUp m d then 0 else 3)

/-- Step 10 of a warm start, with the record's lines checked as they are used (R566, R683). -/
def verifyAll (m : Chip) : Chip :=
  let m1 := (List.range 9).foldl (fun c u =>
    let l := mapLines u
    if (List.range l.2).any (fun j => recBad m (l.1 + j)) then searchUnit c u else verifyUnit c u) m
  let m2 := (List.range 24).foldl (fun c s => if recBad m (3 + s) then modStack c s (fun q => { q with setting := [] }) else c) m1
  let m3 := if recBad m 1 then
      { m2 with stks := m2.stks.map (fun q => { q with svc := 0, byCmd := false }), d2d := m2.d2d.map (fun u => { u with byCmd := false }), ports := [] }
    else m2
  let m4 := if recBad m 2 || twinSt m3 == 1 then unpair m3 else m3
  dirtyAll m4 (List.range 32)

/-- Steps 10 to 14 begin: the siding serves, the die links are searched or verified and get their roles, every port in service is brought up. -/
def bringAll (m : Chip) : Chip :=
  let m1 := fset { m with buf := { m.buf with pathShut := (List.range 24).map (fun s => (s, true)) } } BUF_CTRL_SIDING_EN 1
  let m2 := if m.start.warm then verifyAll m1 else (List.range 9).foldl searchUnit m1
  let m3 := (List.range 8).foldl stepDie m2
  (List.range 36).foldl (fun c p => if (port c p).oos then fset (setLanes c p 15 8) (LNKp_STAT_OOS_DONE p) 1 else bringUp c p) m3

/-- Step 7: the keys, kept by a warm start whose measurement has not changed (R690). -/
def deriveKeys (b : Board) (meas : List Byte) (svn : Nat) (m : Chip) : Chip :=
  if m.start.warm && m.start.meas == meas && m.start.svn == svn then m
  else { m with start := { m.start with aliasKey := aliasKeyOf b.secret meas svn, aliasCert := aliasCertOf b.secret meas svn } }

/-- Steps 5 to 9 and the beginning of 10 to 14: the image, its checks, the keys, Mioto. With no image the boot ROM takes no further step (R677). -/
def bootImage (s : State) : State :=
  let c := chooseBank s.board s.chip.start.warm s.chip.start.lastMeas
  match c.1 with
  | none => { s with board := c.2, chip := { s.chip with start := { s.chip.start with phase := 2 } } }
  | some (k, skipped) =>
    let h := bankHeader c.2 k
    let ms := bankMeas c.2 k
    let m1 := deriveKeys c.2 ms (imgSvn h) s.chip
    let m2 := { m1 with start := { m1.start with phase := 4, running := k, svn := imgSvn h, key := imgKey h, version := nth h 4, meas := ms, lastMeas := ms, skipped := skipped } }
    { s with board := c.2, chip := bringAll (secStat c.2 (fset m2 MB_GLOBAL_READY 1)) }

/-- Steps 2 to 9 of a cold start (R678): step 4 samples the straps, and after VIN48's return waits until no die is too hot (R783, R809). -/
def coldSteps (s : State) : State :=
  let b := { s.board with slot := s.board.straps % 8 }
  let m := clocksUp (coldChip b s.chip)
  if b.hot then { s with board := b, chip := { m with start := { m.start with phase := 3 } } } else bootImage { s with board := b, chip := m }

/-- Steps 1 to 9 of a warm start, or a cold one where the header of the start record fails its check (R666). -/
def warmSteps (s : State) : State :=
  let m := (List.range 24).foldl setLevel (warmChip { s.chip with start := { s.chip.start with t0 := s.chip.ns } })
  if recBad m 0 then coldSteps { s with chip := m } else bootImage { s with chip := m }

/-- Whether a cause is heeded (R667, R668, R807): a module held in reset heeds only the release of MOD_RST_N; during a warm start only a cold cause is, and during a cold one
only MOD_RST_N. -/
def heeds (m : Chip) (cold modRst : Bool) : Bool :=
  let ph := m.start.phase
  if ph = 0 then modRst else if ph = 3 ∨ ph = 4 then (if m.start.warm then cold else modRst) else true

/-- A cause of a start (R665 to R668, R670): DEPART with REASON when the module runs; a warm start becomes a cold one when the module is role-fatal or no start has completed. -/
def startCause (s : State) (cold modRst : Bool) (reason : Nat) : State :=
  if !s.board.rails || !heeds s.chip cold modRst then s
  else
    let t := if s.chip.start.phase = 5 then sendDepart s reason else s
    if cold || s.chip.start.phase == 7 || !s.chip.start.completed then coldSteps t else warmSteps t

/-- Settle the module after a start's steps. -/
def settled (s : State) : State := if acts s then { s with chip := settle s.chip } else s

/-! ### The causes -/

/-- VIN48 comes: after a fall, which stands for its removal, the trip latch is clear, and VSB rises with its straps sampled and its registers afresh (R772, R783, R809). -/
def vinBack (b : Board) (mv : Nat) : Board :=
  if b.fell || !b.vsb then
    { b with vin := true, vinMv := mv, vsb := true, fell := false, trip := false, slot := b.straps % 8, mgmt := [b.straps % 8, 0, 0, 0, 0x40, 0x92] }
  else { b with vin := true, vinMv := mv }

/-- VIN48_RISE (R665, R668, R772, R807): a cold start begins, at once or, while MOD_RST_N is low, at its release. A latched trip starts nothing. -/
def doVin48Rise (mv : Nat) (s : State) : State :=
  let b := vinBack s.board mv
  if b.trip then { s with board := b }
  else
    let t := { s with board := { b with rails := true }, chip := Chip.off }
    if b.modRst then t else coldSteps t

/-- Meaning of VIN48_RISE: a rise into 40 to 60 V from outside that range. -/
def execVin48Rise (mv : Nat) (s : State) : Host.Outcome State Fault Refusal :=
  if !s.board.vin && decide (40000 ≤ mv) && decide (mv ≤ 60000) then .next (settled (doVin48Rise mv s)) else .next s

/-- BOOT_THERMAL_RECHECK (R783): the start goes on once every estimate is at most 110 °C. -/
def doBootThermalRecheck (temps powers : List Nat) (s : State) : State :=
  let cool := (List.range 10).all (fun d => (List.range (sensors d)).all (fun k => decide (estimate temps powers d k ≤ 110 * 256)))
  if cool then bootImage { s with board := { s.board with hot := false } } else s

/-- Meaning of BOOT_THERMAL_RECHECK. -/
def execBootThermalRecheck (temps powers : List Nat) (s : State) : Host.Outcome State Fault Refusal :=
  if s.board.rails && s.chip.start.phase == 3 then .next (settled (doBootThermalRecheck temps powers s)) else .next s

/-- MOD_RST_ASSERT (R670, R807): low for 10 µs, it holds the module in reset; a shorter level is ignored. -/
def doModRstAssert (dur : Nat) (s : State) : State :=
  let b := { s.board with modRst := true }
  if s.board.rails && decide (10000 ≤ dur) then
    let t := if s.chip.start.phase = 5 then sendDepart s 1 else s
    let m := coldChip b t.chip
    { t with board := { t.board with modRst := true }, chip := { m with start := { m.start with phase := 0 } } }
  else { s with board := b }

/-- Meaning of MOD_RST_ASSERT. -/
def execModRstAssert (dur : Nat) (s : State) : Host.Outcome State Fault Refusal := .next (doModRstAssert dur s)

/-- MOD_RST_RELEASE (R665, R667, R807): a module held in reset, or one whose VIN48 rose meanwhile, starts cold. -/
def doModRstRelease (s : State) : State :=
  let t := { s with board := { s.board with modRst := false, jtagPins := [] } }
  if s.board.modRst && s.board.rails && s.chip.start.phase == 0 then startCause t true true 1 else t

/-- Meaning of MOD_RST_RELEASE. -/
def execModRstRelease (s : State) : Host.Outcome State Fault Refusal := .next (settled (doModRstRelease s))

/-- H0_PERST_ASSERT (R808): H0 is held in reset; its data link leaves the active state, and the hold-off runs (R617). -/
def doH0PerstAssert (m : Chip) : Chip := if fon m HOST_STAT_H0_UP then h0Down (modHost m (fun h => { h with downAt := some m.ns })) else m

/-- Meaning of H0_PERST_ASSERT. -/
def execH0PerstAssert (s : State) : Host.Outcome State Fault Refusal := run { s with board := { s.board with h0Perst := true } } doH0PerstAssert

/-- Meaning of H0_PERST_RELEASE (R665, R808): a warm start. -/
def execH0PerstRelease (s : State) : Host.Outcome State Fault Refusal :=
  if s.board.h0Perst then .next (settled (startCause { s with board := { s.board with h0Perst := false } } false false 2)) else .next s

/-- Meaning of H1_PERST (R620, R808): H1's function only is reset. -/
def execH1Perst (s : State) : Host.Outcome State Fault Refusal :=
  run s (fun m => putAns (fset (fset (fset (fset m HOST_STAT_H1_UP 0) HOST_STAT_H1_SPEED 0) HOST_STAT_H1_WIDTH 0xF) HOST_STAT_H1_LOST 1) 2 (some .discarded))

/-- Note the loss of H0 (R618, step 1). -/
def h0Lost (s : State) : State := { s with chip := fset (modHost s.chip (fun h => { h with downAt := none })) HOST_STAT_H0_LOST 1 }

/-- The hold-off of H0 has passed without its link (R617). -/
def holdoffOver (m : Chip) : Bool :=
  !fon m HOST_STAT_H0_UP && m.host.downAt.any (fun t => decide (t + fget m HOST_CTRL_HOLDOFF_MS * 10 ^ 6 ≤ m.ns))

/-- Meaning of H0_HOLDOFF_EXPIRE (R617, R618, R621): H0 is lost; unless LOSS_STAY is 1, DEPART with REASON 0 and a warm start. -/
def execH0HoldoffExpire (s : State) : Host.Outcome State Fault Refusal :=
  if acts s && holdoffOver s.chip then
    .next (settled (if fon s.chip HOST_CTRL_LOSS_STAY then h0Lost s else startCause (h0Lost s) false false 0))
  else .next s

/-- Meaning of H0_HOT_RESET (R619): the steps of R618 at once, with REASON 2. -/
def execH0HotReset (s : State) : Host.Outcome State Fault Refusal :=
  if s.board.rails && s.chip.start.phase != 0 then .next (settled (startCause (h0Lost { s with chip := if fon s.chip HOST_STAT_H0_UP then h0Down s.chip else s.chip }) false false 2)) else .next s

/-- Meaning of MIOTO_WATCHDOG_EXPIRE (R665, R669): a running Mioto has not restarted its watchdog. -/
def execMiotoWatchdogExpire (s : State) : Host.Outcome State Fault Refusal :=
  if s.board.rails && decide (4 ≤ s.chip.start.phase) then .next (settled (startCause s false false 2)) else .next s

/-! ### STATE READY (R679, R680, R682, R701) -/

/-- A compute die at the end of steps 10 and 11: in service when it has formed a channel. -/
def dieEnd (dies : Nat) (m : Chip) (d : Nat) : Chip :=
  if (d2dUnit m d).byCmd then fset m (D2D_CDd_STAT_STATE d) 1
  else if tb dies d && dieFormed m d && tb (fget m D2D_CLK_STAT_CD_CLK_OK) d then fset m (D2D_CDd_STAT_STATE d) 0
  else notice (fset m (D2D_CDd_STAT_STATE d) 1) 5 [d + 3 * 2 ^ 8]

/-- A stack at the end of step 12, and of 13 at a cold start: in service when it has trained. -/
def stackEnd (stk : Nat) (m : Chip) (s : Nat) : Chip :=
  if (stack m s).byCmd then fset m (HBMs_STAT_OOS_DONE s) 1 else
    let m1 := if tb stk s then fset m (HBMs_STAT_OOS_DONE s) 0 else m
    modStack m1 s (fun q => { q with svc := if tb stk s then 0 else 2, saved := tb stk s })

/-- A port at the end of step 14: one that reached no lane is down. -/
def portEnd (ports : Nat) (m : Chip) (p : Nat) : Chip :=
  if tb ports p || (port m p).oos || linkActive m p then m else notice (linkDown m p) 3 [p + fget m (LNKp_STAT_RATE p) * 65536]

/-- Complete what the rings are owed (R644). -/
def payOwed (m : Chip) : Chip :=
  m.start.owed.foldl (fun c o => match o.2 with
    | some r => putCompletion c o.1 r.1 r.2
    | none => ringDone c o.1) { m with start := { m.start with owed := [] } }

/-- START_READY: the concurrent steps have ended, with the stacks that trained, the ports that reached a lane and the dies that formed a channel. -/
def doStartReady (stk ports dies : Nat) (m : Chip) : Chip :=
  let m1 := (List.range 24).foldl (stackEnd stk) ((List.range 8).foldl (dieEnd dies) { m with buf := { m.buf with pathShut := [] } })
  let m2 := (List.range 36).foldl (portEnd ports) m1
  let m3 := if m2.buf.siding.all (·.isEmpty) then fset m2 BUF_CTRL_SIDING_EN 0 else m2
  let m4 := bump (fset { m3 with start := { m3.start with phase := 5, completed := true } } SEC_START_LT_LT (elapsed m3 m3.start.t0))
    (if m3.start.warm then SEC_WARM_CTR else SEC_COLD_CTR) 1
  writeRecord (payOwed m4)

/-- Meaning of START_READY: Mioto sets STATE READY, and the start log takes the start. -/
def execStartReady (stk ports dies : Nat) (s : State) : Host.Outcome State Fault Refusal :=
  if acts s && s.chip.start.phase == 4 then
    .next (settled { s with chip := doStartReady stk ports dies s.chip, board := { s.board with startLog := s.board.startLog ++ [b2n s.chip.start.warm] } })
  else .next s

/-! ### SYS commands -/

/-- SYS.SIZE (R43): the whole table as one snapshot, brought up to date first. -/
def doSysSize (i : Nat) (_ : List Nat) (m : Chip) : Chip :=
  let m1 := sizeRefresh m
  respond m1 i 0 ((List.range 21).map (fun k => csr m1 (0x400 + 4 * k)))

/-- Meaning of SYS_SIZE. -/
def execSysSize (i : Nat) (s : State) : Host.Outcome State Fault Refusal := runCmd s i 0x0101 (doSysSize i)

/-- SYS.IDENT (R660). -/
def doSysIdent (b : Board) (i : Nat) (m : Chip) : Chip :=
  respond m i 0 ([0x1F3D9240, 0x41300000] ++ bytesWords (fit 16 0#8 b.serial) ++ [m.start.version, m.start.svn])

/-- Meaning of SYS_IDENT. -/
def execSysIdent (i : Nat) (s : State) : Host.Outcome State Fault Refusal := runCmd s i 0x0102 (fun _ => doSysIdent s.board i)

/-- STATE of SYS.STATE: 0 STARTING, 1 READY, 2 DEPARTING while a handover proceeds. -/
def sysStateCode (m : Chip) : Nat := if m.start.phase ≠ 5 then 0 else if m.twin.handover = 0 then 1 else 2

/-- SYS.STATE (R660). -/
def doSysState (i : Nat) (_ : List Nat) (m : Chip) : Chip :=
  respond m i 0 ([sysStateCode m * 2 ^ 28 + b2n m.start.warm * 2 ^ 24 + ltState m, gatesWaiting m * 2 ^ 16 + launchesActive m] ++ lohi (maskN 64 (fun n => (ring m n).isSome)))

/-- Meaning of SYS_STATE. -/
def execSysState (i : Nat) (s : State) : Host.Outcome State Fault Refusal := runCmd s i 0x0103 (doSysState i)

/-- SYS.RESET (R660, R665): the other mailboxes' commands complete with ABORTED, then this one with OK; READY falls and the start begins. During a start that R667 or
R668 does not end it only answers. -/
def doSysReset (i : Nat) (p : List Nat) (s : State) : State :=
  let cold := bitsN (nth p 0) 31 28 == 1
  if heeds s.chip cold false then
    let m1 := (List.range 4).foldl (fun c j => if j ≠ i ∧ (mbRun c j).isSome then fail c j 6 else c) s.chip
    startCause { s with chip := fset (respond m1 i 0 []) MB_GLOBAL_READY 0 } cold false (if cold then 1 else 2)
  else { s with chip := respond s.chip i 0 [] }

/-- Meaning of SYS_RESET. -/
def execSysReset (i : Nat) (s : State) : Host.Outcome State Fault Refusal :=
  if acts s && cmdReady s.chip i 0x0106 then .next (settled (doSysReset i (cmdPay s.chip i) s)) else run s id

end Sys2Proof.Machine
end

