-- ==== Sys2Proof/Machine/Board.lean ====
section
/-! DEFINITION. The management bus and the test access port (R806, R811 to R815). -/

namespace Sys2Proof.Machine

/-! ### The management bus -/

/-- The responder's 7-bit address (R811). -/
def smbAddr (b : Board) : Nat := 0x58 + b.slot % 8

/-- The responder is addressed and VSB is present. -/
def smbHears (b : Board) (addr : Nat) : Bool := b.vsb && addr == smbAddr b

/-- A byte register of the responder; other offsets read 0 (R812). -/
def mgmtByte (s : State) (off : Nat) : Nat := (mgmtNow s).getD off 0

/-- SMB_READ (R811, R812): Read Byte, or Read Word with the byte at the offset low. -/
def doSmbRead (addr off : Nat) (word : Bool) (s : State) : State :=
  let v := mgmtByte s off + (if word then 256 * mgmtByte s (off + 1) else 0)
  { s with board := { s.board with smbOut := if smbHears s.board addr then some v else none } }

/-- Meaning of SMB_READ. -/
def execSmbRead (addr off : Nat) (word : Bool) (s : State) : Host.Outcome State Fault Refusal := .next (doSmbRead addr off word s)

/-- SMB_WRITE (R811): acknowledged and ignored; the answer 0 stands for the acknowledgement. -/
def doSmbWrite (addr : Nat) (s : State) : State :=
  { s with board := { s.board with smbOut := if smbHears s.board addr then some 0 else none } }

/-- Meaning of SMB_WRITE. -/
def execSmbWrite (addr _off _val : Nat) (s : State) : Host.Outcome State Fault Refusal := .next (doSmbWrite addr s)

/-- SMB_ALERT_N is low: SHUTDOWN, BOOT_FAIL or FATAL is 1 (R813). -/
def smbAlert (s : State) : Bool := let w := mgmtByte s 0; tb w 7 || tb w 6 || tb w 4

/-- SMB_ALERT_RESPONSE (R813): the responder answers with its own address while it drives the alert. -/
def doSmbAlertResponse (s : State) : State :=
  { s with board := { s.board with smbOut := if s.board.vsb && smbAlert s then some (smbAddr s.board) else none } }

/-- Meaning of SMB_ALERT_RESPONSE. -/
def execSmbAlertResponse (s : State) : Host.Outcome State Fault Refusal := .next (doSmbAlertResponse s)

/-! ### The test access port -/

/-- What TDO shows and the levels that EXTEST drives; while VIN48 is absent TDO is high-impedance (R806). -/
def tapOut (s : State) (tdo pins : List Bool) : State :=
  { s with board := { s.board with tdo := if s.board.vin then tdo else [], jtagPins := if s.board.vin then pins else [] } }

/-- BYPASS: one bit of delay, and no land driven. -/
def tapBypass (s : State) (bits : List Bool) : State := tapOut s ((false :: bits).take bits.length) []

/-- Meaning of JTAG_BYPASS. -/
def execJtagBypass (bits : List Bool) (s : State) : Host.Outcome State Fault Refusal := .next (tapBypass s bits)

/-- The bits of a number, least significant first. -/
def bitList (n v : Nat) : List Bool := (List.range n).map (tb v)

/-- Meaning of JTAG_IDCODE (R814). -/
def execJtagIdcode (s : State) : Host.Outcome State Fault Refusal := .next (tapOut s (bitList 32 0x0924027B) [])

/-- Meaning of JTAG_SAMPLE: the levels of the signal lands. -/
def execJtagSample (pins : List Bool) (s : State) : Host.Outcome State Fault Refusal := .next (tapOut s pins [])

/-- Meaning of JTAG_EXTEST (R814, R815): while MOD_RST_N is low it drives the signal lands, else it acts as BYPASS. -/
def execJtagExtest (pins : List Bool) (s : State) : Host.Outcome State Fault Refusal :=
  .next (if s.board.modRst then tapOut s s.board.tdo pins else tapBypass s pins)

/-- Meaning of JTAG_FLASH_PROG (R814, R815): while READY is 0 it writes an image bank, else it acts as BYPASS. -/
def execJtagFlashProg (bank_ off : Nat) (data : List Byte) (s : State) : Host.Outcome State Fault Refusal :=
  .next (if fget s.chip MB_GLOBAL_READY = 0 then
      (if s.board.vin && decide (bank_ < 2) then { s with board := putBank { s.board with jtagPins := [] } bank_ off data } else s)
    else tapBypass s (data.flatMap (fun b => bitList 8 b.toNat)))

end Sys2Proof.Machine
end

