-- ==== Sys2Proof/Machine/Epoch.lean ====
section
/-! DEFINITION. The epoch boundary: the housekeeping round and Mioto's default rows (R65, R79, R92, R444, R792, R826). -/

namespace Sys2Proof.Machine

/-! ### Mioto's default rows (R92, R826) -/

/-- Numbers below n that satisfy p, each with its place among them. -/
def placed (xs : List Nat) (p : Nat → Bool) : List (Nat × Nat) := ((xs.filter p).zipIdx).map (fun (e : Nat × Nat) => (e.2, e.1))

/-- The stacks in the order of R826: HS0, HS12, HS1, HS13 and so on. -/
def trainOrder : List Nat := (List.range 24).map (fun i => i / 2 + 12 * (i % 2))

/-- The first epoch, counted from E0 + 1, that an earlier stack of the same base die does not hold; done lists (stack, epoch). -/
def trainEpoch (done : List (Nat × Nat)) (s : Nat) : Nat → Nat → Nat
  | 0, e => e
  | n + 1, e => if done.any (fun q => q.1 / 12 == s / 12 && q.2 == e) then trainEpoch done s n (e + 1) else e

/-- The epoch, counted from E0 + 1, of the first training of each stack in service. -/
def trainPlan (m : Chip) : List (Nat × Nat) :=
  let us := placed trainOrder (stackUp m)
  us.foldl (fun (done : List (Nat × Nat)) (u : Nat × Nat) => done ++ [(u.2, trainEpoch done u.2 24 (u.1 * 16 / us.length))]) []

/-- The words of the default rows posted at the boundary of epoch e0. -/
def defaultRows (m : Chip) (e0 : Nat) : List (List Nat) :=
  let at_ (e off : Nat) : Nat := (e0 + 1 + e) * 2 ^ 20 + off
  let dies := placed (List.range 8) (dieUp m)
  let up := (List.range 24).filter (stackUp m)
  up.map (fun s => miotoWords 4 0 (at_ 0 (640 * s)) 48 256 0 0 2 s) ++
  (List.range 36).map (fun i => miotoWords 5 1 (at_ (i * 64 / 36) 0x10000) 64 (64 * 16384) 0 75 1 i) ++
  dies.map (fun d => miotoWords 5 3 (at_ (d.1 * 256 / dies.length) 0x10000) 64 (256 * 16384) 0 50 3 d.2) ++
  [miotoWords 5 4 (at_ 0 0x10000) 64 (256 * 16384) 0 75 4 0] ++
  (trainPlan m).map (fun q => miotoWords 5 5 (at_ q.2 (640 * q.1 + 4096)) 128 (16 * 16384) 0 75 2 q.1) ++
  [miotoWords 6 0 (e0 * 2 ^ 20 + 0x80000) 1 16384 0 0 0 0]

/-- MIOTO_DEFAULT_ROWS_POST: at the first epoch in SYSTEM all of them; later the rows of a stack that returned meanwhile (R464). -/
def postDefaults (m : Chip) : Chip :=
  if ltState m ≠ 3 then m
  else if m.lt.posted then
    (List.range 24).foldl (fun c s => if (stack c s).rowsDue && stackUp c s then postStackRows (modStack c s (fun q => { q with rowsDue := false })) s else c) m
  else
    let m1 := { m with lt := { m.lt with posted := true } }
    (defaultRows m (now m / 2 ^ 20)).foldl postMioto ((List.range 24).foldl (fun c s => modStack c s (fun q => { q with rowsDue := false })) m1)

/-! ### The boundary -/

/-- LT has entered an epoch whose boundary has not been acted on. -/
def epochDue (m : Chip) : Bool := now m / 2 ^ 20 != m.lt.hkEpoch

/-- A new epoch: each triple of errors has its record again (R755), and a hand-off that did not fail starts anew (R770). -/
def newEpoch (m : Chip) : Chip :=
  auditEpoch { m with err := { m.err with ce := m.err.ce.filterMap (fun e => if e.2 / 2 = 0 then none else some (e.1, e.2 / 2 * 2)) } }

/-- The audits of the snapshot (R380, R423, R533, R559, R767), and the dies whose check is brought forward (R570). -/
def auditAll (m : Chip) : Chip := parityEpoch (d2dAuditEpoch (linkEpoch (ptsAuditEpoch (conAuditEpoch m))))

/-- EPOCH_BOUNDARY (R65). Mioto's rows and ARM come after STATE READY (R79, R678). -/
def doEpochBoundary (m : Chip) : Chip :=
  let mark (c : Chip) : Chip := { c with lt := { c.lt with hkEpoch := now c / 2 ^ 20 } }
  if m.start.phase < 4 then mark (ltEpoch (mark m))
  else
    let m1 := mark (ltEpoch (mark (auditAll (newEpoch m))))
    let m2 := if m1.start.phase = 5 then postDefaults (armSet m1) else m1
    powerEpoch (twinEpoch m2)

/-- Meaning of EPOCH_BOUNDARY. -/
def execEpochBoundary (s : State) : Host.Outcome State Fault Refusal := runIf s epochDue doEpochBoundary

end Sys2Proof.Machine
end

