-- ==== Sys2Proof/Machine/Expand.lean ====
section
/-! DEFINITION. Acceptance and waiting of consist descriptors, the packed stream, fragment images, and the Expand engines (R336 to R338, R353 to R366). -/

namespace Sys2Proof.Machine

/-! ### Acceptance and waiting -/

/-- The base die of a consist ring's KIND: 2 BD-N, 3 BD-S. -/
def ringDie (m : Chip) (n : Nat) : Nat := ringKind m n - 2

/-- A consist ring has an entry and its die accepts one (R333). -/
def conWants (m : Chip) (n : Nat) : Bool := ringWants m n && (ringKind m n == 2 || ringKind m n == 3) && conOpen m (ringDie m n)

/-- An accepted entry of a consist ring. -/
def conTake (n seq : Nat) (w : List Nat) (m : Chip) : Chip := conAccept m (ringDie m n) (some n) seq w

/-- CON_DESCRIPTOR_ACCEPT (R333, R336). -/
def doConDescriptorAccept (n : Nat) (m : Chip) : Chip := ringRead m n (fun _ => true) (conTake n)

/-- Meaning of CON_DESCRIPTOR_ACCEPT. -/
def execConDescriptorAccept (ring : Nat) (s : State) : Host.Outcome State Fault Refusal := runIf s (fun m => conWants m ring) (doConDescriptorAccept ring)

/-- CON_WAIT_POLL (R337, R825): the first bad read makes the descriptor's one record; a good read that meets the condition starts it. -/
def doConWaitPoll (d id : Nat) (m : Chip) : Chip :=
  match desc m d id with
  | none => m
  | some x =>
    match dWait x.w with
    | none => m
    | some a =>
      if !deviceReady m a 4 then flipRange m a 4 else
      let r := loadWord m a false
      match r.2.1 with
      | some (ln, g) => if x.polled then r.2.2 else recFate (modDesc r.2.2 d id (fun x => { x with polled := true })) 5 d (ownDesc x) 0 ln g
      | none => if nth x.w 11 ≤ r.1 then conStart r.2.2 d id else r.2.2

/-- Meaning of CON_WAIT_POLL. -/
def execConWaitPoll (die id : Nat) (s : State) : Host.Outcome State Fault Refusal :=
  runIf s (fun m => (desc m die id).any (fun x => !x.run)) (doConWaitPoll die id)

/-- The wait has lasted its limit (R338). -/
def conLate (m : Chip) (d id : Nat) : Bool := (desc m d id).any (fun x => !x.run && decide (x.t0 + 2 ^ fget m CON_CTRL_WAIT_LOG2 ≤ m.ns))

/-- CON_WAIT_TIMEOUT (R338). -/
def doConWaitTimeout (d id : Nat) (m : Chip) : Chip := conEnd m d id 8 noBad

/-- Meaning of CON_WAIT_TIMEOUT. -/
def execConWaitTimeout (die id : Nat) (s : State) : Host.Outcome State Fault Refusal := runIf s (fun m => conLate m die id) (doConWaitTimeout die id)

/-! ### The packed stream (R354 to R361) -/

/-- Bits of a stored element: FP6 elements are packed (R358). -/
def storedBits (f : Nat) : Nat := if f = 6 ∨ f = 7 then 6 else fmtBits f

/-- Decode a zero-run coded section (R359): none when a token overruns it. -/
def zrcDecode : Nat → List Byte → Option (List Byte)
  | 0, bs => if bs = [] then some [] else none
  | _ + 1, [] => some []
  | n + 1, t :: r =>
    if t.toNat < 128 then
      (if r.length < 4 * (t.toNat + 1) then none else (zrcDecode n (r.drop (4 * (t.toNat + 1)))).map (r.take (4 * (t.toNat + 1)) ++ ·))
    else (zrcDecode n r).map (List.replicate (4 * (t.toNat - 127)) 0#8 ++ ·)

/-- A record as it was read: LENGTH in bytes, the tile map, and its sections with the values decoded. -/
structure Record where
  length : Nat
  map : Nat
  scales : List Byte
  metas : List Byte
  values : List Byte
  deriving DecidableEq, Repr

/-- Bytes per stored tile of the SCALES, META and VALUES sections (R357). -/
def tileBytes (w : List Nat) : Nat × Nat × Nat :=
  let f := sparseF (dSparse w)
  (if (dClass w).mx then 32 else 0, if dSparse w = 0 then 0 else 256 / f, 1024 / f * storedBits (dFmt w) / 8)

/-- Tiles of a wagon: F_w × K_l ÷ 32. -/
def wagonTiles (w : List Nat) : Nat := fragsPer (dClass w) * (mmaKl (dClass w) (dSparse w) / 32)

/-- Parse a record of wagon idx (R354 to R360); none when it breaks a rule. bs starts at the record. -/
def parseRecord (w : List Nat) (idx : Nat) (bs : List Byte) : Option Record :=
  let h := bytesWords (bs.take 16)
  let len := 16 * bitsN (nth h 0) 31 20
  let vb := bitsN (nth h 2) 15 0
  let zrc := tb (nth h 0) 19
  let n := popN 32 (nth h 1)
  let t := tileBytes w
  let at_ := 16 + n * t.1 + n * t.2.1
  let raw := (bs.drop at_).take (if zrc then vb else n * t.2.2)
  let metas := (bs.drop (16 + n * t.1)).take (n * t.2.1)
  if h.length < 4 ∨ bitsN (nth h 0) 18 16 ≠ 0 ∨ bitsN (nth h 0) 15 0 ≠ idx % 65536 ∨ bitsN (nth h 2) 31 16 ≠ 0 ∨ nth h 3 ≠ 0 ∨ 2 ^ wagonTiles w ≤ nth h 1 ∨
     len < at_ + vb ∨ len < at_ + raw.length ∨ bs.length < len ∨ metas.any (fun b => metaBad (dSparse w) b.toNat) then none
  else
    match if zrc then zrcDecode raw.length raw else some raw with
    | none => none
    | some v => if v.length = n * t.2.2 then some ⟨len, nth h 1, (bs.drop 16).take (n * t.1), metas, v⟩ else none

/-- The last record ends within line PARAM of the stream (R361). start is the byte at which the record begins. -/
def lastOk (w : List Nat) (idx start len : Nat) : Bool :=
  idx + 1 != dWagons w || (decide ((dParam w - 1) * 128 < start + len) && decide (start + len ≤ dParam w * 128))

/-! ### Fragment images (R362, R363) -/

/-- FP6 elements unpacked from groups of four in three bytes to one byte each (R358). -/
def unpackSix : Nat → List Byte → List Byte
  | 0, _ => []
  | n + 1, bs =>
    let v := leNat (bs.take 3)
    ((List.range 4).map (fun i => BitVec.ofNat 8 (v / 2 ^ (6 * i) % 64))) ++ unpackSix n (bs.drop 3)

/-- The A bytes of row r of stored tile k. -/
def tileRow (w : List Nat) (rec_ : Record) (k r : Nat) : List Byte :=
  let rb := (tileBytes w).2.2 / 32
  let bs := (rec_.values.drop ((32 * k + r) * rb)).take rb
  if storedBits (dFmt w) = 6 then unpackSix (rb / 3) bs else bs

/-- The place of tile n among the stored tiles, if it is stored. -/
def storedAt (map n : Nat) : Option Nat := if tb map n then some (popN n map) else none

/-- The image of fragment f of a wagon (R362, R363). -/
def fragImage (w : List Nat) (rec_ : Record) (f : Nat) : List Byte :=
  let c := dClass w
  let cols := mmaKl c (dSparse w) / 32
  let sp := dSparse w
  let rowA := c.kd * c.abits / 8 / cols
  let rowM := (tileBytes w).2.1 / 32
  let each (g : Nat → Nat → List Byte) : List Byte := (List.range 32).flatMap (fun r => (List.range cols).flatMap (fun t => g r (f * cols + t)))
  let a := each (fun r t => match storedAt rec_.map t with
    | some k => tileRow w rec_ k r
    | none => List.replicate rowA 0#8)
  let me := each (fun r t => match storedAt rec_.map t with
    | some k => (rec_.metas.drop ((32 * k + r) * rowM)).take rowM
    | none => List.replicate rowM (if sp = 1 then 0x33#8 else if sp = 2 then 0x0F#8 else 0#8))
  let sc := if c.mx then each (fun r t => match storedAt rec_.map t with
    | some k => [rec_.scales.getD (32 * k + r) 0#8]
    | none => [0x7F#8]) else []
  a ++ me ++ fit (cdiv sc.length 128 * 128) 0#8 sc

/-- Bytes as lines. -/
def linesOf (bs : List Byte) : List (List Byte) := (List.range (bs.length / 128)).map (fun i => (bs.drop (128 * i)).take 128)

/-- The fragments of a wagon with at least one stored tile (R364). -/
def liveFrags (w : List Nat) (map : Nat) : List Nat :=
  let cols := mmaKl (dClass w) (dSparse w) / 32
  (List.range (fragsPer (dClass w))).filter (fun f => bitsN map ((f + 1) * cols - 1) (f * cols) != 0)

/-- The writes of an expanded wagon: its images and its bits of the fragment map (R364, R365, R367). -/
def expandOps (w : List Nat) (idx : Nat) (rec_ : Record) : List StageOp :=
  let fr := liveFrags w rec_.map
  let base (f : Nat) : Nat := dDst w / 128 + (fragsPer (dClass w) * idx + f) * (imageBytes (dClass w) (dSparse w) / 128)
  (fr.flatMap (fun f => ((linesOf (fragImage w rec_ f)).zipIdx).map (fun l => (⟨base f + l.2, 0, goodLine l.1⟩ : StageOp)))) ++
  mapOps (dAux w / 128) (fr.map (fun f => fragsPer (dClass w) * idx + f))

/-! ### Engines (R366) -/

/-- Engine e of die d is idle. -/
def engineIdle (m : Chip) (d e : Nat) : Bool := !(conDie m d).wagons.any (fun w => w.st == 2 && w.engine == e)

/-- The oldest whole EXPAND wagon that no engine has. -/
def expandNext (m : Chip) (d : Nat) : Option Wagon := (conDie m d).wagons.find? (fun w => w.st == 1 && (desc m d w.desc).any (fun x => dOp x.w == 1))

/-- The bytes of a wagon from its record on. -/
def wagonBytes (w : Wagon) : List Byte := ((List.range w.want).flatMap (fun i => (gotLine w i).data)).drop w.off

/-- EXPAND_WAGON (R360, R361, R366): parse and expand, or fail with CON_FORMAT. -/
def doExpandWagon (d e : Nat) (m : Chip) : Chip :=
  match expandNext m d with
  | none => m
  | some w =>
    match desc m d w.desc with
    | none => m
    | some x =>
      match (parseRecord x.w w.idx (wagonBytes w)).filter (fun r => lastOk x.w w.idx ((w.src - dSrc x.w / 128) * 128 + w.off) r.length) with
      | some r => modWagon m d w.id (fun v => { v with st := 2, engine := e, todo := expandOps x.w w.idx r })
      | none => conMove (conEnd (bump m CON_FORMAT_CTR 1) d w.desc 3 w.idx) d

/-- Meaning of EXPAND_WAGON: on the lowest idle engine. -/
def execExpandWagon (die engine : Nat) (s : State) : Host.Outcome State Fault Refusal :=
  runIf s (fun m => firstIdx 64 (engineIdle m die) == some engine) (doExpandWagon die engine)

/-- EXPAND_HAND (R366): Stage grants a tablet and the engine is idle again. -/
def doExpandHand (d e : Nat) (m : Chip) : Chip :=
  match (conDie m d).wagons.find? (fun w => w.st == 2 && w.engine == e) with
  | some w => if 0 < tabOf m d 2 ∧ ¬ reclaiming m d 2 then fetchIssue (handWagon m d w w.todo) d else m
  | none => m

/-- Meaning of EXPAND_HAND. -/
def execExpandHand (die engine : Nat) (s : State) : Host.Outcome State Fault Refusal := run s (doExpandHand die engine)

end Sys2Proof.Machine
end

