-- ==== Sys2Proof/Machine/Reread.lean ====
section
/-! DEFINITION. The reading again of a stale ring entry (R614). -/

namespace Sys2Proof.Machine

/-- The ring's reader waits on a stale entry. -/
def ringStalled (m : Chip) (n : Nat) : Bool := (ring m n).any (fun r => r.waiting && !r.stopped)

/-- RING_ENTRY_REREAD (R614): the reader of the ring's KIND reads the entry again, when it may take one. -/
def doRingEntryReread (n : Nat) (m : Chip) : Chip :=
  if ringKind m n = 1 then (if launchWants m n then doLaunchAccept n m else m)
  else if ringKind m n ≤ 3 then (if conWants m n then doConDescriptorAccept n m else m)
  else if ptsOpen m (ringKind m n - 4) && ringWants m n then ringRead m n (fun _ => true) (ptsTake n)
  else m

/-- Meaning of RING_ENTRY_REREAD. -/
def execRingEntryReread (n : Nat) (s : State) : Host.Outcome State Fault Refusal := runIf s (fun m => ringStalled m n) (doRingEntryReread n)

end Sys2Proof.Machine
end

