-- ==== Sys2Proof/Machine/Sched.lean ====
section
/-! DEFINITION. TT.SCHEDULE and the collective templates (R84 to R86, R94, R549 to R552, R662, R726). -/

namespace Sys2Proof.Machine

/-! ### The request (R662) -/

/-- TEMPLATE. -/
def schTemplate (p : List Nat) : Nat := bitsN (nth p 0) 31 28
/-- OP. -/
def schOp (p : List Nat) : Nat := bitsN (nth p 0) 27 24
/-- DTYPE. -/
def schType (p : List Nat) : Nat := bitsN (nth p 0) 23 20
/-- LATE is NEXT: the first phase has spill rows. -/
def schNext (p : List Nat) : Bool := !tb (nth p 0) 19
/-- TAG_BASE. -/
def schTag (p : List Nat) : Nat := bitsN (nth p 0) 15 0
/-- The start in slot units. -/
def schStart (p : List Nat) : Nat := nth p 1 + nth p 2 * 2 ^ 32
/-- BYTES. -/
def schBytes (p : List Nat) : Nat := nth p 3
/-- An address of the request: 4 SRC, 6 DST, 8 READY, 11 COMPLETION, 13 DONE, 15 WORK. -/
def schDa (p : List Nat) (i : Nat) : Nat := parDa p i
/-- The slot-unit capacity of R550. -/
def schUnit (p : List Nat) : Nat := let u := bitsN (nth p 17) 15 0; if u = 0 then 6400 else u
/-- POS_COUNT. -/
def schPos (p : List Nat) : Nat := bitsN (nth p 18) 28 16
/-- CAP. -/
def schCap (p : List Nat) : Nat := bitsN (nth p 18) 15 0
/-- ROW_BYTES. -/
def schRow (p : List Nat) : Nat := nth p 19
/-- The template is an all-to-all. -/
def schExchange (p : List Nat) : Bool := decide (5 ≤ schTemplate p)
/-- The template spans the system. -/
def schSystem (p : List Nat) : Bool := schTemplate p == 4 || schTemplate p == 6

/-! ### Steps -/

/-- One contribution of a step: its kind (1 SLOT, 3 EXCHANGE), ports, bytes of the row, source, destination module and DA, and an EXCHANGE row's phase list. -/
structure Send where
  kind : Nat := 1
  ports : List Nat
  bytes : Nat
  src : Nat
  dest : Nat := 0
  dst : Nat := 0
  list : List (List Nat) := []
  deriving DecidableEq, Repr

/-- One receive window of a step: EXPECTED, its range, the bytes that make a source whole, the own part, and the placements at its close. -/
structure Recv where
  expected : Nat
  dst : Nat
  bytes : Nat
  share : Nat := 0
  own : Option (Nat × Nat × Nat) := none
  moves : List (List (Nat × Nat × Nat)) := []
  deriving DecidableEq, Repr

/-- A step of a template: what it sends and receives, its operation, its window and guard in slot units (R550, R551). -/
structure SchStep where
  sends : List Send
  recvs : List Recv
  op : Nat := 0
  dtype : Nat := 0
  len : Nat
  guard : Nat
  deriving DecidableEq, Repr

/-- Slot units that carry a number of bytes on a port; a vector takes at least one. -/
def unitsFor (p : List Nat) (bytes : Nat) : Nat := max (cdiv bytes (schUnit p)) (b2n (schBytes p != 0))

/-- Bytes of the fullest of n ports that carry some bytes. -/
def portShare (bytes n : Nat) : Nat := portLines (bytes / 128) n 0 * 128

/-- The holder of the member at a slot of a station. -/
def member (m : Chip) (station slot : Nat) : Nat := holderOf m (station * 8 + slot)

/-- The other slots of the station. -/
def others (m : Chip) : List Nat := (List.range 8).filter (· != slotNum m)

/-! ### Templates 1 to 4 -/

/-- The mesh reduce-scatter: shard j goes to slot j, and the own part joins at the close. -/
def meshScatter (m : Chip) (p : List Nat) : SchStep :=
  let s := schBytes p / 8
  let own := slotNum m * s
  { sends := (others m).map (fun j => { ports := meshTo m j, bytes := s, src := schDa p 4 + j * s, dest := member m (stationNum m) j, dst := schDa p 6 + j * s }),
    recvs := [{ expected := 7, dst := schDa p 6 + own, bytes := s, own := some (schDa p 4 + own, schDa p 6 + own, s) }],
    op := schOp p, dtype := schType p, len := unitsFor p (portShare s 3), guard := 16 }

/-- The mesh all-gather: the own shard goes to every slot. Alone it takes the shard from the source, else from the result. -/
def meshGather (m : Chip) (p : List Nat) (alone : Bool) : SchStep :=
  let s := schBytes p / 8
  let own := slotNum m * s
  { sends := (others m).map (fun j =>
      { ports := meshTo m j, bytes := s, src := schDa p (if alone then 4 else 6) + own, dest := member m (stationNum m) j, dst := schDa p 6 + own }),
    recvs := [{ expected := 7, dst := schDa p 6, bytes := 8 * s, share := s, own := if alone then some (schDa p 4 + own, schDa p 6 + own, s) else none }],
    len := unitsFor p (portShare s 3), guard := 16 }

/-- The chunk of a ring that the module holds when its reduce-scatter is over (R549). -/
def heldChunk (dir c n : Nat) : Nat := if dir = 0 then (c + 1) % n else (c + n - 1) % n

/-- The part of the shard that a direction handles after dimensions below d: offset and length. The + direction has the first half. -/
def ringPart (m : Chip) (p : List Nat) (dir d : Nat) : Nat × Nat :=
  (List.range d).foldl (fun (a : Nat × Nat) (k : Nat) =>
    let n := dimSize m k
    (a.1 + heldChunk dir (coord (stationNum m) k) n * (a.2 / n), a.2 / n)) (dir * (schBytes p / 16), schBytes p / 16)

/-- The chunks of a ring step: the one sent and the one received. -/
def ringChunks (gather : Bool) (dir c s n : Nat) : Nat × Nat :=
  let fwd (k : Nat) : Nat := (c + k) % n
  let back (k : Nat) : Nat := (c + n - k % n) % n
  match gather, dir with
  | false, 0 => (back s, back (s + 1))
  | false, _ => (fwd s, fwd (s + 1))
  | true, 0 => (fwd (1 + n - s % n), back s)
  | true, _ => (back (1 + n - s % n), fwd s)

/-- A step of a ring reduce-scatter or all-gather on a dimension (R549). -/
def ringStep (m : Chip) (p : List Nat) (d : Nat) (gather : Bool) (s : Nat) : SchStep :=
  let n := dimSize m d
  let c := coord (stationNum m) d
  let base := schDa p 6 + slotNum m * (schBytes p / 8)
  let len := schBytes p / 16 / ((List.range (d + 1)).map (dimSize m)).foldl (· * ·) 1
  let at_ (dir chunk : Nat) : Nat := base + (ringPart m p dir d).1 + chunk * len
  { sends := [0, 1].map (fun dir =>
      let x := (ringChunks gather dir c s n).1
      { ports := torusPorts d dir, bytes := len, src := at_ dir x, dest := member m (stationStep m (stationNum m) d dir) (slotNum m), dst := at_ dir x }),
    recvs := [0, 1].map (fun dir => { expected := 1, dst := at_ dir (ringChunks gather dir c s n).2, bytes := len }),
    op := if gather then 0 else schOp p, dtype := if gather then 0 else schType p, len := unitsFor p (portShare len 2), guard := 32 }

/-- The steps of a ring on a dimension. -/
def ringSteps (m : Chip) (p : List Nat) (d : Nat) (gather : Bool) : List SchStep := (List.range (dimSize m d - 1)).map (ringStep m p d gather)

/-! ### Templates 5 and 6: what lies where -/

/-- The valid experts whose POS lies in the send area: POS and HOME, by ascending POS. -/
def schHomes (m : Chip) (p : List Nat) : List (Nat × Nat) :=
  let es := (List.range 4096).filterMap (fun e => if tb (expert m e) 31 && decide (posOf m e < schPos p) then some (posOf m e, bitsN (expert m e) 26 16) else none)
  (List.range (schPos p)).filterMap (fun k => es.find? (fun e => e.1 == k))

/-- A module is a member: of the station, or of the system. -/
def isMember (m : Chip) (p : List Nat) (d : Nat) : Bool := if schSystem p then inSystem m (d / 8) else d / 8 == stationNum m

/-- The members, ascending. -/
def schMembers (m : Chip) (p : List Nat) : List Nat := (List.range 2048).filter (isMember m p)

/-- The slot block of one source for one local expert of a module: source, module, local expert. -/
abbrev Item := Nat × Nat × Nat

/-- Bytes of the request's slot block. -/
def schBlock (p : List Nat) : Nat := slotBlock (schCap p) (schRow p)

/-- A station number without the coordinates above dimension k. -/
def upTo (st k : Nat) : Nat := if k = 0 then st % 8 else if k = 1 then st % 64 else st

/-- The shape of an all-to-all: homes and members, experts by module, and for each dimension the experts by slot and the coordinates up to it. -/
structure Shape where
  hs : List (Nat × Nat)
  ms : List Nat
  count : Array Nat
  sums : List (Array Nat)

/-- The shape of a request. -/
def shapeOf (m : Chip) (p : List Nat) : Shape :=
  let hs := (schHomes m p).filter (fun h => isMember m p h.2)
  let by_ (k : Nat) : Array Nat := hs.foldl (fun (a : Array Nat) h => a.modify (upTo (h.2 / 8) k * 8 + h.2 % 8) (· + 1)) (Array.replicate 2048 0)
  { hs := hs, ms := schMembers m p, count := by_ 2, sums := [by_ 0, by_ 1, by_ 2] }

/-- Experts homed on a module. -/
def localCount (x : Shape) (d : Nat) : Nat := x.count.getD d 0

/-- The blocks of the send area that lead to members at slot j, in POS order: POS, module, local expert. -/
def slotBlocks (x : Shape) (j : Nat) : List (Nat × Nat × Nat) :=
  ((x.hs.zipIdx).filter (fun (h : (Nat × Nat) × Nat) => h.1.2 % 8 == j)).map
    (fun (h : (Nat × Nat) × Nat) => (h.1.1, h.1.2, ((x.hs.take h.2).filter (fun q => q.2 == h.1.2)).length))

/-- Runs of consecutive POS: first POS, blocks, and blocks before. -/
def posRuns (bs : List (Nat × Nat × Nat)) : List (Nat × Nat × Nat) :=
  (bs.foldl (fun (a : List (Nat × Nat × Nat)) (b : Nat × Nat × Nat) =>
    match a with
    | (f, c, before) :: rest => if f + c = b.1 then (f, c + 1, before) :: rest else (b.1, 1, before + c) :: a
    | [] => [(b.1, 1, 0)]) []).reverse

/-- The place of a source among the members. -/
def sourceIdx (x : Shape) (s : Nat) : Nat := (x.ms.findIdx? (· == s)).getD 0

/-- Blocks that a module has landed from each source when the mesh phase ends. -/
def meshItems (m : Chip) (x : Shape) : List Item :=
  let bs := slotBlocks x (slotNum m)
  (List.range 8).flatMap (fun i => bs.map (fun b => (stationNum m * 8 + i, b.2.1, b.2.2)))

/-- Blocks before the final place of a source's block for a local expert (R413). -/
def finalPlace (x : Shape) (it : Item) : Nat := it.2.2 * x.ms.length + sourceIdx x it.1

/-- The blocks that a module at a slot and station holds before the ring on dimension k for its coordinate t: by module, source and local expert. -/
def stageChunk (x : Shape) (slot st k t : Nat) : List Item :=
  let src := x.ms.filter (fun s => (List.range 3).all (fun i => decide (i < k) || coord (s / 8) i == coord st i))
  (x.ms.filter (fun d => d % 8 == slot && upTo (d / 8) k == upTo (setCoord st k t) k)).flatMap (fun d =>
    src.flatMap (fun s => (List.range (localCount x d)).map (fun l => (s, d, l))))

/-- Lines of a stage's chunk. -/
def chunkLines (m : Chip) (p : List Nat) (x : Shape) (slot st k t : Nat) : Nat :=
  ((x.sums.getD k #[]).getD (upTo (setCoord st k t) k * 8 + slot) 0) * (8 * ((List.range k).map (dimSize m)).foldl (· * ·) 1) * (schBlock p / 128)

/-- Lines that the module sends at step s of the ring on dimension k: offsets beyond s of what came from s stations away, and its part of the opposite chunk, the first
half in the + direction. -/
def ringLines (m : Chip) (p : List Nat) (x : Shape) (slot st k dir s : Nat) : Nat :=
  let n := dimSize m k
  let h := n / 2
  let c := coord st k
  let size (o : Nat) : Nat := chunkLines m p x slot st k ((if dir = 0 then c + o + n - s % n else c + 2 * n + s - o) % n)
  (List.range h).foldl (fun a o => if s + 1 ≤ o then a + size o else a) (if dir = 0 then cdiv (size h) 2 else size h / 2)

/-- The most lines that any member sends at a step in a direction. -/
def ringMost (m : Chip) (p : List Nat) (x : Shape) (k dir s : Nat) : Nat := x.ms.foldl (fun a d => max a (ringLines m p x (d % 8) (d / 8) k dir s)) 0

/-- The most lines that any member holds before or after the ring on a dimension. -/
def stageMost (m : Chip) (p : List Nat) (x : Shape) (k : Nat) : Nat :=
  x.ms.foldl (fun a d =>
    let size (t : Nat) : Nat := chunkLines m p x (d % 8) (d / 8) k t
    max (max a ((List.range (dimSize m k)).foldl (fun b t => b + size t) 0)) (dimSize m k * size (coord (d / 8) k))) 0

/-- The most lines of each step of the ring on a dimension, the directions in turn. -/
def ringMosts (m : Chip) (p : List Nat) (x : Shape) (k : Nat) : List Nat := (List.range (2 * (dimSize m k / 2))).map (fun i => ringMost m p x k (i % 2) (i / 2))

/-- A shape with the landing areas of template 6: the lines of the tally area at DST_DA, the lines of each area that follows it, and the most lines of the rings' steps. The
areas are 0 and 1 for what a ring sends, 2 for what a phase has landed, 3 for the rings' receive windows. -/
structure Plan extends Shape where
  tally : Nat
  area : Nat
  mosts : List (List Nat)

/-- The plan of a request. -/
def planOf (m : Chip) (p : List Nat) : Plan :=
  let x := shapeOf m p
  { x with tally := x.ms.foldl (fun a d => max a (localCount x d * x.ms.length * (schBlock p / 128))) 0,
           area := (List.range 3).foldl (fun a k => max a (stageMost m p x k)) 0, mosts := (List.range 3).map (ringMosts m p x) }

/-- The DA of a landing area. -/
def areaDa (p : List Nat) (x : Plan) (a : Nat) : Nat := schDa p 6 + 128 * (x.tally + a * x.area)

/-- The DA of the receive window of a ring's step and direction. -/
def ringDa (p : List Nat) (x : Plan) (k dir s : Nat) : Nat := areaDa p x 3 + 128 * ((x.mosts.getD k []).take (2 * s + dir)).foldl (· + ·) 0

/-- What a ring sends lies by offset from the own coordinate. -/
def stageItems (m : Chip) (x : Shape) (k : Nat) : List Item :=
  let n := dimSize m k
  (List.range n).flatMap (fun o => stageChunk x (slotNum m) (stationNum m) k ((coord (stationNum m) k + o) % n))

/-- What a ring has brought lies by the origin's coordinate. -/
def broughtItems (m : Chip) (x : Shape) (k : Nat) : List Item :=
  (List.range (dimSize m k)).flatMap (fun q => stageChunk x (slotNum m) (setCoord (stationNum m) k q) k (coord (stationNum m) k))

/-- The dimension of a later ring: the first from k on that is larger than 1. -/
def nextRing (m : Chip) (k : Nat) : Option Nat := (List.range 3).find? (fun d => decide (k ≤ d) && decide (1 < dimSize m d))

/-- The area that a ring sends from: they alternate. -/
def sendArea (m : Chip) (k : Nat) : Nat := ((List.range k).filter (fun d => decide (1 < dimSize m d))).length % 2

/-- Placements from a layout at one address to the next stage's: of a ring from dimension k on, or the final one of R413. -/
def relay (m : Chip) (p : List Nat) (x : Plan) (from_ : List Item) (da k : Nat) : List (Nat × Nat × Nat) :=
  let b := schBlock p
  match (if schSystem p then nextRing m k else none) with
  | some d =>
    let items := stageItems m x.toShape d
    (from_.zipIdx).filterMap (fun (it : Item × Nat) => (items.findIdx? (· == it.1)).map (fun i => (da + it.2 * b, areaDa p x (sendArea m d) + i * b, b)))
  | none => (from_.zipIdx).map (fun (it : Item × Nat) => (da + it.2 * b, schDa p 6 + finalPlace x.toShape it.1 * b, b))

/-! ### Templates 5 and 6: the steps -/

/-- Where the mesh phase lands: the tally area itself, or area 2 of a system with rings. -/
def meshDa (m : Chip) (p : List Nat) (x : Plan) : Nat := if schSystem p && (nextRing m 0).isSome then areaDa p x 2 else schDa p 6

/-- The phase-list entry of a run for slot j. -/
def runEntry (m : Chip) (p : List Nat) (da j count : Nat) (r : Nat × Nat × Nat) : List Nat :=
  let mask := if j = slotNum m then 0 else (meshTo m j).foldl (fun a q => a + 2 ^ q) 0
  let at_ := da + (slotNum m * count + r.2.2) * schBlock p
  [(if j = slotNum m then selfNum m else member m (stationNum m) j) * 2 ^ 16 + r.1, r.2.1, mask % 2 ^ 32, mask / 2 ^ 32, at_ % 2 ^ 32, at_ / 2 ^ 32, 0, 0]

/-- Bytes on the fullest port towards slot j. -/
def slotLoad (p : List Nat) (x : Shape) (j : Nat) : Nat := (posRuns (slotBlocks x j)).foldl (fun a r => a + portShare (r.2.1 * schBlock p) 3) 0

/-- The mesh phase of an all-to-all: one EXCHANGE and one RECV. -/
def meshExchange (m : Chip) (p : List Nat) (x : Plan) : SchStep :=
  let da := meshDa m p x
  let bs := (List.range 8).map (slotBlocks x.toShape)
  let n := (bs.getD (slotNum m) []).length
  let loads := (List.range 8).map (slotLoad p x.toShape)
  { sends := [{ kind := 3, ports := (others m).flatMap (meshTo m), bytes := (others m).foldl (fun a j => max a (nth loads j)) 0, src := schDa p 4,
                list := (List.range 8).flatMap (fun j => (posRuns (bs.getD j [])).map (runEntry m p da j (bs.getD j []).length)) }],
    recvs := [{ expected := 7, dst := da, bytes := 8 * n * schBlock p, share := n * schBlock p, moves := [relay m p x (meshItems m x.toShape) da 0] }],
    len := unitsFor p (loads.foldl max 0), guard := 16 }

/-- What a ring has brought, gathered by origin: own chunk, whole chunks from nearer stations, and the two halves from the opposite one. -/
def bringMoves (m : Chip) (p : List Nat) (x : Plan) (k : Nat) : List (Nat × Nat × Nat) :=
  let n := dimSize m k
  let h := n / 2
  let c := coord (stationNum m) k
  let size := 128 * chunkLines m p x.toShape (slotNum m) (stationNum m) k c
  let at_ (q : Nat) : Nat := areaDa p x 2 + (q % n) * size
  let came (dir s : Nat) : Nat := 128 * ringLines m p x.toShape (slotNum m) (stationStep m (stationNum m) k (1 - dir)) k dir s
  (areaDa p x (sendArea m k), at_ c, size) ::
  (List.range (h + 1)).flatMap (fun o =>
    if o = 0 then []
    else if o = h then
      [(ringDa p x k 0 (h - 1), at_ (c + n - h), came 0 (h - 1)), (ringDa p x k 1 (h - 1), at_ (c + h) + came 0 (h - 1), came 1 (h - 1))]
    else [(ringDa p x k 0 (o - 1), at_ (c + n - o), size), (ringDa p x k 1 (o - 1) + came 1 (o - 1) - size, at_ (c + o), size)])

/-- A step of a ring all-to-all: at step 0 from what lies by offset, later what the step before brought and did not deliver. -/
def relayStep (m : Chip) (p : List Nat) (x : Plan) (k s : Nat) : SchStep :=
  let n := dimSize m k
  let st := stationNum m
  let lines (dir : Nat) : Nat := ringLines m p x.toShape (slotNum m) st k dir s
  let came (dir : Nat) (j : Nat) : Nat := ringLines m p x.toShape (slotNum m) (stationStep m st k (1 - dir)) k dir j
  let a := areaDa p x (sendArea m k)
  let size (o : Nat) : Nat := chunkLines m p x.toShape (slotNum m) st k ((coord st k + o) % n)
  let src (dir : Nat) : Nat :=
    if s = 0 then
      (if dir = 0 then a + 128 * size 0 else a + 128 * ((List.range (n / 2)).foldl (fun y o => y + size o) 0 + cdiv (size (n / 2)) 2))
    else if dir = 0 then ringDa p x k 0 (s - 1) + 128 * (came 0 (s - 1) - lines 0) else ringDa p x k 1 (s - 1)
  let moves := if s + 1 = n / 2 then [bringMoves m p x k, relay m p x (broughtItems m x.toShape k) (areaDa p x 2) (k + 1)] else []
  { sends := [0, 1].map (fun dir =>
      { ports := torusPorts k dir, bytes := 128 * lines dir, src := src dir, dest := member m (stationStep m st k dir) (slotNum m), dst := ringDa p x k dir s }),
    recvs := [0, 1].map (fun dir => { expected := 1, dst := ringDa p x k dir s, bytes := 128 * came dir s, moves := moves }),
    len := unitsFor p (portShare (128 * max (nth (x.mosts.getD k []) (2 * s)) (nth (x.mosts.getD k []) (2 * s + 1))) 2), guard := 32 }

/-- The steps of a request's template (R549). -/
def schSteps (m : Chip) (p : List Nat) : List SchStep :=
  match schTemplate p with
  | 1 => [meshScatter m p]
  | 2 => [meshGather m p true]
  | 3 => [meshScatter m p, meshGather m p false]
  | 4 => meshScatter m p :: ([0, 1, 2].flatMap (fun d => ringSteps m p d false) ++ [2, 1, 0].flatMap (fun d => ringSteps m p d true) ++ [meshGather m p false])
  | 5 => [meshExchange m p (planOf m p)]
  | _ =>
    let x := planOf m p
    meshExchange m p x :: [0, 1, 2].flatMap (fun k => (List.range (dimSize m k / 2)).map (relayStep m p x k))

/-! ### Rows -/

/-- A row that a template builds: its words, parameter block and phase list, and what the row keeps beside them. -/
structure Built where
  w : List Nat
  par : List Nat
  list : List (List Nat) := []
  row : TtRow
  len : Nat
  deriving DecidableEq, Repr

/-- Where the rows' blocks lie and what the next row takes: first list byte, the rows so far, list bytes so far, receive windows so far. -/
structure Layout where
  lists : Nat
  words : Nat
  rows : List Built := []
  used : Nat := 0
  recvs : Nat := 0
  deriving DecidableEq, Repr

/-- The eight words of row i of the request. -/
def builtWords (p : List Nat) (i kind start len spill : Nat) : List Nat :=
  let tag := min 65535 (schTag p + i)
  let da := schDa p 15 + 64 * i
  [kind * 2 ^ 28 + (if schNext p then 0 else 2 ^ 22) + tag, start % 2 ^ 32, start / 2 ^ 32 % 2 ^ 26, len % 2 ^ 16 * 2 ^ 16 + (if spill = 0 then 0 else min 65535 (schTag p + spill)),
   0, 2 ^ 16, da % 2 ^ 32, (if kind = 2 then 0 else 5 * 2 ^ 24) + da / 2 ^ 32]

/-- The two words of an address. -/
def daWords (da : Nat) : List Nat := [da % 2 ^ 32, da / 2 ^ 32]

/-- Put a row in the layout. -/
def putBuilt (p : List Nat) (kind start len spill : Nat) (par : List Nat) (list : List (List Nat)) (f : TtRow → TtRow) (a : Layout) : Layout :=
  let w := builtWords p a.rows.length kind start len spill
  { a with rows := a.rows ++ [⟨w, par, list, f { newRow w par false with list := [] }, len⟩], used := a.used + 32 * list.length, recvs := a.recvs + b2n (kind == 2) }

/-- Build the row of a contribution: start, window, spill row, whether it is itself a spill row, and its ready word and value. -/
def buildSend (p : List Nat) (x : SchStep) (start spill : Nat) (late : Bool) (ready value : Nat) (a : Layout) (q : Send) : Layout :=
  let mask := q.ports.foldl (fun b k => b + 2 ^ k) 0
  let par :=
    if q.kind = 3 then
      [0, mask % 2 ^ 32, q.list.length * 2 ^ 16 + mask / 2 ^ 32, q.bytes] ++ daWords q.src ++ daWords (schDa p 15 + a.lists + a.used) ++ daWords ready ++ [value, schCap p, schRow p, 0, 0, 0]
    else
      [x.op * 2 ^ 28 + x.dtype * 2 ^ 24, mask % 2 ^ 32, mask / 2 ^ 32, q.bytes] ++ daWords q.src ++ [q.dst % 2 ^ 32, q.dst / 2 ^ 32 + q.dest * 2 ^ 16] ++ daWords ready ++
        [value, 0, 0, 0, 0, 0]
  putBuilt p q.kind start x.len spill par q.list (fun r => { r with lateOnly := late }) a

/-- Build the row of a receive window; its ready word is the one given, and its record the next. -/
def buildRecv (p : List Nat) (x : SchStep) (start spill : Nat) (keep : Bool) (a : Layout) (q : Recv × Nat) : Layout :=
  let r := q.1
  let par := [x.op * 2 ^ 28 + x.dtype * 2 ^ 24, r.expected] ++ daWords r.dst ++ [r.bytes] ++ daWords (schDa p 11 + 64 * a.recvs) ++ daWords q.2 ++ [0, 0, 0, 0, 0, 0, 0]
  putBuilt p 2 start (x.len + x.guard) spill par [] (fun t => { t with share := r.share, own := if keep then r.own else none, moves := if spill = 0 then r.moves else [] }) a

/-- The value that a step's contributions wait for: a window of the step before for each direction. -/
def waitValue (xs : List SchStep) (k : Nat) : Nat := match xs[k - 1]? with
  | some x => x.recvs.length
  | none => 0

/-- Build the rows of a step, and give the start of the next. The receive windows increment the step's word, and the last of the template's DONE_DA; under NEXT
the first step is followed by its spill rows, which increment that word in its place (R552). -/
def buildStep (p : List Nat) (xs : List SchStep) (s : Layout × Nat) (x : SchStep × Nat) : Layout × Nat :=
  let n := xs.length
  let k := x.2
  let st := x.1
  let word (i : Nat) : Nat := schDa p 15 + s.1.words + 4 * i
  let spills := k == 0 && schNext p
  let rows := st.sends.length + st.recvs.length
  let ready := if k = 0 then schDa p 8 else word (k - 1)
  let value := if k = 0 then nth p 10 else waitValue xs k
  let outWords (last : Bool) : List Nat := (List.range st.recvs.length).map (fun i => if last && k + 1 == n && i + 1 == st.recvs.length then schDa p 13 else word k)
  let one (a : Layout) (start : Nat) (spill late : Bool) (val : Nat) (outs : List Nat) : Layout :=
    let b := st.sends.foldl (fun c q => buildSend p st start (if spill then c.rows.length + rows else 0) late ready val c q) a
    (st.recvs.zip outs).foldl (fun c q => buildRecv p st start (if spill then c.rows.length + rows else 0) (!late) c q) b
  let step := st.len + st.guard
  if spills then
    let a := one s.1 s.2 true false value (List.replicate st.recvs.length (word n))
    (one a (s.2 + step) false true value (outWords true), s.2 + 2 * step)
  else (one s.1 s.2 false false value (outWords true), s.2 + step)

/-- All rows of a template's steps, and the end in slot units. -/
def buildAll (p : List Nat) (xs : List SchStep) : Layout × Nat :=
  let firstRows := match xs with
    | [] => 0
    | x :: _ => if schNext p then x.sends.length + x.recvs.length else 0
  let rows := xs.foldl (fun a x => a + x.sends.length + x.recvs.length) firstRows
  let entries (x : SchStep) : Nat := x.sends.foldl (fun a q => a + q.list.length) 0
  let lists := xs.foldl (fun a x => a + entries x) (match xs with
    | [] => 0
    | x :: _ => if schNext p then entries x else 0)
  (xs.zipIdx).foldl (buildStep p xs) ({ lists := 64 * rows, words := 64 * rows + 32 * lists }, schStart p)

/-! ### The checks and the post -/

/-- A vector size that the template's shares do not divide (R550). -/
def badShape (m : Chip) (p : List Nat) : Bool :=
  !schExchange p && schBytes p % (if schTemplate p = 4 then 4096 * dimSize m 0 * dimSize m 1 * dimSize m 2 else 1024) != 0

/-- The holders of a station template's members do not all lie in one station (R726). -/
def badHolders (m : Chip) (p : List Nat) : Bool :=
  !schSystem p && (others m).any (fun j => member m (stationNum m) j / 8 != member m (stationNum m) (slotNum m) / 8)

/-- Bytes of the work area used. -/
def workBytes (xs : List SchStep) (a : Layout) : Nat := a.words + 4 * (xs.length + 1)

/-- TT_SHAPE of a request (R550, R662, R726). -/
def shapeBad (m : Chip) (p : List Nat) (xs : List SchStep) (a : Layout) : Bool :=
  badShape m p || badHolders m p || [4, 6, 8, 11, 13, 15].any (fun i => !scratch m (schDa p i)) || schDa p 15 % 2 ^ 20 != 0 || decide (2 ^ 20 < workBytes xs a) ||
  !scratchRange m (schDa p 15) (workBytes xs a) || a.rows.any (fun b => decide (2048 < b.list.length))

/-- A field of the request lies outside its range, before any row is built. -/
def schFieldBad (p : List Nat) : Bool :=
  schDa p 11 % 64 != 0 ||
  (schExchange p && (schPos p == 0 || decide (4096 < schPos p) || schCap p == 0 || schRow p == 0 || schRow p % 128 != 0 || decide (65536 < schRow p)))

/-- Write the work area: blocks, phase lists, ready words of 0. -/
def writeWork (m : Chip) (p : List Nat) (xs : List SchStep) (a : Layout) : Chip :=
  mioStore m (some ownMioto) (schDa p 15) (wordBytes (a.rows.flatMap (·.par) ++ (a.rows.flatMap (·.list)).flatten ++ List.replicate (xs.length + 1) 0))

/-- TT.SCHEDULE (R86, R662): all rows or none, with the status of the first check that fails. -/
def doTtSchedule (i : Nat) (p : List Nat) (m : Chip) : Chip :=
  let xs := schSteps m p
  let b := buildAll p xs
  let a := b.1
  let bad := firstIdx a.rows.length (fun k => (a.rows[k]?).any (fun r => r.len == 0 || decide (65535 < r.len) || rowTag r.w == 0))
  if schFieldBad p then respondD m i 2 0xFFFFFFFF []
  else match bad with
    | some k => respondD m i 2 k []
    | none =>
      if shapeBad m p xs a then respondD m i 0x0207 0xFFFFFFFF []
      else match postChecks m (a.rows.map (fun r => (r.w, r.par))) with
        | some e => respondD m i e.1 e.2 []
        | none =>
          let m1 := a.rows.foldl (fun c r => addRow c r.row) (writeWork m p xs a)
          respond m1 i 0 ([a.rows.length, (schTag p + a.rows.length - 1) * 2 ^ 16 + schTag p] ++ lohi (b.2 * 64) ++ [workBytes xs a])

/-- Meaning of TT_SCHEDULE. -/
def execTtSchedule (i : Nat) (s : State) : Host.Outcome State Fault Refusal := runCmd s i 0x0203 (doTtSchedule i)

end Sys2Proof.Machine
end

