-- ==== Sys2Proof/Machine/Dispatch.lean ====
section
/-! DEFINITION. What each command does: one direct call of its meaning. -/

namespace Sys2Proof.Machine

/-- The effect of a command on everything but the queue (R1 to R830, each meaning by its own rules). -/
def exec (i : Instr) (s : State) : Host.Outcome State Fault Refusal :=
  match i with
  | .registerWrite off val => Sys2Proof.Machine.execRegisterWrite off val s
  | .readLoLatch off => Sys2Proof.Machine.execReadLoLatch off s
  | .counterOvfClear off val => Sys2Proof.Machine.execCounterOvfClear off val s
  | .ctrlAccessError off size write => Sys2Proof.Machine.execCtrlAccessError off size write s
  | .undefinedRegAccess off write => Sys2Proof.Machine.execUndefinedRegAccess off write s
  | .ltrefLock => Sys2Proof.Machine.execLtrefLock s
  | .ltrefLoss => Sys2Proof.Machine.execLtrefLoss s
  | .ltepochPulse => Sys2Proof.Machine.execLtepochPulse s
  | .epochBoundary => Sys2Proof.Machine.execEpochBoundary s
  | .holdoverExpire => Sys2Proof.Machine.execHoldoverExpire s
  | .ttLockTimeout => Sys2Proof.Machine.execTtLockTimeout s
  | .markReqRx port sub => Sys2Proof.Machine.execMarkReqRx port sub s
  | .markRepRx port t2 t3 hops state sub => Sys2Proof.Machine.execMarkRepRx port t2 t3 hops state sub s
  | .rowArm row => Sys2Proof.Machine.execRowArm row s
  | .slotWindowOpen row => Sys2Proof.Machine.execSlotWindowOpen row s
  | .recvWindowOpen row => Sys2Proof.Machine.execRecvWindowOpen row s
  | .exchangeWindowOpen row => Sys2Proof.Machine.execExchangeWindowOpen row s
  | .refreshWindowOpen row => Sys2Proof.Machine.execRefreshWindowOpen row s
  | .possessionWindowOpen row => Sys2Proof.Machine.execPossessionWindowOpen row s
  | .throttleWindowOpen row => Sys2Proof.Machine.execThrottleWindowOpen row s
  | .journalWindowOpen row => Sys2Proof.Machine.execJournalWindowOpen row s
  | .signalRowFire row => Sys2Proof.Machine.execSignalRowFire row s
  | .markRowFire row => Sys2Proof.Machine.execMarkRowFire row s
  | .rowWindowEnd row => Sys2Proof.Machine.execRowWindowEnd row s
  | .recvWindowClose row => Sys2Proof.Machine.execRecvWindowClose row s
  | .lateReadyOmit row => Sys2Proof.Machine.execLateReadyOmit row s
  | .ttLock m => Sys2Proof.Machine.execTtLock m s
  | .ttNow m => Sys2Proof.Machine.execTtNow m s
  | .ttSchedule m => Sys2Proof.Machine.execTtSchedule m s
  | .ttPost m => Sys2Proof.Machine.execTtPost m s
  | .ttCancel m => Sys2Proof.Machine.execTtCancel m s
  | .ttList m => Sys2Proof.Machine.execTtList m s
  | .ttArm m => Sys2Proof.Machine.execTtArm m s
  | .blockPlace => Sys2Proof.Machine.execBlockPlace s
  | .barrierStall core block => Sys2Proof.Machine.execBarrierStall core block s
  | .l0LineFill core id => Sys2Proof.Machine.execL0LineFill core id s
  | .uwaitPoll core slot => Sys2Proof.Machine.execUwaitPoll core slot s
  | .uwaitTimeout core slot => Sys2Proof.Machine.execUwaitTimeout core slot s
  | .l0InvAllWrite val => Sys2Proof.Machine.execL0InvAllWrite val s
  | .diagCore m => Sys2Proof.Machine.execDiagCore m s
  | .mmaArrayComplete core => Sys2Proof.Machine.execMmaArrayComplete core s
  | .nop core slot w => Sys2Proof.Machine.execNop core slot w s
  | .bra core slot w => Sys2Proof.Machine.execBra core slot w s
  | .call core slot w => Sys2Proof.Machine.execCall core slot w s
  | .jmp core slot w => Sys2Proof.Machine.execJmp core slot w s
  | .exit core slot w => Sys2Proof.Machine.execExit core slot w s
  | .bar core slot w => Sys2Proof.Machine.execBar core slot w s
  | .trap core slot w => Sys2Proof.Machine.execTrap core slot w s
  | .iadd core slot w => Sys2Proof.Machine.execIadd core slot w s
  | .isub core slot w => Sys2Proof.Machine.execIsub core slot w s
  | .imul core slot w => Sys2Proof.Machine.execImul core slot w s
  | .imulhi core slot w => Sys2Proof.Machine.execImulhi core slot w s
  | .imac core slot w => Sys2Proof.Machine.execImac core slot w s
  | .imin core slot w => Sys2Proof.Machine.execImin core slot w s
  | .imax core slot w => Sys2Proof.Machine.execImax core slot w s
  | .shl core slot w => Sys2Proof.Machine.execShl core slot w s
  | .shr core slot w => Sys2Proof.Machine.execShr core slot w s
  | .andI core slot w => Sys2Proof.Machine.execAndI core slot w s
  | .orI core slot w => Sys2Proof.Machine.execOrI core slot w s
  | .xorI core slot w => Sys2Proof.Machine.execXorI core slot w s
  | .pcnt core slot w => Sys2Proof.Machine.execPcnt core slot w s
  | .clz core slot w => Sys2Proof.Machine.execClz core slot w s
  | .bext core slot w => Sys2Proof.Machine.execBext core slot w s
  | .bins core slot w => Sys2Proof.Machine.execBins core slot w s
  | .mov core slot w => Sys2Proof.Machine.execMov core slot w s
  | .movi core slot w => Sys2Proof.Machine.execMovi core slot w s
  | .sel core slot w => Sys2Proof.Machine.execSel core slot w s
  | .bsel core slot w => Sys2Proof.Machine.execBsel core slot w s
  | .xlane core slot w => Sys2Proof.Machine.execXlane core slot w s
  | .rdsp core slot w => Sys2Proof.Machine.execRdsp core slot w s
  | .iadd64 core slot w => Sys2Proof.Machine.execIadd64 core slot w s
  | .fadd core slot w => Sys2Proof.Machine.execFadd core slot w s
  | .fmul core slot w => Sys2Proof.Machine.execFmul core slot w s
  | .fmac core slot w => Sys2Proof.Machine.execFmac core slot w s
  | .fmin core slot w => Sys2Proof.Machine.execFmin core slot w s
  | .fmax core slot w => Sys2Proof.Machine.execFmax core slot w s
  | .pkadd core slot w => Sys2Proof.Machine.execPkadd core slot w s
  | .pkmul core slot w => Sys2Proof.Machine.execPkmul core slot w s
  | .pkmac core slot w => Sys2Proof.Machine.execPkmac core slot w s
  | .pkmin core slot w => Sys2Proof.Machine.execPkmin core slot w s
  | .pkmax core slot w => Sys2Proof.Machine.execPkmax core slot w s
  | .cvt core slot w => Sys2Proof.Machine.execCvt core slot w s
  | .rcp core slot w => Sys2Proof.Machine.execRcp core slot w s
  | .rsq core slot w => Sys2Proof.Machine.execRsq core slot w s
  | .sqrt core slot w => Sys2Proof.Machine.execSqrt core slot w s
  | .exp2 core slot w => Sys2Proof.Machine.execExp2 core slot w s
  | .log2 core slot w => Sys2Proof.Machine.execLog2 core slot w s
  | .tanh core slot w => Sys2Proof.Machine.execTanh core slot w s
  | .icmp core slot w => Sys2Proof.Machine.execIcmp core slot w s
  | .fcmp core slot w => Sys2Proof.Machine.execFcmp core slot w s
  | .pcomb core slot w => Sys2Proof.Machine.execPcomb core slot w s
  | .pgrp core slot w => Sys2Proof.Machine.execPgrp core slot w s
  | .p2v core slot w => Sys2Proof.Machine.execP2v core slot w s
  | .v2p core slot w => Sys2Proof.Machine.execV2p core slot w s
  | .uadd core slot w => Sys2Proof.Machine.execUadd core slot w s
  | .usub core slot w => Sys2Proof.Machine.execUsub core slot w s
  | .umul core slot w => Sys2Proof.Machine.execUmul core slot w s
  | .uand core slot w => Sys2Proof.Machine.execUand core slot w s
  | .uor core slot w => Sys2Proof.Machine.execUor core slot w s
  | .uxor core slot w => Sys2Proof.Machine.execUxor core slot w s
  | .ushl core slot w => Sys2Proof.Machine.execUshl core slot w s
  | .ushr core slot w => Sys2Proof.Machine.execUshr core slot w s
  | .umov core slot w => Sys2Proof.Machine.execUmov core slot w s
  | .umovi core slot w => Sys2Proof.Machine.execUmovi core slot w s
  | .uadd64 core slot w => Sys2Proof.Machine.execUadd64 core slot w s
  | .ucmp core slot w => Sys2Proof.Machine.execUcmp core slot w s
  | .urdsp core slot w => Sys2Proof.Machine.execUrdsp core slot w s
  | .ld core slot w => Sys2Proof.Machine.execLd core slot w s
  | .st core slot w => Sys2Proof.Machine.execSt core slot w s
  | .fence core slot w => Sys2Proof.Machine.execFence core slot w s
  | .l0inv core slot w => Sys2Proof.Machine.execL0inv core slot w s
  | .uld core slot w => Sys2Proof.Machine.execUld core slot w s
  | .uwait core slot w => Sys2Proof.Machine.execUwait core slot w s
  | .atomAdd core slot w => Sys2Proof.Machine.execAtomAdd core slot w s
  | .atomFadd core slot w => Sys2Proof.Machine.execAtomFadd core slot w s
  | .atomSmin core slot w => Sys2Proof.Machine.execAtomSmin core slot w s
  | .atomSmax core slot w => Sys2Proof.Machine.execAtomSmax core slot w s
  | .atomUmin core slot w => Sys2Proof.Machine.execAtomUmin core slot w s
  | .atomUmax core slot w => Sys2Proof.Machine.execAtomUmax core slot w s
  | .atomAnd core slot w => Sys2Proof.Machine.execAtomAnd core slot w s
  | .atomOr core slot w => Sys2Proof.Machine.execAtomOr core slot w s
  | .atomXor core slot w => Sys2Proof.Machine.execAtomXor core slot w s
  | .atomExch core slot w => Sys2Proof.Machine.execAtomExch core slot w s
  | .atomCas core slot w => Sys2Proof.Machine.execAtomCas core slot w s
  | .sig core slot w => Sys2Proof.Machine.execSig core slot w s
  | .mma core slot w => Sys2Proof.Machine.execMma core slot w s
  | .tzero core slot w => Sys2Proof.Machine.execTzero core slot w s
  | .trd core slot w => Sys2Proof.Machine.execTrd core slot w s
  | .twr core slot w => Sys2Proof.Machine.execTwr core slot w s
  | .tst core slot w => Sys2Proof.Machine.execTst core slot w s
  | .sliceRead g => Sys2Proof.Machine.execSliceRead g s
  | .sliceWrite g => Sys2Proof.Machine.execSliceWrite g s
  | .slicePartialWrite g => Sys2Proof.Machine.execSlicePartialWrite g s
  | .collectAtomic g => Sys2Proof.Machine.execCollectAtomic g s
  | .collectReduce g => Sys2Proof.Machine.execCollectReduce g s
  | .sliceClassDPromote g id => Sys2Proof.Machine.execSliceClassDPromote g id s
  | .cacheFillReturn id => Sys2Proof.Machine.execCacheFillReturn id s
  | .evictionWriteback half => Sys2Proof.Machine.execEvictionWriteback half s
  | .evictionRoomResume half => Sys2Proof.Machine.execEvictionRoomResume half s
  | .sidingDrain half => Sys2Proof.Machine.execSidingDrain half s
  | .sidingRoomResume half => Sys2Proof.Machine.execSidingRoomResume half s
  | .bufScrubLine half => Sys2Proof.Machine.execBufScrubLine half s
  | .bufCtrlFlush val => Sys2Proof.Machine.execBufCtrlFlush val s
  | .bufRegion m => Sys2Proof.Machine.execBufRegion m s
  | .bufFlush m => Sys2Proof.Machine.execBufFlush m s
  | .bufScrub m => Sys2Proof.Machine.execBufScrub m s
  | .bufClear m => Sys2Proof.Machine.execBufClear m s
  | .bufFlip m => Sys2Proof.Machine.execBufFlip m s
  | .conDescriptorAccept ring => Sys2Proof.Machine.execConDescriptorAccept ring s
  | .conWaitPoll die id => Sys2Proof.Machine.execConWaitPoll die id s
  | .conWaitTimeout die id => Sys2Proof.Machine.execConWaitTimeout die id s
  | .fetchWagonStart die => Sys2Proof.Machine.execFetchWagonStart die s
  | .fetchLineReturn die id => Sys2Proof.Machine.execFetchLineReturn die id s
  | .expandWagon die engine => Sys2Proof.Machine.execExpandWagon die engine s
  | .expandHand die engine => Sys2Proof.Machine.execExpandHand die engine s
  | .stageWagonWrite die wagon => Sys2Proof.Machine.execStageWagonWrite die wagon s
  | .stageWagonRetire die wagon => Sys2Proof.Machine.execStageWagonRetire die wagon s
  | .despatchWagon row die => Sys2Proof.Machine.execDespatchWagon row die s
  | .consistReclaimDone die handoff => Sys2Proof.Machine.execConsistReclaimDone die handoff s
  | .regulatorRefill k => Sys2Proof.Machine.execRegulatorRefill k s
  | .conResetWrite val => Sys2Proof.Machine.execConResetWrite val s
  | .conRun m => Sys2Proof.Machine.execConRun m s
  | .conRegulate m => Sys2Proof.Machine.execConRegulate m s
  | .conReset m => Sys2Proof.Machine.execConReset m s
  | .ptsJobAccept engine => Sys2Proof.Machine.execPtsJobAccept engine s
  | .ptsWaitPoll engine => Sys2Proof.Machine.execPtsWaitPoll engine s
  | .ptsWaitTimeout engine => Sys2Proof.Machine.execPtsWaitTimeout engine s
  | .routeJobRun engine => Sys2Proof.Machine.execRouteJobRun engine s
  | .tallyJobRun engine => Sys2Proof.Machine.execTallyJobRun engine s
  | .ptsJobComplete engine => Sys2Proof.Machine.execPtsJobComplete engine s
  | .gatePoll id => Sys2Proof.Machine.execGatePoll id s
  | .gateTimeout id => Sys2Proof.Machine.execGateTimeout id s
  | .ptsTblDataWrite val => Sys2Proof.Machine.execPtsTblDataWrite val s
  | .ptsResetWrite val => Sys2Proof.Machine.execPtsResetWrite val s
  | .ptsTable m => Sys2Proof.Machine.execPtsTable m s
  | .ptsRoute m => Sys2Proof.Machine.execPtsRoute m s
  | .ptsTally m => Sys2Proof.Machine.execPtsTally m s
  | .ptsReset m => Sys2Proof.Machine.execPtsReset m s
  | .hbmRead stack => Sys2Proof.Machine.execHbmRead stack s
  | .hbmWrite stack => Sys2Proof.Machine.execHbmWrite stack s
  | .hbmPartialWrite stack => Sys2Proof.Machine.execHbmPartialWrite stack s
  | .hbmClassDPromote stack id => Sys2Proof.Machine.execHbmClassDPromote stack id s
  | .refreshTimer stack => Sys2Proof.Machine.execRefreshTimer stack s
  | .hbmTrainingFinish stack pass setting => Sys2Proof.Machine.execHbmTrainingFinish stack pass setting s
  | .hbmTempRead stack temp => Sys2Proof.Machine.execHbmTempRead stack temp s
  | .hbmScrubLine stack => Sys2Proof.Machine.execHbmScrubLine stack s
  | .hbmOosWrite stack val => Sys2Proof.Machine.execHbmOosWrite stack val s
  | .hbmDrainDone stack => Sys2Proof.Machine.execHbmDrainDone stack s
  | .hbmService m => Sys2Proof.Machine.execHbmService m s
  | .hbmThrottle m => Sys2Proof.Machine.execHbmThrottle m s
  | .hbmScrub m => Sys2Proof.Machine.execHbmScrub m s
  | .hbmFlip m => Sys2Proof.Machine.execHbmFlip m s
  | .hbmStatus m => Sys2Proof.Machine.execHbmStatus m s
  | .diagHbm m => Sys2Proof.Machine.execDiagHbm m s
  | .laneSignalDetect port lane => Sys2Proof.Machine.execLaneSignalDetect port lane s
  | .laneCdrLock port lane => Sys2Proof.Machine.execLaneCdrLock port lane s
  | .laneFrameLock port lane skew field => Sys2Proof.Machine.execLaneFrameLock port lane skew field s
  | .laneAdaptPass port lane corrected uncorr => Sys2Proof.Machine.execLaneAdaptPass port lane corrected uncorr s
  | .laneAdaptTimeout port lane => Sys2Proof.Machine.execLaneAdaptTimeout port lane s
  | .laneRateStep port farOk farReq farMax => Sys2Proof.Machine.execLaneRateStep port farOk farReq farMax s
  | .portBringupTimeout port => Sys2Proof.Machine.execPortBringupTimeout port s
  | .laneFrameReceive port lane hdr errs msg => Sys2Proof.Machine.execLaneFrameReceive port lane hdr errs msg s
  | .laneFail port lane cause => Sys2Proof.Machine.execLaneFail port lane cause s
  | .eyeStartWrite port val => Sys2Proof.Machine.execEyeStartWrite port val s
  | .eyePointDone port errs => Sys2Proof.Machine.execEyePointDone port errs s
  | .farLoopExit port => Sys2Proof.Machine.execFarLoopExit port s
  | .laneEnWrite port val => Sys2Proof.Machine.execLaneEnWrite port val s
  | .loopSelectWrite port val => Sys2Proof.Machine.execLoopSelectWrite port val s
  | .lnkOosWrite port val => Sys2Proof.Machine.execLnkOosWrite port val s
  | .lnkEye m => Sys2Proof.Machine.execLnkEye m s
  | .lnkLoop m => Sys2Proof.Machine.execLnkLoop m s
  | .lnkLane m => Sys2Proof.Machine.execLnkLane m s
  | .lnkService m => Sys2Proof.Machine.execLnkService m s
  | .lnkStatus m => Sys2Proof.Machine.execLnkStatus m s
  | .lnkTopo m => Sys2Proof.Machine.execLnkTopo m s
  | .flitDataWriteRx port f => Sys2Proof.Machine.execFlitDataWriteRx port f s
  | .flitDataReduceRx port f => Sys2Proof.Machine.execFlitDataReduceRx port f s
  | .voidMarkerRx port f => Sys2Proof.Machine.execVoidMarkerRx port f s
  | .reqReadRx port f => Sys2Proof.Machine.execReqReadRx port f s
  | .reqWriteRx port f => Sys2Proof.Machine.execReqWriteRx port f s
  | .reqMaskedWriteRx port f => Sys2Proof.Machine.execReqMaskedWriteRx port f s
  | .reqAtomicRx port f => Sys2Proof.Machine.execReqAtomicRx port f s
  | .respReadDataRx port f => Sys2Proof.Machine.execRespReadDataRx port f s
  | .respWriteAckRx port f => Sys2Proof.Machine.execRespWriteAckRx port f s
  | .respAtomicResultRx port f => Sys2Proof.Machine.execRespAtomicResultRx port f s
  | .respErrorRx port f => Sys2Proof.Machine.execRespErrorRx port f s
  | .idleRx port f => Sys2Proof.Machine.execIdleRx port f s
  | .nakRx port f => Sys2Proof.Machine.execNakRx port f s
  | .auditRx port f => Sys2Proof.Machine.execAuditRx port f s
  | .reclaimReqRx port f => Sys2Proof.Machine.execReclaimReqRx port f s
  | .reclaimRepRx port f => Sys2Proof.Machine.execReclaimRepRx port f s
  | .identRx port f => Sys2Proof.Machine.execIdentRx port f s
  | .departRx port f => Sys2Proof.Machine.execDepartRx port f s
  | .routedRx port f => Sys2Proof.Machine.execRoutedRx port f s
  | .replayTimeout port => Sys2Proof.Machine.execReplayTimeout port s
  | .nakRepeat port => Sys2Proof.Machine.execNakRepeat port s
  | .linkLockTimeout port => Sys2Proof.Machine.execLinkLockTimeout port s
  | .linkDrainEnd port => Sys2Proof.Machine.execLinkDrainEnd port s
  | .linkReclaimWrite port val => Sys2Proof.Machine.execLinkReclaimWrite port val s
  | .linkRetrainWrite port val => Sys2Proof.Machine.execLinkRetrainWrite port val s
  | .d2dReclaimDone unit => Sys2Proof.Machine.execD2dReclaimDone unit s
  | .laneCheckTurn unit fails => Sys2Proof.Machine.execLaneCheckTurn unit fails s
  | .clockLoss clock => Sys2Proof.Machine.execClockLoss clock s
  | .computeDieLost die cause => Sys2Proof.Machine.execComputeDieLost die cause s
  | .dieFenceComplete die => Sys2Proof.Machine.execDieFenceComplete die s
  | .roleFatal base kind => Sys2Proof.Machine.execRoleFatal base kind s
  | .d2dMapDataAccess write val => Sys2Proof.Machine.execD2dMapDataAccess write val s
  | .d2dDie m => Sys2Proof.Machine.execD2dDie m s
  | .d2dCheck m => Sys2Proof.Machine.execD2dCheck m s
  | .d2dMap m => Sys2Proof.Machine.execD2dMap m s
  | .d2dStatus m => Sys2Proof.Machine.execD2dStatus m s
  | .diagD2d m => Sys2Proof.Machine.execDiagD2d m s
  | .hostMemRead off => Sys2Proof.Machine.execHostMemRead off s
  | .hostMemWrite off data mask => Sys2Proof.Machine.execHostMemWrite off data mask s
  | .hostIoRead path off len => Sys2Proof.Machine.execHostIoRead path off len s
  | .hostIoWrite path off data relaxed => Sys2Proof.Machine.execHostIoWrite path off data relaxed s
  | .hostAtomicop path off op size val cmp => Sys2Proof.Machine.execHostAtomicop path off op size val cmp s
  | .biasRecallResponse granule line dirty data => Sys2Proof.Machine.execBiasRecallResponse granule line dirty data s
  | .biasFlipHostComplete granule => Sys2Proof.Machine.execBiasFlipHostComplete granule s
  | .biasDwellExpire granule => Sys2Proof.Machine.execBiasDwellExpire granule s
  | .readaheadExpire path line => Sys2Proof.Machine.execReadaheadExpire path line s
  | .hostReadaheadWrite val => Sys2Proof.Machine.execHostReadaheadWrite val s
  | .hostBiasDataAccess write val => Sys2Proof.Machine.execHostBiasDataAccess write val s
  | .hostDoorbellWrite n val => Sys2Proof.Machine.execHostDoorbellWrite n val s
  | .eventRingDoorbell n val => Sys2Proof.Machine.execEventRingDoorbell n val s
  | .ringEntryReread n => Sys2Proof.Machine.execRingEntryReread n s
  | .doorbellAhead n => Sys2Proof.Machine.execDoorbellAhead n s
  | .h0LinkDown => Sys2Proof.Machine.execH0LinkDown s
  | .h0HoldoffExpire => Sys2Proof.Machine.execH0HoldoffExpire s
  | .h0HotReset => Sys2Proof.Machine.execH0HotReset s
  | .h1LinkLoss => Sys2Proof.Machine.execH1LinkLoss s
  | .h0PerstRelease => Sys2Proof.Machine.execH0PerstRelease s
  | .h1Perst => Sys2Proof.Machine.execH1Perst s
  | .msixGapExpire vector => Sys2Proof.Machine.execMsixGapExpire vector s
  | .hostWindow m => Sys2Proof.Machine.execHostWindow m s
  | .hostBias m => Sys2Proof.Machine.execHostBias m s
  | .hostPolicy m => Sys2Proof.Machine.execHostPolicy m s
  | .mailboxGo m val => Sys2Proof.Machine.execMailboxGo m val s
  | .commandWaitResume m => Sys2Proof.Machine.execCommandWaitResume m s
  | .launchAccept ring => Sys2Proof.Machine.execLaunchAccept ring s
  | .sysSize m => Sys2Proof.Machine.execSysSize m s
  | .sysIdent m => Sys2Proof.Machine.execSysIdent m s
  | .sysState m => Sys2Proof.Machine.execSysState m s
  | .sysRing m => Sys2Proof.Machine.execSysRing m s
  | .sysAbort m => Sys2Proof.Machine.execSysAbort m s
  | .sysReset m => Sys2Proof.Machine.execSysReset m s
  | .vin48Rise mv => Sys2Proof.Machine.execVin48Rise mv s
  | .modRstRelease => Sys2Proof.Machine.execModRstRelease s
  | .miotoWatchdogExpire => Sys2Proof.Machine.execMiotoWatchdogExpire s
  | .startReady stk ports dies => Sys2Proof.Machine.execStartReady stk ports dies s
  | .bootThermalRecheck temps powers => Sys2Proof.Machine.execBootThermalRecheck temps powers s
  | .secMeasure m => Sys2Proof.Machine.execSecMeasure m s
  | .secAttest m => Sys2Proof.Machine.execSecAttest m s
  | .secUpdate m => Sys2Proof.Machine.execSecUpdate m s
  | .heartbeatRx port f => Sys2Proof.Machine.execHeartbeatRx port f s
  | .jendRx port f => Sys2Proof.Machine.execJendRx port f s
  | .jackRx port f => Sys2Proof.Machine.execJackRx port f s
  | .pairRx port f => Sys2Proof.Machine.execPairRx port f s
  | .unpairRx port f => Sys2Proof.Machine.execUnpairRx port f s
  | .regionRx port f => Sys2Proof.Machine.execRegionRx port f s
  | .twinHbRx port f => Sys2Proof.Machine.execTwinHbRx port f s
  | .twinTakeRx port f => Sys2Proof.Machine.execTwinTakeRx port f s
  | .twinReleaseRx port f => Sys2Proof.Machine.execTwinReleaseRx port f s
  | .twinHandoverProceed => Sys2Proof.Machine.execTwinHandoverProceed s
  | .twinAliasDataRead => Sys2Proof.Machine.execTwinAliasDataRead s
  | .twinPair m => Sys2Proof.Machine.execTwinPair m s
  | .twinDetach m => Sys2Proof.Machine.execTwinDetach m s
  | .twinProtect m => Sys2Proof.Machine.execTwinProtect m s
  | .twinStatus m => Sys2Proof.Machine.execTwinStatus m s
  | .twinPolicy m => Sys2Proof.Machine.execTwinPolicy m s
  | .powerSample mv ma => Sys2Proof.Machine.execPowerSample mv ma s
  | .thermalSample temps powers => Sys2Proof.Machine.execThermalSample temps powers s
  | .throttleTimer => Sys2Proof.Machine.execThrottleTimer s
  | .railFault rail => Sys2Proof.Machine.execRailFault rail s
  | .converterFail n => Sys2Proof.Machine.execConverterFail n s
  | .vin48Undervolt => Sys2Proof.Machine.execVin48Undervolt s
  | .vin48Overvolt => Sys2Proof.Machine.execVin48Overvolt s
  | .pwrLimit m => Sys2Proof.Machine.execPwrLimit m s
  | .pwrStatus m => Sys2Proof.Machine.execPwrStatus m s
  | .smbRead addr off word => Sys2Proof.Machine.execSmbRead addr off word s
  | .smbWrite addr off val => Sys2Proof.Machine.execSmbWrite addr off val s
  | .smbAlertResponse => Sys2Proof.Machine.execSmbAlertResponse s
  | .jtagBypass bits => Sys2Proof.Machine.execJtagBypass bits s
  | .jtagIdcode => Sys2Proof.Machine.execJtagIdcode s
  | .jtagSample pins => Sys2Proof.Machine.execJtagSample pins s
  | .jtagExtest pins => Sys2Proof.Machine.execJtagExtest pins s
  | .jtagFlashProg bank off data => Sys2Proof.Machine.execJtagFlashProg bank off data s
  | .h0LinkUp speed width => Sys2Proof.Machine.execH0LinkUp speed width s
  | .h0PerstAssert => Sys2Proof.Machine.execH0PerstAssert s
  | .modRstAssert dur => Sys2Proof.Machine.execModRstAssert dur s
  | .ltepochLoss => Sys2Proof.Machine.execLtepochLoss s
  | .portFrameSend port => Sys2Proof.Machine.execPortFrameSend port s
  | .cxlCacheSnoop line => Sys2Proof.Machine.execCxlCacheSnoop line s
  | .twinPairTimeout => Sys2Proof.Machine.execTwinPairTimeout s
  | .loopTestEnd port locked errs compared uncorr => Sys2Proof.Machine.execLoopTestEnd port locked errs compared uncorr s
  | .codeCacheFill core slot => Sys2Proof.Machine.execCodeCacheFill core slot s
  | .hbmArrayTestEnd stack banks pcs first => Sys2Proof.Machine.execHbmArrayTestEnd stack banks pcs first s
  | .coreTestEnd die units failed first => Sys2Proof.Machine.execCoreTestEnd die units failed first s
  | .d2dTestEnd die fails => Sys2Proof.Machine.execD2dTestEnd die fails s
  | .hbmReturnDone stack pass => Sys2Proof.Machine.execHbmReturnDone stack pass s
  | .bufClearDone half => Sys2Proof.Machine.execBufClearDone half s
  | .flashProgramDone ok => Sys2Proof.Machine.execFlashProgramDone ok s

end Sys2Proof.Machine
end

