-- ==== Sys2Proof/Machine/Idle.lean ====
section
/-! DEFINITION. The tick: what the block does while no command waits. -/

namespace Sys2Proof.Machine

/-- One ns passes in the powered module: its clock advances, and LT with it unless it pauses (R48, R49, R57) or the module is held in reset (R688). -/
def tick (m : Chip) : Chip :=
  { m with ns := m.ns + 1, lt := if m.start.phase = 0 then m.lt else if m.lt.pause = 0 then { m.lt with lt := (m.lt.lt + 1) % 2 ^ 64 } else { m.lt with pause := m.lt.pause - 1 } }

/-- The idle block (assumption 4): a powered module ticks, one without its rails stays as it is. -/
def idle (s : State) : State := if s.board.rails then { s with chip := tick s.chip } else s

end Sys2Proof.Machine
end

