-- ==== Sys2Proof/Safety.lean ====
section
/-! DEFINITION. What counts as a safe run, and the terms in which the statements about commands are made: what a command does before the end of its step, what
the end of a step leaves alone, and when an instruction of a core issues. -/

namespace Sys2Proof

open Sys2Proof.Machine

/-- A step ends in a next state. -/
def completes (o : Host.Outcome State Fault Refusal) : Bool :=
  match o with
  | .next _ => true
  | _ => false

/-- The first n steps from a state all end in a next state. -/
def safeFor : Nat → State → Bool
  | 0, _ => true
  | n + 1, s => match step s with
    | .next t => safeFor n t
    | _ => false

/-- The command answers a next state: the machine m with what ends every step (the records and notices noted, the size table, the links' view), the board and
the queue as they were. -/
def Does (c : Instr) (s : State) (m : Chip) : Prop := exec c s = .next { s with chip := settle m }

/-- The command answers a next state whose machine, before what ends every step, has P. -/
def Gives (c : Instr) (s : State) (P : Chip → Prop) : Prop := ∃ m, Does c s m ∧ P m

/-- The fields that the end of a step never changes are equal in a and b: the latches, the time, the stacks, the waiting answers, line time and the
timetable, the mailboxes, power, the ports, the cores and launches, the consist, the refill times and the points unit; the start logic but for recDue and
twinning but for its dirty pages. -/
structure Kept (a b : Chip) : Prop where
  latch : b.latch = a.latch
  hiHeld : b.hiHeld = a.hiHeld
  out : b.out = a.out
  ns : b.ns = a.ns
  stks : b.stks = a.stks
  resps : b.resps = a.resps
  lt : b.lt = a.lt
  rows : b.rows = a.rows
  mb : b.mb = a.mb
  mbOrder : b.mbOrder = a.mbOrder
  pwr : b.pwr = a.pwr
  ports : b.ports = a.ports
  cores : b.cores = a.cores
  code : b.code = a.code
  launches : b.launches = a.launches
  launchId : b.launchId = a.launchId
  launchOrder : b.launchOrder = a.launchOrder
  placeRing : b.placeRing = a.placeRing
  con : b.con = a.con
  refillAt : b.refillAt = a.refillAt
  pts : b.pts = a.pts
  start : { b.start with recDue := false } = { a.start with recDue := false }
  twin : { b.twin with dirty := [] } = { a.twin with dirty := [] }

/-- Nothing waits to be written at the end of the step: no record, notice or counter overflow, and no start record. -/
def Quiet (m : Chip) : Prop := m.err.due = [] ∧ m.err.ovf = [] ∧ m.start.recDue = false

/-- The group g of a block b in a slot of core c issues the word: the module acts, the word stands at the group's PC and no interlock holds it, and it is neither
reserved nor beyond the block's registers. -/
structure Issues (s : State) (c slot : Nat) (word : BitVec 64) (g : Grp) (b : Blk) : Prop where
  acts : acts s = true
  can : canIssue s.chip c slot word.toNat [iOp word.toNat] = true
  grp : grp s.chip c slot = some g
  blk : blk s.chip c g.blk = some b
  legal : illegal word.toNat = false
  inRange : outOfRange b.regs word.toNat = false

/-- The instruction writes DST of each acting thread with that thread's value, moves on, and changes nothing else. -/
def Writes (c : Instr) (s : State) (core_ slot : Nat) (word : BitVec 64) (g : Grp) (val : Nat → Nat) : Prop :=
  Does c s (setGrp s.chip core_ slot (some (advance (perThread g (acting word.toNat g) (iDst word.toNat) val))))

/-- A register of a thread as 32 bits. -/
def reg32 (g : Grp) (f t : Nat) : BitVec 32 := BitVec.ofNat 32 (rget g f t)

/-- A pair of registers of a thread as 64 bits, low word first. -/
def reg64 (g : Grp) (f t : Nat) : BitVec 64 := BitVec.ofNat 64 (rget64 g f t)

/-- The commands of the board: VIN48, the resets, the management bus and the test access port act on pins and stores that are there without the module's rails, and the thermal model is hardware
that works on in a role-fatal module. -/
def boardRow : Instr → Bool
  | .vin48Rise _ | .vin48Undervolt | .vin48Overvolt | .modRstAssert _ | .modRstRelease | .h0PerstAssert | .h0PerstRelease | .h0HotReset | .miotoWatchdogExpire
  | .thermalSample _ _ | .smbRead _ _ _ | .smbWrite _ _ _ | .smbAlertResponse | .jtagBypass _ | .jtagIdcode | .jtagSample _ | .jtagExtest _
  | .jtagFlashProg _ _ _ => true
  | _ => false

/-- Power is in order: with its rails off the module has no state, and its rails are on only while VIN48 is in range, VSB is up and no trip is latched (R2, R772,
R775, R783). -/
def PowerInv (s : State) : Prop :=
  (s.board.rails = false → s.chip = Chip.off) ∧
  (s.board.rails = true → s.board.vin = true ∧ s.board.vsb = true ∧ s.board.trip = false)

end Sys2Proof
end

