-- ==== Sys2Proof/Certificates/Slice0/Obligations.lean ====
section
/-! DEFINITION. The statements about the SY9240 for the provers. Each says in its docstring what it states and the rules of the spec that it formalises. -/

open Sys2Proof Sys2Proof.Machine

/-! ### The block -/

/-- Taking the command at the front of the queue is running it with the rest of the queue. -/
def Obligations.StepRunsFrontCommand : Prop :=
  ∀ (c : Instr) (r : List Instr) (s : State), s.pending = c :: r → step s = exec c { s with pending := r }

/-- With no command waiting one ns passes in a powered module (the model's choice, assumption 4): LT counts it unless LT pauses or the module is held in reset; a module
without its rails stays as it is. -/
def Obligations.EmptyQueueLetsTimePass : Prop :=
  ∀ s : State, s.pending = [] →
    (s.board.rails = false → step s = .next s) ∧
    (s.board.rails = true → s.chip.start.phase = 0 → step s = .next { s with chip := { s.chip with ns := s.chip.ns + 1 } }) ∧
    (s.board.rails = true → s.chip.start.phase ≠ 0 → s.chip.lt.pause = 0 →
      step s = .next { s with chip := { s.chip with ns := s.chip.ns + 1, lt := { s.chip.lt with lt := (s.chip.lt.lt + 1) % 2 ^ 64 } } }) ∧
    (s.board.rails = true → s.chip.start.phase ≠ 0 → 0 < s.chip.lt.pause →
      step s = .next { s with chip := { s.chip with ns := s.chip.ns + 1, lt := { s.chip.lt with pause := s.chip.lt.pause - 1 } } })

/-- No command stops the block, whatever the state: every run of any length completes.
Where the rules leave room it rests on the model's own choices, log entry 8. -/
def Obligations.EveryRunCompletes : Prop := ∀ (n : Nat) (s : State), safeFor n s = true

/-- Every step keeps power in order. -/
def Obligations.PowerOrderKept : Prop := ∀ s t : State, PowerInv s → step s = .next t → PowerInv t

/-- A command leaves the queue alone: the state it answers has the queue that it was run with.
A module that does not act (its rails are off, it is held in reset, or it is role-fatal) is left as it is by every command but those of the board.
Where the rules leave room it rests on the model's own choices, log entry 8. -/
def Obligations.CommandsLeaveQueueAndStillModule : Prop :=
  (
    ∀ (c : Instr) (s t : State), exec c s = .next t → t.pending = s.pending) ∧
  (
    ∀ (c : Instr) (s : State), acts s = false → boardRow c = false → exec c s = .next s)

/-! ### Control space -/

/-- What a write of v to a defined register leaves in its fields (R28, with the types of R24): an RW field takes a legal encoding and keeps its value where the encoding is
reserved, an RW1C field clears the bits written 1, an RO or WO field stores nothing; no other register changes. D2D_MAP_SEL, whose INDEX also depends on UNIT (R583), is
left out. -/
def Obligations.RegisterFieldsObeyTheirTypes : Prop :=
  ∀ (m : Chip) (off v : Nat) (fs : List FDef) (f : FDef), regFields off = some fs → f ∈ fs → off ≠ D2D_MAP_SEL_UNIT.off →
    (f.ty = .rw → f.ok (bitsN v f.hi f.lo) = true → fget (writeFields m off v) ⟨off, f.hi, f.lo⟩ = bitsN v f.hi f.lo) ∧
    (f.ty = .rw → f.ok (bitsN v f.hi f.lo) = false → fget (writeFields m off v) ⟨off, f.hi, f.lo⟩ = fget m ⟨off, f.hi, f.lo⟩) ∧
    (f.ty = .w1c → fget (writeFields m off v) ⟨off, f.hi, f.lo⟩ =
      fget m ⟨off, f.hi, f.lo⟩ - (fget m ⟨off, f.hi, f.lo⟩ &&& bitsN v f.hi f.lo)) ∧
    (f.ty = .ro ∨ f.ty = .wo → fget (writeFields m off v) ⟨off, f.hi, f.lo⟩ = fget m ⟨off, f.hi, f.lo⟩) ∧
    (∀ p, p ≠ off → csr (writeFields m off v) p = csr m p)

/-- Accesses to control space complete: a plain register takes a write field by field; a read of a pair's _LO latches the _HI word that the next read of _HI returns, and any
other defined register is read as it stands; a 1 written to a counter's OVF clears it and the counter; an access that is not an aligned 32-bit one, and one where no
register is defined, end with an error (no answer) and change no register, the latter with a record of KIND 7 (R24, R26, R29, R31, R823).
Where the rules leave room it rests on the model's own choices, log entry 11. -/
def Obligations.ControlSpaceAccesses : Prop :=
  ∀ s : State, acts s = true →
    (∀ off v, off % 4 = 0 → regDefined off = true → isCtrLo off = false → isCtrHi off = false → ownRow s.chip off v.toNat = false → off ≠ 0x30008 → off ≠ 0x3000C →
      off ≠ TT_CTRL_ARM.off → runIndex 0x40100 4 64 off = none → runIndex 0x60100 0x100 24 off = none →
      Does (.registerWrite off v) s (writeFields s.chip off v.toNat)) ∧
    (∀ off, off % 4 = 0 → regDefined off = true → isPairLo off = true →
      Does (.readLoLatch off) s { s.chip with latch := tput 0 (off + 4) (regRead s.chip (off + 4) + 1) s.chip.latch, out := some (regRead s.chip off) }) ∧
    (∀ off h, off % 4 = 0 → regDefined off = true → isPairLo off = false → isPairHi off = true → tget 0 off s.chip.latch = h + 1 →
      Does (.readLoLatch off) s { s.chip with latch := tput 0 off 0 s.chip.latch, out := some h }) ∧
    (∀ off, off % 4 = 0 → regDefined off = true → isPairLo off = false → isPairHi off = false →
      Does (.readLoLatch off) s { s.chip with out := some (regRead s.chip off) }) ∧
    (∀ off v, isCtrHi off = true → tb v.toNat 31 = true → Does (.counterOvfClear off v) s (setCsr (setCsr s.chip off 0) (off - 4) 0)) ∧
    (∀ off n w, (n ≠ 4 ∨ off % 4 ≠ 0) → Does (.ctrlAccessError off n w) s { s.chip with out := none }) ∧
    (∀ off w, off % 4 = 0 → regDefined off = false →
      Does (.undefinedRegAccess off w) s (recErr { s.chip with out := none } 1 8 7 0 (5, 0, 0) off 3 0 0 0))

/-- A 48-bit counter stops at its largest value and the increment that would pass it sets OVF; below that it adds. No register but its pair changes (R761). -/
def Obligations.CountersSaturate : Prop :=
  ∀ (m : Chip) (o n : Nat), cget m o < 2 ^ 48 →
    cget (bump m o n) o = min (cget m o + n) (2 ^ 48 - 1) ∧
    tb (csr (bump m o n) (o + 4)) 31 = (tb (csr m (o + 4)) 31 || decide (2 ^ 48 ≤ cget m o + n)) ∧
    (∀ p, p ≠ o → p ≠ o + 4 → csr (bump m o n) p = csr m p)

/-- What ends a step leaves a quiet machine alone but for words 15 to 20 of the size table, its GENERATION and the three link bits of TWIN_STAT: no other register, no byte
of memory and no other state changes.
Where the rules leave room it rests on the model's own choices, log entry 10. -/
def Obligations.QuietStepEnd : Prop :=
  ∀ m : Chip, Quiet m →
    (∃ t, settle m = { m with csr := t }) ∧
    (∀ off, off ≠ 0x404 → (off < 0x43C ∨ 0x454 ≤ off) → off ≠ TWIN_STAT_STATE.off → csr (settle m) off = csr m off) ∧
    (∀ f : Fld, f.off = TWIN_STAT_STATE.off → f.lo ≤ f.hi → f.hi < 32 →
      (∀ g : Fld, g = TWIN_STAT_P17_UP ∨ g = TWIN_STAT_P34_UP ∨ g = TWIN_STAT_QUORUM_OK → f.hi < g.lo ∨ g.hi < f.lo) → fget (settle m) f = fget m f)

/-! ### Line time -/

/-- Entering another lock state sets STATE, notes LOCK_LOST on an exit from SYSTEM other than to HOLDOVER, and makes the LT_STATE notice; LT, the timetable and every register
but TT_LT_STAT and TT_CTRL stay. Entering the state one is in does nothing.
The clock inputs of line time: LTREF's lock, with a lock requested, takes LT from UNLOCKED to FREQ, and its loss takes SYSTEM to HOLDOVER and FREQ and EPOCH to UNLOCKED
(R55); the loss of LTEPOCH takes EPOCH to FREQ (R64); each sets or clears its STAT bit. Past the limit of HOLDOVER the module falls to FREQ, or to UNLOCKED without
LTREF, with HOLDOVER_EXPIRED (R60). Every change of state brings the LT_STATE notice.
Where the rules leave room it rests on the model's own choices, log entry 14. -/
def Obligations.LockStateFollowsClockInputs : Prop :=
  (
    ∀ (m : Chip) (st : Nat), st < 8 →
      (ltState m = st → ltEnter m st = m) ∧
      ltState (ltEnter m st) = st ∧
      (ltState m = 3 → st ≠ 3 → st ≠ 4 → fon (ltEnter m st) TT_LT_STAT_LOCK_LOST = true) ∧
      (ltState m ≠ st → ∃ b, (ltEnter m st).err.due = m.err.due ++ [(7, b)]) ∧
      (ltEnter m st).lt.lt = m.lt.lt ∧ (ltEnter m st).rows = m.rows ∧
      (∀ off, off ≠ TT_LT_STAT_STATE.off → off ≠ TT_CTRL_ARM.off → csr (ltEnter m st) off = csr m off)) ∧
  (
    ∀ s : State, acts s = true →
      (ltState s.chip = 0 → s.chip.lt.wanted = true → Does .ltrefLock s (ltEnter (fset s.chip TT_LT_STAT_LTREF_OK 1) 1)) ∧
      ((ltState s.chip ≠ 0 ∨ s.chip.lt.wanted = false) → Does .ltrefLock s (fset s.chip TT_LT_STAT_LTREF_OK 1)) ∧
      (∀ st to_, ltState s.chip = st → (st = 3 ∧ to_ = 4 ∨ (st = 1 ∨ st = 2) ∧ to_ = 0) →
        Does .ltrefLoss s (ltEnter (fset { s.chip with lt := { s.chip.lt with extRef := false } } TT_LT_STAT_LTREF_OK 0) to_)) ∧
      (ltState s.chip = 2 →
        Does .ltepochLoss s (ltEnter (fset { s.chip with lt := { s.chip.lt with extRef := false, lastPulse := none } } TT_LT_STAT_LTEPOCH_OK 0) 1)) ∧
      (ltState s.chip ≠ 2 →
        Does .ltepochLoss s (fset { s.chip with lt := { s.chip.lt with extRef := false, lastPulse := none } } TT_LT_STAT_LTEPOCH_OK 0)) ∧
      (ltState s.chip = 4 → fget s.chip TT_HOLDOVER_LIMIT < s.chip.lt.held → s.chip.lt.extRef = false →
        Does .holdoverExpire s (ltEnter (fset s.chip TT_LT_STAT_HOLDOVER_EXPIRED 1) (if fon s.chip TT_LT_STAT_LTREF_OK then 1 else 0))))

/-- A pulse on LTEPOCH: outside SYSTEM LT is aligned to the nearer multiple of 2^20, forward at once or by a pause (R49); in SYSTEM a pulse more than 2 lt from the boundary is an
EPOCH_SLIP, counted, and LT stays (R62). A pulse 2^20 ns after the last one sets LTEPOCH_OK, and with LTREF takes FREQ to EPOCH (R55).
Markers: a MARK_REQ on a port whose link is in LOCK or above is answered on that port with the arrival time in 1/16 lt, this module's HOPS (0xFF outside SYSTEM and
HOLDOVER) and lock state (R519, R520); a MARK_REP on a port that may lead to a parent notes the neighbour's HOPS and STATE (R61), and from EPOCH on the parent's goes into the filter
of R52: the first offset as it is, later ones by a sixteenth of the difference, truncating.
Where the rules leave room it rests on the model's own choices, log entry 14. -/
def Obligations.EpochPulseAndMarkers : Prop :=
  (
    ∀ s : State, acts s = true →
      (ltState s.chip = 3 → 2 < s.chip.lt.lt % 2 ^ 20 → s.chip.lt.lt % 2 ^ 20 < 2 ^ 20 - 2 →
        ∃ t, exec .ltepochPulse s = .next t ∧ t.chip.lt.lt = s.chip.lt.lt ∧ t.chip.lt.pause = s.chip.lt.pause ∧ t.chip.lt.lastPulse = some s.chip.ns) ∧
      (ltState s.chip ≠ 3 → 0 < s.chip.lt.lt % 2 ^ 20 → s.chip.lt.lt % 2 ^ 20 < 2 ^ 19 →
        ∃ t, exec .ltepochPulse s = .next t ∧ t.chip.lt.lt = s.chip.lt.lt ∧ t.chip.lt.pause = s.chip.lt.pause + s.chip.lt.lt % 2 ^ 20) ∧
      (ltState s.chip ≠ 3 → 2 ^ 19 ≤ s.chip.lt.lt % 2 ^ 20 →
        ∃ t, exec .ltepochPulse s = .next t ∧ t.chip.lt.lt = (s.chip.lt.lt + (2 ^ 20 - s.chip.lt.lt % 2 ^ 20)) % 2 ^ 64 ∧ t.chip.lt.pause = s.chip.lt.pause)) ∧
  (
    ∀ s : State, acts s = true → ∀ p sub, p < 36 → 3 ≤ linkSt s.chip p →
      Does (.markReqRx p sub) s (sendCtl s.chip p 2 (lohi ((s.chip.lt.lt * 16 + sub % 16) % 2 ^ 64) ++
        [0, 0, (if ltState s.chip = 3 ∨ ltState s.chip = 4 then fget s.chip TT_LT_STAT_HOPS else 0xFF) + ltState s.chip * 256, 0, 0, 0])) ∧
      (∀ t2 t3 hops st, 3 < linkSt s.chip p → parentPort p = true → fon s.chip TT_CTRL_ROOT = false → s.chip.lt.parent ≠ some p →
        Does (.markRepRx p t2 t3 hops st sub) s { s.chip with lt := { s.chip.lt with heard := tput (0, 0) p (hops + 1, st + 1) s.chip.lt.heard } }) ∧
      (∀ t2 t3 hops st, 3 < linkSt s.chip p → parentPort p = true → fon s.chip TT_CTRL_ROOT = false → s.chip.lt.parent = some p → 2 ≤ ltState s.chip →
        ∃ t, exec (.markRepRx p t2 t3 hops st sub) s = .next t ∧ t.chip.lt.marked = true ∧ t.chip.lt.lt = s.chip.lt.lt ∧
          (let off := ((Int.ofNat t2 - Int.ofNat (tget 0 p s.chip.lt.sent)) - (Int.ofNat (s.chip.lt.lt * 16 + sub % 16) - Int.ofNat t3)).tdiv 2
           t.chip.lt.filtered = if s.chip.lt.fresh then off else s.chip.lt.filtered + (off - s.chip.lt.filtered).tdiv 16)))

/-- An epoch boundary that is due completes and is taken once: the number of the epoch that has begun is noted, and HOLDOVER counts the epoch (R60, R65). While the start has
not reached Mioto, line time alone acts; then the audits come first, and ARM and the default rows (READY), the twin's part and the power step follow line time's. The 64 epochs of a TT.LOCK end it with TT_NOLOCK and the lock state.
Where the rules leave room it rests on the model's own choices, log entries 4 and 14. -/
def Obligations.EpochBoundaryTaken : Prop :=
  ∀ s : State, acts s = true →
    (epochDue s.chip = true → s.chip.start.phase < 4 →
      ∃ t, exec .epochBoundary s = .next t ∧ t.chip.lt.hkEpoch = t.chip.lt.lt / 2 ^ 20 ∧ epochDue t.chip = false ∧ t.chip.rows = s.chip.rows ∧
        t.chip.lt.marked = false ∧ t.chip.lt.heard = []) ∧
    (epochDue s.chip = true → 4 ≤ s.chip.start.phase →
      (let begun (c : Chip) : Chip := { c with lt := { c.lt with hkEpoch := c.lt.lt / 2 ^ 20 } }
       let m := begun (ltEpoch (begun (auditAll (newEpoch s.chip))))
       Does .epochBoundary s (powerEpoch (twinEpoch (if m.start.phase = 5 then postDefaults (armSet m) else m))))) ∧
    (∀ q, s.chip.lt.lock = some q → q.left = 0 →
      Does .ttLockTimeout s (respond { s.chip with lt := { s.chip.lt with lock := none } } q.m 0x0203 [csr s.chip TT_LT_STAT_STATE.off]))

/-! ### Timetable rows -/

/-- A row's arm point: 4,096 lt before its start a PENDING row becomes ARMED with its words, start and counts as they were (R77), its block loaded and checked then; with
ARM 0 the occurrence is skipped and counted (R78, the model's choice at the arm point: log entry 12); one of Mioto's windows that conflicts with software's moves on (R68, log entry 13). -/
def Obligations.RowArmsBeforeItsStart : Prop :=
  ∀ s : State, acts s = true → ∀ k r, rowAt s.chip k = some r → r.st = .pending → r.start ≤ now s.chip + 4096 →
    ((r.mioto = false ∨ miotoBlocked s.chip r r.start = false) → fon s.chip TT_CTRL_ARM = true →
      ∃ t r', exec (.rowArm k) s = .next t ∧ rowAt t.chip k = some r' ∧ r'.st = .armed ∧ r'.w = r.w ∧ r'.start = r.start ∧ r'.base = r.base ∧
        r'.run = r.run ∧ r'.skipped = r.skipped ∧ (∀ j, j ≠ k → rowAt t.chip j = rowAt s.chip j)) ∧
    ((r.mioto = false ∨ miotoBlocked s.chip r r.start = false) → fon s.chip TT_CTRL_ARM = false → Does (.rowArm k) s (skipOccurrence s.chip k r)) ∧
    (r.mioto = true → miotoBlocked s.chip r r.start = true → rowKind r.w ≠ 7 →
      ∃ t, exec (.rowArm k) s = .next t ∧ rowAt t.chip k = some { r with
        start := fitStart 4096 s.chip r (r.start + (if rowKind r.w = 4 then 16384 else 2 ^ 20)) (if rowKind r.w = 4 then 16384 else 2 ^ 20) })

/-- A window opens at its start: the ARMED row becomes ACTIVE, and its unit acts: Despatch reads the ready word (SLOT, EXCHANGE; R93), the source entries are free (RECV; R71,
R544), the refresh passes run (R444), the status bits of a possession rise (R90), the throttle step is taken (R791, R792), the journal captures (R712), the word of a SIGNAL row takes its
atomic (R421), the time mark is recorded (R656). A row that needs the fabric is skipped outside SYSTEM and HOLDOVER (R81).
Where the rules leave room it rests on the model's own choices, log entry 26. -/
def Obligations.WindowsOpenAtTheirStart : Prop :=
  ∀ s : State, acts s = true → ∀ k r, rowAt s.chip k = some r → r.st = .armed → r.start ≤ now s.chip →
    (let a : TtRow := { r with st := .active }
     let m := setRow s.chip k (some a)
     (ltLocked s.chip = true → rowKind r.w = 1 → Does (.slotWindowOpen k) s (sendOpen k a m)) ∧
     (ltLocked s.chip = true → rowKind r.w = 3 → Does (.exchangeWindowOpen k) s (sendOpen k a m)) ∧
     (ltLocked s.chip = true → rowKind r.w = 2 → ∃ t, exec (.recvWindowOpen k) s = .next t ∧ rowAt t.chip k = some { a with srcs := [] }) ∧
     (rowKind r.w = 4 → Does (.refreshWindowOpen k) s (refreshPasses (rowIndex r.w) m)) ∧
     (rowKind r.w = 5 → Does (.possessionWindowOpen k) s (possBits a 1 m)) ∧
     (rowKind r.w = 6 → Does (.throttleWindowOpen k) s (throttleAct m)) ∧
     (ltLocked s.chip = true → rowKind r.w = 7 → Does (.journalWindowOpen k) s (journalOpen a m)) ∧
     (rowKind r.w = 8 → Does (.signalRowFire k) s (signalFire a m)) ∧
     (rowKind r.w = 9 → Does (.markRowFire k) s (ttEvent m ([2 ^ 28 + rowTag r.w, r.run, 0] ++ lohi r.start))) ∧
     (ltLocked s.chip = false →
       (rowKind r.w = 1 → Does (.slotWindowOpen k) s (skipOccurrence s.chip k r)) ∧ (rowKind r.w = 2 → Does (.recvWindowOpen k) s (skipOccurrence s.chip k r)) ∧
       (rowKind r.w = 3 → Does (.exchangeWindowOpen k) s (skipOccurrence s.chip k r)) ∧ (rowKind r.w = 7 → Does (.journalWindowOpen k) s (skipOccurrence s.chip k r))))

/-- A window ends LENGTH after its start: what a SLOT or EXCHANGE has not sent makes its contribution void (R98), and the wagons it sent are counted (R330); a possession's bits fall (R90), and the occurrence counts as run.
A receive window closes once its requests are settled; a bad one has no effect but its end (R74, R75). A void contribution under OMIT whose ready word comes before
the close is counted once (R96). Up to 32 lines of one base die leave in an ACTIVE window (R375, R376).
Where the rules leave room it rests on the model's own choices, log entries 26 and 27. -/
def Obligations.WindowsCloseAtTheirEnd : Prop :=
  ∀ s : State, acts s = true → ∀ k r, rowAt s.chip k = some r → r.st = .active →
    (rowEnd r ≤ now s.chip →
      ((rowKind r.w = 1 ∨ rowKind r.w = 3) → (r.void = true ∨ allSent r = true) →
        Does (.rowWindowEnd k) s (endOccurrence (bump s.chip CON_WAGON_CTR ((nth r.sent 0 + 31) / 32 + (nth r.sent 1 + 31) / 32)) k r true)) ∧
      ((rowKind r.w = 1 ∨ rowKind r.w = 3) → r.void = false → allSent r = false →
        Does (.rowWindowEnd k) s (let m1 := bump (voidRow s.chip k r) CON_WAGON_CTR ((nth r.sent 0 + 31) / 32 + (nth r.sent 1 + 31) / 32)
          endOccurrence m1 k ((rowAt m1 k).getD r) true)) ∧
      ((rowKind r.w = 4 ∨ rowKind r.w = 6 ∨ rowKind r.w = 8 ∨ rowKind r.w = 9) → Does (.rowWindowEnd k) s (endOccurrence s.chip k r true)) ∧
      (rowKind r.w = 5 → Does (.rowWindowEnd k) s (possEnd k r s.chip)) ∧
      (rowKind r.w = 2 → windowBusy s.chip k = false → r.bad = true → Does (.recvWindowClose k) s (endOccurrence s.chip k r true)) ∧
      (rowKind r.w = 2 → windowBusy s.chip k = false → r.bad = false → (recvRecord s.chip r).2 = false →
        Does (.recvWindowClose k) s (endOccurrence (incWord (mioStore (r.moves.foldl placeRound (ownPart r (poisonParts r s.chip))) (some (ownRowTag r)) (parDa r.par 5)
          (wordBytes (recvRecord s.chip r).1)) (ownRowTag r) (parDa r.par 7)) k r true))) ∧
    (lateWatched s.chip r = true → (readyNow s.chip k r).1 = true →
      Does (.lateReadyOmit k) s (modRow (bump (readyNow s.chip k r).2 TT_OMIT_CTR 1) k (fun x => { x with counted := true }))) ∧
    (∀ d, d < 2 → despatching s.chip k = true → Does (.despatchWagon k d) s (sendLines 32 k d s.chip))

/-- The end of an occurrence (R76): while COUNT has not been reached and no TT.CANCEL came, a periodic row returns to PENDING one PERIOD later with its counts; else it retires, FREE. -/
def Obligations.RowReturnsOrRetires : Prop :=
  ∀ (m : Chip) (k : Nat) (r : TtRow) (ran : Bool),
    (let n := r.run + r.skipped + 1
     (rowPeriod r.w ≠ 0 ∧ r.cancelled = false ∧ (rowCount r.w = 0 ∨ n < rowCount r.w) →
       ∃ r', rowAt (endOccurrence m k r ran) k = some r' ∧ r'.st = .pending ∧ r'.w = r.w ∧ r'.start = r.base + rowPeriod r.w * 64 ∧
         r'.run = r.run + b2n ran ∧ r'.skipped = r.skipped + b2n (!ran) ∧ r'.mioto = r.mioto) ∧
     (¬ (rowPeriod r.w ≠ 0 ∧ r.cancelled = false ∧ (rowCount r.w = 0 ∨ n < rowCount r.w)) → rowAt (endOccurrence m k r ran) k = none) ∧
     (∀ j, j ≠ k → rowAt (endOccurrence m k r ran) j = rowAt m j))

/-! ### Mailboxes: the response, and the commands of the timetable -/

/-- R629: every response begins with its status and length, the request's TAG and DETAIL, 0 unless the command states otherwise, and its payload follows from word 3; STATE is then DONE and the mailbox
holds no command, and the other mailboxes keep theirs (R622, R625). -/
def Obligations.ResponseWordsAsGiven : Prop :=
  ∀ (m : Chip) (i st d : Nat) (pay : List Nat), i < 4 → st < 2 ^ 16 → pay.length ≤ 509 →
    (let t := respondD m i st d pay
     let w (k : Nat) : Nat := csr t (0xA1800 + 0x1000 * i + 4 * k)
     bitsN (w 0) 31 16 = st ∧ bitsN (w 0) 15 9 = 0 ∧ bitsN (w 0) 8 0 = pay.length ∧ w 1 = reqWord m i 1 ∧ w 2 = d ∧
     (∀ k, k < pay.length → w (k + 3) = nth pay k) ∧ fget t (MBm_STAT_STATE i) = 2 ∧ mbRun t i = none ∧ (∀ j, j ≠ i → mbRun t j = mbRun m j) ∧
     respond m i st pay = respondD m i st 0 pay)

/-- The commands of the timetable (R63, R64, R79, R86 to R89, R661): TT.LOCK starts a lock of 64 epochs under the root named; TT.NOW answers LT and the lock state; TT.SCHEDULE
expands its template into rows, or answers the first failing check; TT.POST takes all rows or none; TT.CANCEL ends a row that no row spills to; TT.LIST answers up to 56 rows; TT.ARM sets ARM
and answers what it was.
Where the rules leave room it rests on the model's own choices, log entries 15 and 44. -/
def Obligations.TimetableCommands : Prop :=
  ∀ s : State, acts s = true → ∀ i,
    (let p := cmdPay s.chip i
     (cmdReady s.chip i 0x0201 = true → fon s.chip TT_CTRL_ARM = false →
       (moduleNum s.chip ≠ some (nth p 0) ∨ now s.chip / 2 ^ 20 + 64 ≤ nth p 1 + bitsN (nth p 2) 11 0 * 2 ^ 32) →
       ∃ t, exec (.ttLock i) s = .next t ∧ t.chip.lt.lock = some ⟨i, nth p 0, nth p 1 + bitsN (nth p 2) 11 0 * 2 ^ 32, 64⟩ ∧
         t.chip.lt.wanted = true ∧ t.chip.lt.parent = none ∧ cmdGoing t.chip i 0x0201 = true) ∧
     (cmdReady s.chip i 0x0202 = true → Does (.ttNow i) s (respond s.chip i 0 (lohi (now s.chip) ++ [csr s.chip TT_LT_STAT_STATE.off]))) ∧
     (cmdReady s.chip i 0x0203 = true →
       (let xs := schSteps s.chip p
        let b := buildAll p xs
        schFieldBad p = false → (b.1.rows.any (fun r => r.len == 0 || decide (65535 < r.len) || rowTag r.w == 0)) = false → shapeBad s.chip p xs b.1 = false →
        (∀ e, postChecks s.chip (b.1.rows.map (fun r => (r.w, r.par))) = some e → Does (.ttSchedule i) s (respondD s.chip i e.1 e.2 [])) ∧
        (postChecks s.chip (b.1.rows.map (fun r => (r.w, r.par))) = none →
          Does (.ttSchedule i) s (respond (b.1.rows.foldl (fun c r => addRow c r.row) (writeWork s.chip p xs b.1)) i 0
            ([b.1.rows.length, (schTag p + b.1.rows.length - 1) * 2 ^ 16 + schTag p] ++ lohi (b.2 * 64) ++ [workBytes xs b.1]))))) ∧
     (cmdReady s.chip i 0x0204 = true →
       (let r := readParams s.chip (postRows p)
        (∀ e, postChecks r.2 r.1 = some e → Does (.ttPost i) s (respondD r.2 i e.1 e.2 [])) ∧
        (postChecks r.2 r.1 = none → Does (.ttPost i) s (respond (r.1.foldl (fun c q => addRow c (newRow q.1 q.2 false)) r.2) i 0 [])))) ∧
     (cmdReady s.chip i 0x0205 = true → ∀ k r, (softRows s.chip).find? (fun e => rowTag e.2.w == nth p 0) = some (k, r) →
       (∀ e ∈ rowsOf s.chip, rowSpill e.2.w ≠ nth p 0) →
       (r.st = .active → Does (.ttCancel i) s (respond (setRow s.chip k (some { r with cancelled := true })) i 0 [])) ∧
       (r.st ≠ .active → Does (.ttCancel i) s (respond (retire s.chip k r) i 0 []))) ∧
     (cmdReady s.chip i 0x0206 = true →
       (let l := (rowsOf s.chip).filter (fun e => decide (nth p 0 ≤ e.1))
        let rs := l.take 56
        Does (.ttList i) s (respond s.chip i 0 ((rs.length * 2 ^ 16 + (if l.length ≤ 56 then 4096 else ((rs.getLast?).map (fun e => e.1 + 1)).getD 4096)) ::
          rs.flatMap (fun e => (rowStCode e.2 * 2 ^ 28 + e.1) :: e.2.w))))) ∧
     (cmdReady s.chip i 0x0207 = true → (nth p 0 ≠ 1 ∨ (ltLocked s.chip = true ∧ fget s.chip TWIN_STAT_STATE ≠ 6 ∧ fget s.chip TWIN_STAT_STATE ≠ 7)) →
       Does (.ttArm i) s (respond (fset { s.chip with lt := { s.chip.lt with armDue := false } } TT_CTRL_ARM (nth p 0)) i 0 [fget s.chip TT_CTRL_ARM])))

/-! ### Launches and the cores' own events -/

/-- A launch: its ring gives it up when fewer than 1,024 are active (R649); one that fails a check of R648 ends with the check's status; else it waits at its gate, or takes its place in its ring's
queue (R650). The gate's evaluator takes the wait word at its value or above, tests the skip word, and lets the launch go or completes it SKIPPED (R417, R418), or ends it at its limit
(R420). The next block is placed on the lowest core with room for it (R107, R112, R650). SYS.ABORT ends the ring's launches, or those of a TAG, and answers how many (R655). DIAG.CORE tests a
die that is out of service (R167).
Where the rules leave room it rests on the model's own choices, log entries 16, 20 and 45. -/
def Obligations.LaunchesFromRingToCore : Prop :=
  ∀ s : State, acts s = true →
    (∀ n, launchWants s.chip n = true → Does (.launchAccept n) s (ringRead s.chip n (launchAgree s.chip) (launchTake n))) ∧
    (∀ (m : Chip) (n seq : Nat) (w : List Nat),
      (let x : Launch := { ring := n, seq := seq, w := w, t0 := m.ns, atGate := gateWait w || gateSkip w }
       let m1 : Chip := { setLaunch m m.launchId (some x) with launchId := m.launchId + 1 }
       (∀ st, launchChecks m w = some st → launchTake n seq w m = endLaunch m1 m.launchId st) ∧
       (launchChecks m w = none → gateWait w = true → launchTake n seq w m = gatesNote m1) ∧
       (launchChecks m w = none → gateWait w = false → gateSkip w = false → launchTake n seq w m = gateLeave m1 m.launchId))) ∧
    (∀ l x, launch s.chip l = some x → x.atGate = true → x.met = false → gateWait x.w = true → deviceReady s.chip (gateWaitDa x.w) 4 = true →
      (loadWord s.chip (gateWaitDa x.w) true).2.1 = none →
      (let r := loadWord s.chip (gateWaitDa x.w) true
       (r.1 < nth x.w 9 → Does (.gatePoll l) s r.2.2) ∧
       (nth x.w 9 ≤ r.1 → gateSkip x.w = false → Does (.gatePoll l) s (gateLeave (modLaunch r.2.2 l (fun y => { y with met := true })) l)))) ∧
    (∀ l x, launch s.chip l = some x → x.atGate = true → x.met = true → gateSkip x.w = true → deviceReady s.chip (gateSkipDa x.w) 4 = true →
      (loadWord s.chip (gateSkipDa x.w) true).2.1 = none →
      (let r := loadWord s.chip (gateSkipDa x.w) true
       (skipHolds x.w r.1 = true → Does (.gatePoll l) s (gatesNote (endLaunch (bump r.2.2 PTS_SKIP_CTR 1) l 5))) ∧
       (skipHolds x.w r.1 = false → Does (.gatePoll l) s (gateLeave r.2.2 l)))) ∧
    (∀ l, gateLate s.chip l = true → Does (.gateTimeout l) s (gatesNote (endLaunch (bump s.chip PTS_GATE_TO_CTR 1) l 6))) ∧
    (∀ n l x c, nextPlace s.chip = some (n, l, x, c) →
      Does .blockPlace s (modLaunch (modCore { (if x.inv then s.chip else codeClear s.chip x.w) with placeRing := n } c (placeOn s.chip l x.next x.w)) l
        (fun y => { y with next := y.next + 1, live := y.live + 1, inv := true }))) ∧
    (∀ i, cmdReady s.chip i 0x0105 = true →
      (let p := cmdPay s.chip i
       let ls := s.chip.launches.filterMap (fun e => if e.2.any (fun x => x.ring == bitsN (nth p 0) 5 0 && (tb (nth p 0) 31 || launchTag x == nth p 1)) then some e.1 else none)
       Does (.sysAbort i) s (respond (ls.foldl abortLaunch s.chip) i 0 [ls.length]))) ∧
    (∀ i, cmdReady s.chip i 0x0D01 = true → dieUp s.chip (nth (cmdPay s.chip i) 0) = false → Does (.diagCore i) s (cmdOn s.chip i [nth (cmdPay s.chip i) 0])) ∧
    (∀ d units failed first i, coreTest s.chip d = some i →
      Does (.coreTestEnd d units failed first) s
        (respond s.chip i 0 [units % 8 * 2 ^ 24 + min failed 320, if failed = 0 then 0xFFF else first % 4096, elapsed s.chip (cmdT0 s.chip i)]))

/-- What happens to the cores without an instruction: a fill meets the loads that wait (R128, R129, R136); the code cache of the die takes the line of the PC (R171); a suspended group looks at its word and wakes
with an acquire, or its time ends with predicate 0 (R223, R224); a barrier closed past its limit ends the block with BARRIER_STALL (R122, R165); a write of 1 to the register of
R148 empties every L0 in service; the array of the matrix unit ends its oldest MMA (R233).
Where the rules leave room it rests on the model's own choices, log entries 17, 18 and 19. -/
def Obligations.CoreEvents : Prop :=
  ∀ s : State, acts s = true →
    (∀ c id r, fillResp s.chip c id = some r →
      Does (.l0LineFill c id) s (fillArrive (linkMove { s.chip with resps := s.chip.resps.filter (fun x => x.who != .coreFill c id) } (returnKeys r.who r.line) (· - 1))
        c id r.line r.fate r.ln)) ∧
    (∀ c slot g, c < 2560 → codeMiss s.chip c slot = true → grp s.chip c slot = some g → daOk g.pc = true → g.pc % 8 = 0 →
      (readExit s.chip (g.pc / 128) false).1.fate = .good →
      ∃ t, exec (.codeCacheFill c slot) s = .next t ∧ grp t.chip c slot = some g ∧
        t.chip.code = modAt s.chip.code (dieOf c) (fun l => (if 2048 ≤ l.length then l.drop 1 else l) ++ [(g.pc / 128, (readExit s.chip (g.pc / 128) false).1.ln.data)])) ∧
    (∀ c slot g a v ps lim polled, grp s.chip c slot = some g → g.wait = .uwait a v ps lim polled →
      (deviceReady s.chip a 4 = true → (loadWord s.chip a false).2.1 = none → v ≤ (loadWord s.chip a false).1 →
        Does (.uwaitPoll c slot) s (setGrp (modCore (loadWord s.chip a false).2.2 c l0Clear) c slot (some (uwaitDone ps true g)))) ∧
      (deviceReady s.chip a 4 = true → (loadWord s.chip a false).2.1 = none → (loadWord s.chip a false).1 < v → Does (.uwaitPoll c slot) s (loadWord s.chip a false).2.2) ∧
      (uwaitLate s.chip c slot = true → Does (.uwaitTimeout c slot) s (modGrp s.chip c slot (fun _ => uwaitDone ps false g)))) ∧
    (∀ c b i st lim pc gi t, barLate s.chip c b = some (i, st, lim, pc, gi, t) →
      Does (.barrierStall c b) s (endBlk (countFault s.chip 0x21) c b (.fault ⟨0x21, gi, t, c, b % 2 ^ 32, pc, pc, i⟩))) ∧
    (∀ v : Word, v.toNat % 2 = 1 →
      Does (.l0InvAllWrite v) s (s.chip.cores.foldl (fun n e => if dieUp s.chip (dieOf e.1) then modCore n e.1 l0Clear else n) s.chip)) ∧
    (∀ c o r, (core s.chip c).mmas = o :: r →
      Does (.mmaArrayComplete c) s (bump (bump (modGrp (modCore s.chip c (fun k => { k with mmas := r })) c o.slot (mmaWrite o)) MU_MMA_CTR 1) MU_SKIP_CTR o.skip.length))

/-! ### Instructions of the cores -/

/-- What writing DST does (R177, R180): with DST a v register, each acting thread's register takes its value modulo 2^32, and every other register of every thread, the predicates, the tiles, the masks and the
PC stay; with DST ZERO nothing changes. -/
def Obligations.ThreadResultTouchesOnlyDst : Prop :=
  ∀ (g : Grp) (mask d : Nat) (val : Nat → Nat),
    (d < 0x80 →
      (∀ t, t < 64 → rget (perThread g mask d val) d t = if mask.testBit t then val t % 2 ^ 32 else rget g d t) ∧
      (∀ f t, t < 64 → f ≠ d → rget (perThread g mask d val) f t = rget g f t) ∧
      (∃ v, perThread g mask d val = { g with v := v })) ∧
    (d = 0xC0 → perThread g mask d val = g)

/-- Control flow (R113 to R122, R211 to R214): NOP moves on; a uniform BRA goes to its target, one taken by no acting thread moves on, a divergent one pushes the target and the reconvergence
point and goes on with the threads that fall through, and with fewer than two free entries raises RECONV_OVERFLOW; CALL writes PC + 8 to its pair and JMP takes its pair; EXIT takes the acting threads from the
masks; BAR parks them, the first arrival starting the watchdog; TRAP faults with its code.
Where the rules leave room it rests on the model's own choices, log entries 16 and 17. -/
def Obligations.ControlFlowInstructions : Prop :=
  ∀ (s : State) (c slot : Nat) (word : BitVec 64) (g : Grp) (b : Blk), Issues s c slot word g b →
    (let w := word.toNat
     let t := acting w g
     let group (g' : Grp) : Chip := setGrp s.chip c slot (some g')
     (iOp w = 0x00 → Does (.nop c slot word) s (group (advance g))) ∧
     (iOp w = 0x01 → t = g.active → Does (.bra c slot word) s (group (settleGrp { g with pc := pcPlus g.pc (iTarget w) }))) ∧
     (iOp w = 0x01 → t ≠ g.active → t = 0 → Does (.bra c slot word) s (group (advance g))) ∧
     (iOp w = 0x01 → t ≠ g.active → t ≠ 0 → g.stack.length ≤ 30 →
       Does (.bra c slot word) s (group (advance { g with active := g.active - t, stack := (pcPlus g.pc (iTarget w), t, false) :: (pcPlus g.pc (iReconv w), g.active, true) :: g.stack }))) ∧
     (iOp w = 0x01 → t ≠ g.active → t ≠ 0 → 30 < g.stack.length → Does (.bra c slot word) s (fault s.chip c slot 0x04 (lowest g.active) 0 0)) ∧
     (iOp w = 0x02 →
       Does (.call c slot word) s (group (settleGrp { (rput64 g (0x80 + 2 * iLink w) 0 (nextPc g)) with pc := pcPlus g.pc (iTarget w) }))) ∧
     (iOp w = 0x03 → Does (.jmp c slot word) s (group (settleGrp { g with pc := (reg64 g (iA w) 0).toNat }))) ∧
     (iOp w = 0x04 → Does (.exit c slot word) s
       (grpCheck (group (advance { g with live := g.live - (g.live &&& t), active := g.active - (g.active &&& t) })) c slot)) ∧
     (iOp w = 0x05 → t = 0 → Does (.bar c slot word) s (barCheck (group (advance g)) c g.blk)) ∧
     (iOp w = 0x05 → t ≠ 0 → b.wd.all (fun x => x.1 != iAux w % 4) = true →
       Does (.bar c slot word) s (barCheck (modBlk (group (advance { g with active := g.active - t, parked := g.parked ++ [(nextPc g, t, iAux w % 4)] })) c g.blk
         (fun k => { k with wd := k.wd ++ [(iAux w % 4, s.chip.ns, barLimit s.chip b, g.pc, g.idx, lowest t)] })) c g.blk)) ∧
     (iOp w = 0x05 → t ≠ 0 → b.wd.all (fun x => x.1 != iAux w % 4) = false →
       Does (.bar c slot word) s (barCheck (group (advance { g with active := g.active - t, parked := g.parked ++ [(nextPc g, t, iAux w % 4)] })) c g.blk)) ∧
     (iOp w = 0x06 → t ≠ 0 → Does (.trap c slot word) s (fault s.chip c slot 0x0B (lowest t) 0 (iImm w))) ∧
     (iOp w = 0x06 → t = 0 → Does (.trap c slot word) s (group (advance g))))

/-- Integer arithmetic on 32 bits (R190, R191), in format R and, with IMM32 for B, in format I: IADD and ISUB wrap, or saturate with SAT; IMUL and IMAC keep the low 32 bits, IMAC adding C, in format I
the old DST; IMULHI keeps the high 32 bits, signed with AUX[0]; IMIN and IMAX compare signed, or unsigned with AUX[0]; IADD64 adds pairs.
Where the rules leave room it rests on the model's own choices, log entries 16 and 17. -/
def Obligations.IntegerArithmetic : Prop :=
  ∀ (s : State) (c slot : Nat) (word : BitVec 64) (g : Grp) (b : Blk), Issues s c slot word g b →
    (let w := word.toNat
     let A (t : Nat) : BitVec 32 := reg32 g (iA w) t
     let I : Prop := 0x20 ≤ iOp w ∧ iOp w ≤ 0x2F
     (∀ (B C : Nat → BitVec 32), (I → ∀ t, B t = BitVec.ofNat 32 (iImm w) ∧ C t = reg32 g (iDst w) t) → (¬ I → ∀ t, B t = reg32 g (iB w) t ∧ C t = reg32 g (iC w) t) →
       (iOp w = 0x10 ∨ iOp w = 0x20 → (I ∨ iSat w = false) → Writes (.iadd c slot word) s c slot word g (fun t => (A t + B t).toNat)) ∧
       (iOp w = 0x10 → iSat w = true →
         Writes (.iadd c slot word) s c slot word g (fun t => (BitVec.ofInt 32 (max (-2 ^ 31) (min (2 ^ 31 - 1) ((A t).toInt + (B t).toInt)))).toNat)) ∧
       (iOp w = 0x11 ∨ iOp w = 0x21 → (I ∨ iSat w = false) → Writes (.isub c slot word) s c slot word g (fun t => (A t - B t).toNat)) ∧
       (iOp w = 0x11 → iSat w = true →
         Writes (.isub c slot word) s c slot word g (fun t => (BitVec.ofInt 32 (max (-2 ^ 31) (min (2 ^ 31 - 1) ((A t).toInt - (B t).toInt)))).toNat)) ∧
       (iOp w = 0x12 ∨ iOp w = 0x22 → Writes (.imul c slot word) s c slot word g (fun t => (A t * B t).toNat)) ∧
       (iOp w = 0x13 ∨ iOp w = 0x23 → Writes (.imulhi c slot word) s c slot word g (fun t =>
         if ¬ I ∧ w.testBit 0 then (((A t).signExtend 64 * (B t).signExtend 64) >>> 32).toNat else (((A t).zeroExtend 64 * (B t).zeroExtend 64) >>> 32).toNat)) ∧
       (iOp w = 0x14 ∨ iOp w = 0x24 → Writes (.imac c slot word) s c slot word g (fun t => (A t * B t + C t).toNat)) ∧
       (iOp w = 0x15 ∨ iOp w = 0x25 → Writes (.imin c slot word) s c slot word g (fun t =>
         if ¬ I ∧ w.testBit 0 then min (A t).toNat (B t).toNat else if (B t).toInt < (A t).toInt then (B t).toNat else (A t).toNat)) ∧
       (iOp w = 0x16 ∨ iOp w = 0x26 → Writes (.imax c slot word) s c slot word g (fun t =>
         if ¬ I ∧ w.testBit 0 then max (A t).toNat (B t).toNat else if (A t).toInt < (B t).toInt then (B t).toNat else (A t).toNat))) ∧
     (iOp w = 0x36 → Does (.iadd64 c slot word) s
       (setGrp s.chip c slot (some (advance (perThread64 g (acting w g) (iDst w) (fun t => (reg64 g (iA w) t + reg64 g (iB w) t).toNat)))))))

/-- Logic, shifts, counts and bit fields on 32 bits (R190, R191): AND, OR and XOR; SHL and SHR by B[5:0], 32 and more giving 0 or copies of the sign; PCNT and CLZ; BEXT takes B[13:8] bits of A from bit B[4:0],
with the sign of the field's top bit when asked; BINS puts the low B[13:8] bits of A into C from bit B[4:0] on.
Where the rules leave room it rests on the model's own choices, log entries 16 and 17. -/
def Obligations.LogicAndBitFields : Prop :=
  ∀ (s : State) (c slot : Nat) (word : BitVec 64) (g : Grp) (b : Blk), Issues s c slot word g b →
    (let w := word.toNat
     let A (t : Nat) : BitVec 32 := reg32 g (iA w) t
     let I : Prop := 0x20 ≤ iOp w ∧ iOp w ≤ 0x2F
     ∀ (B C : Nat → BitVec 32), (I → ∀ t, B t = BitVec.ofNat 32 (iImm w) ∧ C t = reg32 g (iDst w) t) → (¬ I → ∀ t, B t = reg32 g (iB w) t ∧ C t = reg32 g (iC w) t) →
       (iOp w = 0x19 ∨ iOp w = 0x29 → Writes (.andI c slot word) s c slot word g (fun t => (A t &&& B t).toNat)) ∧
       (iOp w = 0x1A ∨ iOp w = 0x2A → Writes (.orI c slot word) s c slot word g (fun t => (A t ||| B t).toNat)) ∧
       (iOp w = 0x1B ∨ iOp w = 0x2B → Writes (.xorI c slot word) s c slot word g (fun t => (A t ^^^ B t).toNat)) ∧
       (iOp w = 0x17 ∨ iOp w = 0x27 → Writes (.shl c slot word) s c slot word g (fun t => (A t <<< ((B t).toNat % 64)).toNat)) ∧
       (iOp w = 0x18 ∨ iOp w = 0x28 → Writes (.shr c slot word) s c slot word g (fun t =>
         if ¬ I ∧ w.testBit 0 then ((A t).sshiftRight ((B t).toNat % 64)).toNat else (A t >>> ((B t).toNat % 64)).toNat)) ∧
       (iOp w = 0x1C → Writes (.pcnt c slot word) s c slot word g (fun t => (List.range 32).countP (fun k => (A t).getLsbD k))) ∧
       (iOp w = 0x1D → Writes (.clz c slot word) s c slot word g (fun t => if A t = 0#32 then 32 else 31 - Nat.log2 (A t).toNat)) ∧
       (iOp w = 0x1E ∨ iOp w = 0x2E → ∃ val, Writes (.bext c slot word) s c slot word g val ∧ ∀ t k, k < 32 →
         (let p := (B t).toNat % 32
          let n := bitsN (B t).toNat 13 8
          (val t).testBit k = if k < n then (A t).getLsbD (p + k) else (decide (¬ I) && w.testBit 0 && decide (n ≠ 0) && (A t).getLsbD (p + n - 1)))) ∧
       (iOp w = 0x1F ∨ iOp w = 0x2F → ∃ val, Writes (.bins c slot word) s c slot word g val ∧ ∀ t k, k < 32 →
         (let p := (B t).toNat % 32
          let n := bitsN (B t).toNat 13 8
          (val t).testBit k = if p ≤ k ∧ k < p + n then (A t).getLsbD (k - p) else (C t).getLsbD k)))

/-- Moves (R190, R192 to R194): MOV and MOVI; SEL takes A where p[PSEL] is 1, else B; BSEL builds each byte from the 64-bit B:A by a nibble of C, or as 0; XLANE takes A of an acting thread named by
B, or its own; RDSP reads a special register.
Where the rules leave room it rests on the model's own choices, log entries 16 and 17. -/
def Obligations.MovesAndLaneInstructions : Prop :=
  ∀ (s : State) (c slot : Nat) (word : BitVec 64) (g : Grp) (b : Blk), Issues s c slot word g b →
    (let w := word.toNat
     let a (t : Nat) : Nat := rget g (iA w) t
     let B (t : Nat) : Nat := rget g (iB w) t
     (iOp w = 0x30 → Writes (.mov c slot word) s c slot word g a) ∧
     (iOp w = 0x31 → Writes (.movi c slot word) s c slot word g (fun _ => iImm w)) ∧
     (iOp w = 0x32 → Writes (.sel c slot word) s c slot word g (fun t => if (tget 0 (iPsel w) g.p).testBit t then a t else B t)) ∧
     (iOp w = 0x33 → ∃ val, Writes (.bsel c slot word) s c slot word g val ∧ ∀ t k, k < 4 →
       (let n := bitsN (rget g (iC w) t) (4 * k + 3) (4 * k)
        bitsN (val t) (8 * k + 7) (8 * k) = if 8 ≤ n then 0 else bitsN (a t + 2 ^ 32 * B t) (8 * n + 7) (8 * n))) ∧
     (iOp w = 0x34 → Writes (.xlane c slot word) s c slot word g (fun t =>
       match xlaneFrom (iAux w % 4) t (B t) with
       | some x => if (acting w g).testBit x then a x else a t
       | none => a t)) ∧
     (iOp w = 0x35 → Writes (.rdsp c slot word) s c slot word g (fun t => if iAux w = 0 then t else specialReg s.chip c g b (iAux w))))

/-- Floating-point instructions in format R and, with IMM32 for B, in format I, and packed instructions on both 16-bit elements of FP16 or BF16 by AUX[0] (R195 to R201): the exact sum, product,
product and sum, minimum or maximum of the operands as NEG, ABS and FTZ read them, rounded once by RND, then FTZ and SAT. FMAC's C in format I is the old DST (the model's reading, log entry 41).
Where the rules leave room it rests on the model's own choices, log entries 16, 17 and 41. -/
def Obligations.FloatingPointInstructions : Prop :=
  ∀ (s : State) (c slot : Nat) (word : BitVec 64) (g : Grp) (b : Blk), Issues s c slot word g b →
    (let w := word.toNat
     let I : Prop := 0x50 ≤ iOp w ∧ iOp w ≤ 0x54
     let a (t : Nat) : Nat := rget g (iA w) t
     ∀ (B C : Nat → Nat), (I → ∀ t, B t = iImm w ∧ C t = rget g (iDst w) t) → (¬ I → ∀ t, B t = rget g (iB w) t ∧ C t = rget g (iC w) t) →
     (let res (op : Fv → Fv → Fv → Fv) (t : Nat) : Nat :=
        if iOp w < 0x50 then fp32.dst (iRnd w) (iFtz w) (iSat w)
          (op (fp32.src (iFtz w) (iAbsA w) (iNegA w) (a t)) (fp32.src (iFtz w) false (iNegB w) (B t)) (fp32.src (iFtz w) false false (C t)))
        else fp32.round (iRndI w) (op (fp32.decode (a t)) (fp32.decode (B t)) (fp32.decode (C t)))
      let pk (op : Fv → Fv → Fv → Fv) (t : Nat) : Nat :=
        let f := if w.testBit 0 then bf16 else fp16
        let e (x k : Nat) : Nat := bitsN x (16 * k + 15) (16 * k)
        let r (k : Nat) : Nat := f.dst (iRnd w) (iFtz w) (iSat w)
          (op (f.src (iFtz w) (iAbsA w) (iNegA w) (e (a t) k)) (f.src (iFtz w) false (iNegB w) (e (B t) k)) (f.src (iFtz w) false false (e (C t) k)))
        r 0 + 2 ^ 16 * r 1
      let rnd := if iOp w < 0x50 ∨ 0x55 ≤ iOp w then iRnd w else iRndI w
      (iOp w = 0x40 ∨ iOp w = 0x50 → Writes (.fadd c slot word) s c slot word g (res (fun x y _ => x.add rnd y))) ∧
      (iOp w = 0x41 ∨ iOp w = 0x51 → Writes (.fmul c slot word) s c slot word g (res (fun x y _ => x.mul y))) ∧
      (iOp w = 0x42 ∨ iOp w = 0x52 → Writes (.fmac c slot word) s c slot word g (res (fun x y z => (x.mul y).add rnd z))) ∧
      (iOp w = 0x43 ∨ iOp w = 0x53 → Writes (.fmin c slot word) s c slot word g (res (fun x y _ => x.min y))) ∧
      (iOp w = 0x44 ∨ iOp w = 0x54 → Writes (.fmax c slot word) s c slot word g (res (fun x y _ => x.max y))) ∧
      (iOp w = 0x60 → Writes (.pkadd c slot word) s c slot word g (pk (fun x y _ => x.add rnd y))) ∧
      (iOp w = 0x61 → Writes (.pkmul c slot word) s c slot word g (pk (fun x y _ => x.mul y))) ∧
      (iOp w = 0x62 → Writes (.pkmac c slot word) s c slot word g (pk (fun x y z => (x.mul y).add rnd z))) ∧
      (iOp w = 0x63 → Writes (.pkmin c slot word) s c slot word g (pk (fun x y _ => x.min y))) ∧
      (iOp w = 0x64 → Writes (.pkmax c slot word) s c slot word g (pk (fun x y _ => x.max y)))))

/-- Rounding keeps what needs none, whatever the mode: a code of FP32, FP16 or BF16 that is no NaN, decoded and rounded, is itself; and every NaN comes out as the canonical one of R199 and R201. -/
def Obligations.RoundingKeepsRepresentableValues : Prop :=
  ∀ (f : Fmt) (rnd w : Nat), f = fp32 ∨ f = fp16 ∨ f = bf16 → w < 2 ^ f.width →
    (f.decode w ≠ .nan → f.round rnd (f.decode w) = w) ∧
    (f.decode w = .nan → f.round rnd (f.decode w) = (if f = fp32 then 0x7FC00000 else if f = fp16 then 0x7E00 else 0x7FC0))

/-- CVT takes element SRC_C of A, converts it by AUX's codes, and writes it as element PSEL of DST, whose other bits stay (R203 to R206); the special functions take A through ABS and NEG, and their
result lies within the bound of R202, or is the free value the log names (entry 3).
Where the rules leave room it rests on the model's own choices, log entries 3, 16 and 17. -/
def Obligations.ConversionsAndSpecialFunctions : Prop :=
  ∀ (s : State) (c slot : Nat) (word : BitVec 64) (g : Grp) (b : Blk), Issues s c slot word g b →
    (let w := word.toNat
     let A (t : Nat) : Nat :=
       let x := if iAbsA w then rget g (iA w) t % 2 ^ 31 else rget g (iA w) t
       if iNegA w then x ^^^ 2 ^ 31 else x
     (iOp w = 0x70 → Writes (.cvt c slot word) s c slot word g (fun t =>
       (let sc := iAux w / 16
        let dc := iAux w % 16
        setBitsN (rget g (iDst w) t) (iPsel w * cvtWidth dc + cvtWidth dc - 1) (iPsel w * cvtWidth dc)
          (cvt sc dc (iRnd w) (iSat w) (iFtz w) (rget g (iA w) t / 2 ^ (iC w * cvtWidth sc) % 2 ^ cvtWidth sc))))) ∧
     (iOp w = 0x71 → Writes (.rcp c slot word) s c slot word g (fun t => special 0 (A t))) ∧
     (iOp w = 0x72 → Writes (.rsq c slot word) s c slot word g (fun t => special 1 (A t))) ∧
     (iOp w = 0x73 → Writes (.sqrt c slot word) s c slot word g (fun t => special 2 (A t))) ∧
     (iOp w = 0x74 → Writes (.exp2 c slot word) s c slot word g (fun t => special 3 (A t))) ∧
     (iOp w = 0x75 → Writes (.log2 c slot word) s c slot word g (fun t => special 4 (A t))) ∧
     (iOp w = 0x76 → Writes (.tanh c slot word) s c slot word g (fun t => special 5 (A t))))

/-- Predicates (R207 to R210): ICMP and FCMP set p[DST] of each acting thread to the comparison combined with p[PSEL]; PCOMB combines two predicates; PGRP writes the OR or the AND over the acting threads to
p[DST], or their mask to a u pair; P2V gathers p7 to p0 and V2P sets the predicates AUX selects from the bits of A. Other threads and predicates stay.
Where the rules leave room it rests on the model's own choices, log entry 16. -/
def Obligations.PredicateInstructions : Prop :=
  ∀ (s : State) (c slot : Nat) (word : BitVec 64) (g : Grp) (b : Blk), Issues s c slot word g b →
    (let w := word.toNat
     let act := acting w g
     let p (i t : Nat) : Bool := (tget 0 i g.p).testBit t
     let sets (i : Instr) (j : Nat) (val : Nat → Bool) : Prop := ∃ q, Does i s (setGrp s.chip c slot (some (advance { g with p := q }))) ∧
       (∀ t, t < 64 → (tget 0 j q).testBit t = if act.testBit t then val t else p j t) ∧ (∀ k, k ≠ j → tget 0 k q = tget 0 k g.p)
     (iOp w = 0x80 → sets (.icmp c slot word) (iDst w % 8) (fun t =>
       combine (iAux w / 32 % 4) (cmpInt (iAux w % 16) (w.testBit 4) (rget g (iA w) t) (rget g (iB w) t)) (p (iPsel w) t))) ∧
     (iOp w = 0x81 → sets (.fcmp c slot word) (iDst w % 8) (fun t =>
       combine (iAux w / 32 % 4) (cmpFp (iAux w % 16) (fp32.src (iFtz w) (iAbsA w) (iNegA w) (rget g (iA w) t)) (fp32.src (iFtz w) false (iNegB w) (rget g (iB w) t)))
         (p (iPsel w) t))) ∧
     (iOp w = 0x82 → sets (.pcomb c slot word) (iDst w % 8) (fun t =>
       (let x := p (iA w % 8) t != iNegA w
        let y := p (iB w % 8) t != iNegB w
        if iAux w = 0 then x && y else if iAux w = 1 then x || y else x != y))) ∧
     (iOp w = 0x83 → iAux w = 0 → sets (.pgrp c slot word) (iDst w % 8) (fun _ => decide (tget 0 (iA w % 8) g.p &&& act ≠ 0))) ∧
     (iOp w = 0x83 → iAux w = 1 → sets (.pgrp c slot word) (iDst w % 8) (fun _ => decide (tget 0 (iA w % 8) g.p &&& act = act))) ∧
     (iOp w = 0x83 → iAux w = 2 → Does (.pgrp c slot word) s (setGrp s.chip c slot (some (advance (rput64 g (iDst w) 0 (tget 0 (iA w % 8) g.p &&& act)))))) ∧
     (iOp w = 0x84 → ∃ val, Writes (.p2v c slot word) s c slot word g val ∧ ∀ t, val t < 2 ^ 8 ∧ ∀ i, i < 8 → (val t).testBit i = p i t) ∧
     (iOp w = 0x85 → ∃ q, Does (.v2p c slot word) s (setGrp s.chip c slot (some (advance { g with p := q }))) ∧
       ∀ i t, i < 8 → t < 64 → (tget 0 i q).testBit t = if act.testBit t && (iAux w).testBit i then (rget g (iA w) t).testBit i else p i t))

/-- Uniform instructions (R188, R190, R192, R194, R207): one result for the group, in a u register or nowhere; UADD64 and URDSP of LT write pairs; UCMP sets its predicate in every live thread.
Where the rules leave room it rests on the model's own choices, log entries 16 and 17. -/
def Obligations.UniformInstructions : Prop :=
  ∀ (s : State) (c slot : Nat) (word : BitVec 64) (g : Grp) (b : Blk), Issues s c slot word g b →
    (let w := word.toNat
     let A := reg32 g (iA w) 0
     let B := reg32 g (iB w) 0
     let put (i : Instr) (v : Nat) : Prop := Does i s (setGrp s.chip c slot (some (advance (rput g (iDst w) 0 v))))
     let put2 (i : Instr) (v : Nat) : Prop := Does i s (setGrp s.chip c slot (some (advance (rput64 g (iDst w) 0 v))))
     (iOp w = 0x90 → put (.uadd c slot word) (A + B).toNat) ∧ (iOp w = 0x91 → put (.usub c slot word) (A - B).toNat) ∧
     (iOp w = 0x92 → put (.umul c slot word) (A * B).toNat) ∧ (iOp w = 0x93 → put (.uand c slot word) (A &&& B).toNat) ∧
     (iOp w = 0x94 → put (.uor c slot word) (A ||| B).toNat) ∧ (iOp w = 0x95 → put (.uxor c slot word) (A ^^^ B).toNat) ∧
     (iOp w = 0x96 → put (.ushl c slot word) (A <<< (B.toNat % 64)).toNat) ∧ (iOp w = 0x97 → put (.ushr c slot word) (A >>> (B.toNat % 64)).toNat) ∧
     (iOp w = 0x98 → put (.umov c slot word) A.toNat) ∧ (iOp w = 0x99 → put (.umovi c slot word) (iImm w)) ∧
     (iOp w = 0x9A → put2 (.uadd64 c slot word) (reg64 g (iA w) 0 + reg64 g (iB w) 0).toNat) ∧
     (iOp w = 0x9B → ∃ q, Does (.ucmp c slot word) s (setGrp s.chip c slot (some (advance { g with p := q }))) ∧
       (∀ t, t < 64 → (tget 0 (iDst w % 8) q).testBit t = if g.live.testBit t then
         combine (iAux w / 32 % 4) (cmpInt (iAux w % 16) (w.testBit 4) A.toNat B.toNat) ((tget 0 (iPsel w) g.p).testBit t) else (tget 0 (iDst w % 8) g.p).testBit t) ∧
       (∀ k, k ≠ iDst w % 8 → tget 0 k q = tget 0 k g.p)) ∧
     (iOp w = 0x9C → iAux w = 9 → put2 (.urdsp c slot word) (specialReg s.chip c g b 9)) ∧
     (iOp w = 0x9C → iAux w ≠ 9 → put (.urdsp c slot word) (specialReg s.chip c g b (iAux w))))

/-- Loads, stores and fences (R123 to R131, R143 to R148, R155 to R157, R215 to R224): when no acting thread's address faults, a scratch load writes its registers at once and a scratch store its bytes; a load of a DA or GA
goes by its lines once no earlier store to a line it misses waits; a store sends its lines in ascending order and moves on; ULD makes one access for the group; FENCE acquires at its scope; L0INV empties the
L0; UWAIT suspends the group with its word, its value and its limit. The lowest fault code, of the lowest thread, is taken (R235, R236).
Where the rules leave room it rests on the model's own choices, log entries 16, 17 and 18. -/
def Obligations.LoadsStoresAndFences : Prop :=
  ∀ (s : State) (c slot : Nat) (word : BitVec 64) (g : Grp) (b : Blk), Issues s c slot word g b →
    (let w := word.toNat
     let ls := (lanes (acting w g)).map (fun t => (t, effAddr w g t))
     let code (a : Nat) : Option Nat := addrCode s.chip (iForm w) a (2 ^ iSize w) (b.units.length * 512)
     let keyed : List (Nat × Nat) := ls.map (fun l => (l.1, lineKey s.chip (iForm w) l.2 * 128 + l.2 % 128))
     let misses (ks : List (Nat × Nat)) : List Nat :=
       (sortKeys (ks.map (fun l => l.2 / 128))).filter (fun k => iBypass w || k / 2 ^ 41 != 0 || (l0Find (core s.chip c) k).isNone)
     (iOp w = 0xA0 → iForm w = 2 → (∀ l ∈ ls, code l.2 = none) → (∀ l ∈ ls, l0Parity (core s.chip c) (scratchAt b.units l.2).1 (scratchAt b.units l.2).2 (2 ^ iSize w) = false) →
       Does (.ld c slot word) s (setGrp s.chip c slot (some (advance (ls.foldl (fun h l =>
         rputN (sizeRegs (iSize w)) h (iDst w) l.1 (extend (2 ^ iSize w) (iSext w) (leNat (scratchRead (core s.chip c) b.units l.2 (2 ^ iSize w))))) g))))) ∧
     (iOp w = 0xA0 → iForm w ≠ 2 → (∀ l ∈ ls, code l.2 = none) → (misses keyed).any (storeWaits s.chip c) = false →
       Does (.ld c slot word) s (loadGo c slot w g b keyed s.chip)) ∧
     (iOp w = 0xA1 → iForm w = 2 → (∀ l ∈ ls, code l.2 = none) →
       Does (.st c slot word) s (scratchGo c slot b (ls.flatMap (fun l => storeData w g l.1 l.2)) s.chip)) ∧
     (iOp w = 0xA1 → iForm w ≠ 2 → (∀ l ∈ ls, code l.2 = none) →
       Does (.st c slot word) s (modGrp ((groupLines s.chip (iForm w) (ls.flatMap (fun l => storeData w g l.1 l.2))).foldl
         (fun n l => coreStoreLine n c g.blk slot l.1 l.2.1 l.2.2 (failAt s.chip (iForm w) ls l.1)) s.chip) c slot advance)) ∧
     (∀ f, firstFault (laneFaults ls code) = some f →
       (iOp w = 0xA0 → Does (.ld c slot word) s (fault s.chip c slot f.1 f.2.1 f.2.2 0)) ∧ (iOp w = 0xA1 → Does (.st c slot word) s (fault s.chip c slot f.1 f.2.1 f.2.2 0))) ∧
     (iOp w = 0xA2 → Does (.fence c slot word) s (modGrp (if 2 ≤ iScope w then modCore s.chip c l0Clear else s.chip) c slot advance)) ∧
     (iOp w = 0xA3 → Does (.l0inv c slot word) s (modGrp (modCore s.chip c l0Clear) c slot advance)) ∧
     (iOp w = 0xA4 → addrCode s.chip (iForm w) (effAddr w g 0) (2 ^ iSize w) 0 = none →
       (let k := [(0, lineKey s.chip (iForm w) (effAddr w g 0) * 128 + effAddr w g 0 % 128)]
        (misses k).any (storeWaits s.chip c) = false → Does (.uld c slot word) s (loadGo c slot w g b k s.chip))) ∧
     (iOp w = 0xA5 →
       (let a := rget64 g (iA w) 0
        isBuf a = true → reservedBuf a = false → a % 4 = 0 →
          Does (.uwait c slot word) s (setGrp s.chip c slot (some { g with
            wait := .uwait a (rget g (iB w) 0) (iPsel w) (s.chip.ns + 2 ^ (if iAux w % 32 = 0 then 24 else iAux w % 32)) false })))))

/-- Atomics and SIG (R130, R132, R225 to R228): when no acting thread's address faults, the acting threads' atomics leave in an order that is not specified (a free one, log entry 3), each with its operation, its
operands and its place; with RET, or an acquire, the instruction waits for its answers. SIG sends one, by its SUBOP, for the group. The buffer performs each operation by R225.
Where the rules leave room it rests on the model's own choices, log entries 3, 16 and 18. -/
def Obligations.AtomicsAndSignals : Prop :=
  (∀ (s : State) (c slot : Nat) (word : BitVec 64) (g : Grp) (b : Blk), Issues s c slot word g b →
    (let w := word.toNat
     let n := 2 ^ iSize w
     let ts := lanes (acting w g)
     let acq := if iOrd w % 2 = 1 ∧ ts ≠ [] then iScope w + 1 else 0
     let keep := (iRet w || acq != 0) && !ts.isEmpty
     let dst := if iRet w then iDst w else 0xC0
     let p : Pend := { pc := g.pc, dst := dst, n := sizeRegs (iSize w), size := n, threads := ts, acq := acq }
     let m1 := modGrp (draw s.chip).2 c slot (fun h => advance (if keep then { h with pend := h.pend ++ [p] } else h))
     let val (f t : Nat) : Nat := if n = 8 then rget64 g f t else rget g f t
     (∀ k i, (k, i) ∈ [(0, Instr.atomAdd c slot word), (1, .atomFadd c slot word), (2, .atomSmin c slot word), (3, .atomSmax c slot word), (4, .atomUmin c slot word),
         (5, .atomUmax c slot word), (6, .atomAnd c slot word), (7, .atomOr c slot word), (8, .atomXor c slot word), (9, .atomExch c slot word), (10, .atomCas c slot word)] →
       iOp w = 0xB0 + k → (∀ t ∈ ts, atomCode s.chip (iForm w) (effAddr w g t) n = none) →
       Does i s ((freeOrder (draw s.chip).1 ts).foldl (fun q t =>
         atomSend q c slot g (lineKey s.chip (iForm w) (effAddr w g t)) (effAddr w g t % 128) n k (0xB0 + k) 0 (val (iAtB w) t) (if k = 10 then val (iAtC w) t else 0) t
           (iRet w) (if keep then some dst else none) (failAt s.chip (iForm w) (ts.map (fun t => (t, effAddr w g t))) (lineKey s.chip (iForm w) (effAddr w g t)))) m1)) ∧
     (iOp w = 0xBB → atomCode s.chip 0 (effAddr w g 0) 4 = none →
       Does (.sig c slot word) s (atomSend (modGrp s.chip c slot advance) c slot g (effAddr w g 0 / 128) (effAddr w g 0 % 128) 4
         (if iSubop w = 0 then 9 else if iSubop w = 1 then 0 else 5) 0xBB (iSubop w) (rget g (iAtB w) 0) 0 0 false none (lowest g.active, effAddr w g 0))))) ∧
  (∀ old a b : BitVec 32,
    atomOp 0 4 old.toNat a.toNat b.toNat = (old + a).toNat ∧ atomOp 1 4 old.toNat a.toNat b.toNat = fp32.round 0 ((fp32.decode old.toNat).add 0 (fp32.decode a.toNat)) % 2 ^ 32 ∧
    atomOp 2 4 old.toNat a.toNat b.toNat = (if a.slt old then a else old).toNat ∧
    atomOp 3 4 old.toNat a.toNat b.toNat = (if old.slt a then a else old).toNat ∧ atomOp 4 4 old.toNat a.toNat b.toNat = (if a.ult old then a else old).toNat ∧
    atomOp 5 4 old.toNat a.toNat b.toNat = (if old.ult a then a else old).toNat ∧ atomOp 6 4 old.toNat a.toNat b.toNat = (old &&& a).toNat ∧
    atomOp 7 4 old.toNat a.toNat b.toNat = (old ||| a).toNat ∧ atomOp 8 4 old.toNat a.toNat b.toNat = (old ^^^ a).toNat ∧
    atomOp 9 4 old.toNat a.toNat b.toNat = a.toNat ∧ atomOp 10 4 old.toNat a.toNat b.toNat = (if old = b then a else old).toNat)

/-- Tile instructions (R229 to R232, R247, R265): with every thread acting, or in masked-zero mode, TZERO clears the elements that acting threads own, TWR takes them from 16 registers and TRD reads the tile into 16 registers, thread t of
register r holding element (2r + t / 32, t mod 32); an aligned TST stores them; an MMA whose metadata are good joins the matrix unit with its operands as read at issue (R267).
Where the rules leave room it rests on the model's own choices, log entries 16 and 19. -/
def Obligations.TileInstructions : Prop :=
  ∀ (s : State) (c slot : Nat) (word : BitVec 64) (g : Grp) (b : Blk), Issues s c slot word g b →
    (let w := word.toNat
     let act := acting w g
     let owns (i j : Nat) : Bool := act.testBit (i % 2 * 32 + j)
     let tile (t : Nat) (val : Nat → Nat → Nat) (h : Grp) : Prop := ∃ x, h = { g with tiles := x } ∧
       (∀ i j, i < 32 → j < 32 → tileAt h t i j = if owns i j then val i j else tileAt g t i j) ∧
       (∀ u i j, u < 4 → u ≠ t → i < 32 → j < 32 → tileAt h u i j = tileAt g u i j)
     (act = 2 ^ 64 - 1 ∨ b.masked = true) →
     (iOp w = 0xC1 → ∃ h, Does (.tzero c slot word) s (setGrp s.chip c slot (some (advance h))) ∧ tile (iTd w) (fun _ _ => 0) h) ∧
     (iOp w = 0xC3 → ∃ h, Does (.twr c slot word) s (setGrp s.chip c slot (some (advance h))) ∧
       tile (iAux w % 4) (fun i j => if iA w = 0xC0 then 0 else rget g (iA w + i / 2) (i % 2 * 32 + j)) h) ∧
     (iOp w = 0xC2 → iDst w + 16 ≤ 0x80 → ∃ h, Does (.trd c slot word) s (setGrp s.chip c slot (some (advance h))) ∧ h.tiles = g.tiles ∧ h.p = g.p ∧ h.u = g.u ∧
       ∀ r t, r < 16 → t < 64 → rget h (iDst w + r) t = if act.testBit t then tileAt g (iAux w % 4) (2 * r + t / 32) (t % 32) % 2 ^ 32 else rget g (iDst w + r) t) ∧
     (iOp w = 0xC2 → iDst w = 0xC0 → Does (.trd c slot word) s (setGrp s.chip c slot (some (advance g)))) ∧
     (iOp w = 0xC4 → act ≠ 0 → effAddr w g 0 % 128 = 0 →
       (∀ i, i < 32 → addrCode s.chip (iForm w) (effAddr w g 0 + i * 32 * (if iSize w = 0 then 4 else 2)) 1
         (b.units.length * 512 - (32 * (if iSize w = 0 then 4 else 2) - 1)) = none) →
       Does (.tst c slot word) s (if iForm w = 2 then scratchGo c slot b (tstBytes w g (effAddr w g 0)) s.chip
         else storeGo c slot (iForm w) g [(lowest act, effAddr w g 0)] (tstBytes w g (effAddr w g 0)) s.chip)) ∧
     (∀ cl, iOp w = 0xC0 → mmaClass (iFmtA w) (iFmtB w) = some cl → act ≠ 0 →
       metaFails (iSparse w) act (fragment g (iMeta w) (mmaRegs cl (iSparse w)).2.2.1 act (metaSub (iSparse w))) = [] →
       ∃ o t, exec (.mma c slot word) s = .next t ∧ (core t.chip c).mmas = (core s.chip c).mmas ++ [o] ∧ grp t.chip c slot = some (advance g) ∧
         o.slot = slot ∧ o.word = w ∧ o.act = act ∧ o.a = fragment g (iTa w) (mmaRegs cl (iSparse w)).1 act 0 ∧
         o.b = fragment g (iTb w) (mmaRegs cl (iSparse w)).2.1 act 0))

/-! ### Memory: slices, stacks and cache regions -/

/-- A line written at its home reads back as it was written, with its waybill, and no other line changes (R280, R282, R434), for a line of the buffer or of a stack in service that no cache region backs, with no parked copy, no
armed flip and its path open. -/
def Obligations.WrittenLineReadsBack : Prop :=
  ∀ (m : Chip) (ln : Nat) (l : Line), l.data.length = 128 → l.errs = [] → l.poison = false → wbOk l = true → badAddress m (ln * 128) false = false →
    backing m (ln * 128) = none → parkedCopy m ln = none → pathShut m (pathOf (ln * 128)) = false → fon m BUF_FLIP_CTRL_ARM = false → fon m HBM_FLIP_CTRL_ARM = false →
    (let t := writeLine m ln l false
     t.1 = .good ∧ (readLine t.2 ln false).1.fate = .good ∧ (readLine t.2 ln false).1.ln.data = l.data ∧ wbOk (readLine t.2 ln false).1.ln = true ∧
     (∀ k, k ≠ ln → rawLine t.2 k = rawLine m k) ∧ t.2.rows = m.rows ∧ t.2.ports = m.ports ∧ t.2.cores = m.cores)

/-- Slices, Collect units and stack controllers serve their next request of a kind, by class, age and ingress (R278, R431): a line in the array, or cached, is read, written, merged, or taken through a locked
read-modify-write and the request is answered (R280, R282, R308, R310, R317, R434, R436); a miss of a cache region waits for its fill (R293); a class D request that waited long enough is served as class C (R279, R431).
Where the rules leave room it rests on the model's own choices, log entries 9, 20 and 21. -/
def Obligations.SlicesAndStacksServeRequests : Prop :=
  (∀ s : State, acts s = true → ∀ (r : Req),
    (∀ g k i, (k, i) ∈ [(ReqKind.read, Instr.sliceRead g), (.write, .sliceWrite g), (.partialWrite, .slicePartialWrite g), (.atomic, .collectAtomic g), (.reduce, .collectReduce g)] →
      sliceNext s.chip g [k] = some r → r.kind = k → deviceReady s.chip (r.line * 128) 128 = true →
      (backing s.chip (r.line * 128) = none → (k = .read ∨ sidingFull s.chip r.line = false) → Does i s (perform s.chip r)) ∧
      (∀ j, backing s.chip (r.line * 128) = some j → (cacheGet s.chip j r.line).isSome = true → Does i s (perform s.chip r)) ∧
      (∀ j, backing s.chip (r.line * 128) = some j → cacheGet s.chip j r.line = none → (evOf s.chip (j / 4)).any (fun p => p.line == r.line) = false → k ≠ .write →
        Does i s (modReq (bump s.chip BUF_MISS_CTR 1) r.id (fun q => { q with st := 1 })))) ∧
    (∀ d k i, (k, i) ∈ [(ReqKind.read, Instr.hbmRead d), (.write, .hbmWrite d), (.partialWrite, .hbmPartialWrite d)] →
      stackNext s.chip d [k] = some r → r.kind = k → fget s.chip (HBMs_STAT_LEVEL d) ≠ 3 → deviceReady s.chip (r.line * 128) 128 = true →
      (k = .read ∨ sidingFull s.chip r.line = false) → Does i s (perform s.chip r)) ∧
    (r ∈ s.chip.reqs → r.cls = 3 →
      (∀ g, servingSlice s.chip r.line = some g → 2 ^ fget s.chip BUF_CTRL_PROMOTE_LOG2 ≤ 2 * (s.chip.ns - r.since) →
        Does (.sliceClassDPromote g r.id) s (modReq s.chip r.id (fun q => { q with cls := 2 }))) ∧
      (∀ d, isHbm (r.line * 128) = true → stackOf (r.line * 128) = d → 2 ^ fget s.chip HBM_CTRL_PROMOTE_LOG2 ≤ 2 * (s.chip.ns - r.since) →
        Does (.hbmClassDPromote d r.id) s (modReq s.chip r.id (fun q => { q with cls := 2 }))))) ∧
  (∀ (m : Chip) (r : Req),
    (r.kind = .read → perform m r = answer (readLine (dropReq m r.id) r.line false).2 r (readLine (dropReq m r.id) r.line false).1.fate (readLine (dropReq m r.id) r.line false).1.ln 0) ∧
    (r.kind = .write → perform m r = answer (writeLine (dropReq m r.id) r.line r.ln false).2 r (writeLine (dropReq m r.id) r.line r.ln false).1 r.ln 0) ∧
    (r.kind = .partialWrite → r.who ≠ .fix → perform m r =
      (let w := partialWrite (dropReq m r.id) r.line r.ln.data r.mask (r.ln.wb == crc32c r.ln.data) false
       answer w.2 r w.1 (failLine (dropReq m r.id) r.line r.ln w.1) 0)) ∧
    (r.kind = .partialWrite → r.who = .fix → badAddress (dropReq m r.id) (r.line * 128) true = false → perform m r =
      (let c := dropReq m r.id
       let g := peekLine c r.line
       let f := storedFate g
       putLine (noteWb (noteRmw c r.line) r.line f) r.line
         (if f = .good then goodLine g.ln.data else if f = .poisoned then { g.ln with errs := [], poison := true } else poisonLine g.ln.data))) ∧
    (r.kind = .atomic → perform m r =
      (let w := atomicAt (dropReq m r.id) r.line r.op r.size r.at_ r.a r.b
       answer w.2.2 r w.1 (failLine (dropReq m r.id) r.line r.ln w.1) w.2.1)) ∧
    (r.kind = .reduce → perform m r =
      (let w := reduceAt (dropReq m r.id) r.line r.op r.size r.ln
       answer w.2 r w.1 (if wbOk r.ln then failLine (dropReq m r.id) r.line r.ln w.1 else r.ln) 0)))

/-- The buffer's own events (R293 to R297, R304 to R307, R322 to R326): a fill meets the request that waits, at once or when the eviction buffer has room; the oldest line of the eviction buffer goes to HBM, and with
none a running flush writes its next line back; a parked line goes home once its path is open, and a writer that waited for the siding proceeds; a scrub reads its next line and ends with its counts; a clear ends with every line of its range zero and a write of
BUF_CTRL starts the flushes it names.
BUF commands (R301, R302, R321 to R324, R663): BUF.REGION creates a region in the lowest free slot, its granules cleared, and answers slot and granule, or removes one, written back and cleared; BUF.FLUSH completes when what is dirty has been
written back; BUF.SCRUB and BUF.CLEAR run over their range; BUF.FLIP arms a flip and rewrites its line.
Where the rules leave room it rests on the model's own choices, log entries 21 and 22. -/
def Obligations.BufferEventsAndCommands : Prop :=
  (
    ∀ s : State, acts s = true →
      (∀ id r, s.chip.reqs.find? (fun r => r.id == id && r.st == 1) = some r → Does (.cacheFillReturn id) s (fillReturn s.chip r)) ∧
      (∀ (m : Chip) (r : Req) (k : Nat), backing m (r.line * 128) = some k → cacheGet m k r.line = none → r.kind ≠ .write →
        (readHbmLine m r.line).1.fate = .good → wbOk (readHbmLine m r.line).1.ln = true →
        (∀ w, cacheRoom (readHbmLine m r.line).2 k r.line = some w →
          fillReturn m r = perform (cachePut w.2 k r.line { way := w.1, dirty := false, ln := (readHbmLine m r.line).1.ln }) r)) ∧
      (∀ half, half < 2 → evOf s.chip half ≠ [] → Does (.evictionWriteback half) s (evDrain s.chip half)) ∧
      (∀ half k l, half < 2 → evOf s.chip half = [] → flushing s.chip half = k :: l → Does (.evictionWriteback half) s (flushStep s.chip k)) ∧
      (∀ half r, pickReq s.chip (fun r => r.st == 2 && (backing s.chip (r.line * 128)).any (fun k => k / 4 == half)) = some r → (evOf s.chip half).length < 512 →
        Does (.evictionRoomResume half) s (fillReturn s.chip r)) ∧
      (∀ half p, (sidingOf s.chip half).find? (fun p => !pathShut s.chip (pathOf (p.line * 128))) = some p →
        Gives (.sidingDrain half) s (fun m => m.mem = (storeCell (setSiding s.chip half ((sidingOf s.chip half).erase p)) p.line p.ln).mem ∧
          sidingOf m half = (sidingOf s.chip half).erase p)) ∧
      (∀ half r, pickReq s.chip (fun r => r.st == 3 && sidingHalf (r.line * 128) == half) = some r → sidingFull s.chip r.line = false →
        Does (.sidingRoomResume half) s (perform s.chip r)) ∧
      (∀ half q, bufScrub s.chip half = some q → scrubRead s.chip q.next = none → q.left ≠ 1 → q.left ≠ 0 →
        Does (.bufScrubLine half) s (setBufScrub s.chip half (some { q with next := q.next + 1, left := q.left - 1 }))) ∧
      (∀ half q ln got, bufScrub s.chip half = some q → scrubRead s.chip q.next = some (ln, got) → got.corr = 0 → storedFate got = .good →
        (let q1 := scrubCount q (ln * 128) 0 .good
         let m1 : Chip := { s.chip with freeCtr := s.chip.freeCtr + 1 }
         (2 ≤ q.left → Does (.bufScrubLine half) s (setBufScrub m1 half (some q1))) ∧
         (q.left = 1 → Does (.bufScrubLine half) s (respond (setBufScrub m1 half none) q.m 0 (scrubWords m1 q1))))) ∧
      (∀ half i, clearMb s.chip half = some i →
        Does (.bufClearDone half) s (respond (clearRange s.chip (nth (cmdAux s.chip i) 1) (nth (cmdAux s.chip i) 2)) i 0 [elapsed s.chip (cmdT0 s.chip i)])) ∧
      (∀ v : Word, bitsN v.toNat 23 16 ≠ 0 →
        Does (.bufCtrlFlush v) s ((List.range 8).foldl (fun c k => if v.toNat.testBit (16 + k) then startFlush c k else c) (writeFields s.chip 0x30000 v.toNat)))) ∧
  (
    ∀ s : State, acts s = true → ∀ i,
      (let p := cmdPay s.chip i
       let m := s.chip
       (cmdReady m i 0x0301 = true → bitsN (nth p 0) 31 28 = 0 →
         (let half := bitN (nth p 0) 27
          let size := bitsN (nth p 0) 26 24
          let base := bitsN (nth p 1) 18 8
          let gib := bitsN (nth p 1) 7 0
          ∀ k0 g, firstIdx 4 (fun k => !rgnOn m (4 * half + k)) = some k0 → granulesUsed m half + 2 ^ size ≤ 32 → chooseGranule m half size (bitsN (nth p 0) 21 16) = some g →
            base + gib ≤ 1536 →
            (∀ k, k < 8 → rgnOn m k = true → rangesMeet base gib (fget m (BUF_RGNk_BACK_BASE k)) (fget m (BUF_RGNk_CFG_BACK_GIB k)) = false) →
            (∀ j, j < gib → stackUp m ((base + j) / 64) = true) → rowTouches m (granuleDa half g) (2 ^ size * 0x4000000) = false →
            (let k := 4 * half + k0
             Does (.bufRegion i) s (respond (setCsr (setCsr (clearRange m (granuleDa half g) (2 ^ size * 0x4000000)) (0x30044 + 8 * k) base)
               (0x30040 + 8 * k) (2 ^ 31 + size * 2 ^ 24 + g * 2 ^ 16 + gib * 2 ^ 8)) i 0 [g * 2 ^ 16 + k])))) ∧
       (cmdReady m i 0x0301 = true → bitsN (nth p 0) 31 28 ≠ 0 →
         (let k := bitsN (nth p 2) 2 0
          let g := fget m (BUF_RGNk_CFG_FIRST_GRANULE k)
          let n := 2 ^ fget m (BUF_RGNk_CFG_SIZE k) * 0x4000000
          rgnOn m k = true → rowTouches m (granuleDa (k / 4) g) n = false →
          Does (.bufRegion i) s (respond (clearRange (setCsr (setCsr ((List.range 512).foldl (fun c _ => evDrain c (k / 4)) (emptyRegion m k)) (0x30040 + 8 * k) 0) (0x30044 + 8 * k) 0)
            (granuleDa (k / 4) g) n) i 0 [g * 2 ^ 16 + k]))) ∧
       (cmdReady m i 0x0302 = true → rgnOn m (bitsN (nth p 0) 2 0) = true →
         (let k := bitsN (nth p 0) 2 0
          let m1 := cmdOn (startFlush m k) i [(regionLines m k true).length]
          Does (.bufFlush i) s { m1 with buf := { m1.buf with flushMb := tput 0 k (1 + i + 4 * bitN (nth p 0) 8) m1.buf.flushMb } })) ∧
       (cmdReady m i 0x0303 = true → scrubRange (da01 p) (nth p 2 * 128) = true → bufScrub m (halfOf (da01 p)) = none →
         Does (.bufScrub i) s (cmdOn (setBufScrub m (halfOf (da01 p)) (some { m := i, next := da01 p / 128, left := nth p 2, t0 := m.ns, noFix := tb (nth p 3) 7 })) i [])) ∧
       (cmdReady m i 0x0304 = true → scrubRange (da01 p) (nth p 2 * 128) = true →
         (∀ j, inCache m (min (da01 p + nth p 2 * 128 - 1) (da01 p + j * 0x4000000)) = false) → Does (.bufClear i) s (cmdOn m i [halfOf (da01 p), da01 p, nth p 2 * 128])) ∧
       (cmdReady m i 0x0305 = true → scratch m (da01 p) = true →
         (let r := readLine m (da01 p / 128) true
          let m1 := setCsr (setCsr (setCsr r.2 0x30008 (if nth p 2 = 1 then 3 else 1)) 0x3000C 0) 0x30004 (2 ^ 31 + (if nth p 2 = 2 then 2 else 0) * 2 ^ 29 + gSlice (halfOf (da01 p)) (da01 p))
          Does (.bufFlip i) s (respond (putLine m1 (da01 p / 128) { r.1.ln with errs := [] }) i 0 [])))))

/-! ### HBM stacks -/

/-- What happens at a stack (R443 to R459, R463 to R468): its own refresh runs when no row does; training gives the pseudo-channel in turn its setting, or counts a failure; a temperature sets TEMP, HOT
and the level by the thresholds of R452; a scrub reads, counts and ends; a write of OOS takes the stack out or returns it; a drained stack sets OOS_DONE; a returned one serves again; an array test answers what it found.
HBM commands (R456 to R470): HBM.SERVICE takes a stack out unless something rests on it, answers at once where nothing is to do, or returns it; HBM.THROTTLE forces a level; HBM.SCRUB runs over a range of one stack; HBM.FLIP arms a flip and
rewrites its line; HBM.STATUS answers eight registers; DIAG.HBM tests a stack that is out of service.
Where the rules leave room it rests on the model's own choices, log entry 23. -/
def Obligations.StackEventsAndCommands : Prop :=
  (
    ∀ s : State, acts s = true → ∀ d,
      (let m := s.chip
       (stackUp m d = true → refreshRowed m d = false → (stack m d).lastRefresh + 16384 ≤ m.ns → fget m (HBMs_STAT_LEVEL d) ≠ 3 →
         Does (.refreshTimer d) s (modStack m d (fun q => { q with refresh := q.refresh + (if fon m (HBMs_STAT_HOT d) then 8 else 4), lastRefresh := m.ns }))) ∧
       (∀ k r set, trainRow m d = some (k, r) →
         (let m1 := setRow m k (some { r with sent := [nth r.sent 0 + 1, 0] })
          let pc := (stack m d).trainPc
          Does (.hbmTrainingFinish d true set) s (modStack (recMark m1) d (fun q => { q with setting := tput 0 pc set q.setting, trainPc := (pc + 1) % 64 })) ∧
          Does (.hbmTrainingFinish d false set) s (bump (modStack m1 d (fun q => { q with trainPc := (pc + 1) % 64 })) HBM_TRAIN_FAIL_CTR 1))) ∧
       (∀ t, d < 24 → ∃ u, exec (.hbmTempRead d t) s = .next u ∧
         (let old := (stack m d).level
          let enter := if 105 ≤ t then 3 else if 100 ≤ t then 2 else if 95 ≤ t then 1 else 0
          let exit := if old = 3 then 100 else if old = 2 then 95 else 90
          (d < m.stks.length → (stack u.chip d).level = if old ≤ enter ∨ t ≤ exit then enter else old) ∧ (stack u.chip d).svc = (stack m d).svc) ∧ u.chip.rows = m.rows) ∧
       (∀ q, (stack m d).scrub = some q → (hbmGot m q.next).corr = 0 → storedFate (hbmGot m q.next) = .good →
         (let q1 := scrubCount q (q.next * 128) 0 .good
          (2 ≤ q.left → Does (.hbmScrubLine d) s (modStack m d (fun k => { k with scrub := some q1 }))) ∧
          (q.left = 1 → Does (.hbmScrubLine d) s (respond (setTestBusy (modStack m d (fun k => { k with scrub := none })) d) q.m 0
            (scrubWords m q1))))) ∧
       (∀ v : Word, d < 24 → bitN v.toNat 0 ≠ fget m (HBMs_CTRL_OOS d) →
         (let m2 := setLevel (fset (fset m (HBMs_CTRL_OOS d) (bitN v.toNat 0)) (HBMs_CTRL_FORCE_LEVEL d) (bitsN v.toNat 5 4)) d
          (bitN v.toNat 0 = 1 → (stack m2 d).svc = 0 → Does (.hbmOosWrite d v) s (stackOut m2 d none true)) ∧
          (bitN v.toNat 0 = 0 → (stack m2 d).svc = 2 →
            Does (.hbmOosWrite d v) s (fset (modStack (recMark m2) d (fun q => { q with svc := 0, byCmd := false, byReg := false, rowsDue := true })) (HBMs_STAT_OOS_DONE d) 0)))) ∧
       (d < 24 → (stack m d).svc = 1 →
         (let m1 := fset (retireStackRows (modStack m d (fun q => { q with svc := 2, svcMb := none })) d) (HBMs_STAT_OOS_DONE d) 1
          ((stack m d).svcMb = none → Does (.hbmDrainDone d) s m1) ∧ (∀ i, (stack m d).svcMb = some i → Does (.hbmDrainDone d) s (respond m1 i 0 [0])))) ∧
       (∀ i, d < 24 → (stack m d).svc = 3 → (stack m d).svcMb = some i →
         Does (.hbmReturnDone d false) s (respond (modStack m d (fun q => { q with svc := 2, svcMb := none })) i 0x0602 []) ∧
         ((stack m d).destroyed = false → ltState m = 3 →
           (let m2 := modStack (recMark m) d (fun q => { q with svc := 0, byCmd := false, byReg := false, svcMb := none, destroyed := false, lostPc := q.lostPc })
            let m3 := fset (fset m2 (HBMs_STAT_OOS_DONE d) 0) (HBMs_CTRL_OOS d) 0
            Does (.hbmReturnDone d true) s (respond (postStackRows m3 d) i 0 [2])))) ∧
       (∀ i kind sel t0 banks pcs first, (stack m d).test = some (i, kind, sel, t0) →
         (let m1 := setTestBusy (modStack m d (fun k => { k with test := none })) d
          let m2 := if kind = 1 then m1 else losePcs m1 d sel
          Does (.hbmArrayTestEnd d banks pcs first) s (respond m2 i 0 ([banks % 2 ^ 32] ++ lohi pcs ++ lohi (first % 2 ^ 48) ++ [elapsed m2 t0])))))) ∧
  (
    ∀ s : State, acts s = true → ∀ i,
      (let p := cmdPay s.chip i
       let m := s.chip
       let d := bitsN (nth p 0) 4 0
       (cmdReady m i 0x0601 = true → bitsN (nth p 0) 31 28 = 0 →
         ((stack m d).svc = 1 ∨ (stack m d).svc = 2 → Does (.hbmService i) s (respond m i 0 [0])) ∧
         ((stack m d).svc = 0 → backsStack m d = false → (∀ k, k < 64 → fon m (HOST_SEGk_VALID k) = true → fget m (HOST_SEGk_TARGET k) / 64 ≠ d) →
           rowTouches m (d * 2 ^ 36) (2 ^ 36) = false → twinOnStack m d = false → Does (.hbmService i) s (cmdOn (stackOut m d (some i) false) i []))) ∧
       (cmdReady m i 0x0601 = true → bitsN (nth p 0) 31 28 ≠ 0 →
         ((stack m d).svc = 0 → Does (.hbmService i) s (respond m i 0 [2])) ∧
         ((stack m d).svc = 2 → Does (.hbmService i) s (cmdOn (modStack m d (fun q => { q with svc := 3, svcMb := some i, noClear := tb (nth p 0) 5 })) i []))) ∧
       (cmdReady m i 0x0602 = true → Does (.hbmThrottle i) s (respond (setLevel (fset m (HBMs_CTRL_FORCE_LEVEL d) (bitsN (nth p 0) 9 8)) d) i 0 [])) ∧
       (cmdReady m i 0x0603 = true → da01 p % 128 = 0 → isHbm (da01 p + nth p 2 * 128 - 1) = true → stackOf (da01 p + nth p 2 * 128 - 1) = stackOf (da01 p) →
         (stack m (stackOf (da01 p))).scrub = none → (stack m (stackOf (da01 p))).test = none →
         Does (.hbmScrub i) s (cmdOn (setTestBusy (modStack m (stackOf (da01 p)) (fun q => { q with
           scrub := some { m := i, next := da01 p / 128, left := nth p 2, t0 := m.ns, noFix := tb (nth p 3) 7 } })) (stackOf (da01 p))) i [])) ∧
       (cmdReady m i 0x0604 = true → isHbm (da01 p) = true → stackUp m (stackOf (da01 p)) = true →
         (let r := readHbmLine m (da01 p / 128)
          Does (.hbmFlip i) s (respond (writeCell (setCsr (setCsr r.2 0x6000C 1) 0x60008
            (2 ^ 31 + (if nth p 2 = 3 then 2 ^ 30 else nth p 2 * 2 ^ 23) + stackOf (da01 p) * 2 ^ 8)) (da01 p / 128) { r.1.ln with errs := [] }) i 0 []))) ∧
       (cmdReady m i 0x0605 = true →
         Does (.hbmStatus i) s (respond m i 0 ([0x04, 0x18, 0x1C, 0x20, 0x24, 0x08, 0x10, 0x14].map (fun o => csr m (0x60100 + 0x100 * d + o))))) ∧
       (cmdReady m i 0x0D02 = true → (stack m d).svc = 2 → (stack m d).scrub = none → (stack m d).test = none →
         (let sel := nth p 1 + nth p 2 * 2 ^ 32
          Does (.diagHbm i) s (cmdOn (setTestBusy (modStack m d (fun k => { k with test := some (i, bitsN (nth p 0) 31 28, if sel = 0 then 2 ^ 64 - 1 else sel, m.ns) })) d) i [])))))

/-! ### The consist -/

/-- A wagon's way through the consist of a base die (R330 to R352, R360 to R373, R382, R385): a descriptor is accepted from its ring, waits for its word, or ends at its limit; Fetch creates the next wagon and requests its lines; a checked line
joins its wagon and a bad one fails the descriptor with CON_WAYBILL or CON_SOURCE; an idle engine expands a whole wagon or fails it with CON_FORMAT, and hands it to Stage; Stage issues its operations while tablets last, and retires the wagon once all are acknowledged; a reclaim
restores the tablets not held; a regulator gains 4 RATE credits, to 8 RATE.
Where the rules leave room it rests on the model's own choices, log entry 24. -/
def Obligations.ConsistMovesWagons : Prop :=
  ∀ s : State, acts s = true → ∀ d id,
    (let m := s.chip
     (∀ n, conWants m n = true → Does (.conDescriptorAccept n) s (ringRead m n (fun _ => true) (conTake n))) ∧
     (∀ x a, desc m d id = some x → x.run = false → dWait x.w = some a → deviceReady m a 4 = true → (loadWord m a false).2.1 = none →
       (nth x.w 11 ≤ (loadWord m a false).1 → Does (.conWaitPoll d id) s (conStart (loadWord m a false).2.2 d id)) ∧
       ((loadWord m a false).1 < nth x.w 11 → Does (.conWaitPoll d id) s (loadWord m a false).2.2)) ∧
     (conLate m d id = true → Does (.conWaitTimeout d id) s (conEnd m d id 8 0xFFFFFFFF)) ∧
     (∀ did x, fetchReady m d = true → nextFetch m d = some (did, x) →
       Does (.fetchWagonStart d) s (fetchIssue (modDesc (modCon m d (fun c => { c with wagons := c.wagons ++ [newWagon (conDie m d).nextWagon did x], nextWagon := (conDie m d).nextWagon + 1, last := did, created := c.created + 1 })) d did (fun x => { x with next := x.next + 1, known := dOp x.w != 1 })) d)) ∧
     (∀ r wid pos w x, fetchResp m d id = some (r, wid, pos) → (conDie m d).wagons.find? (fun w => w.id == wid) = some w → desc m d w.desc = some x →
       (let m1 : Chip := { m with resps := m.resps.filter (fun x => x != r) }
        (r.fate = .good → wbOk r.ln = true → Does (.fetchLineReturn d id) s (lineIn m1 d w pos r.ln)) ∧
        (r.fate = .good → wbOk r.ln = false → Does (.fetchLineReturn d id) s
          (conEnd (recFate (bump m1 CON_WBILL_CTR 1) 5 d (ownDesc x) w.idx r.line { ln := r.ln, fate := .waybill }) d w.desc 4 w.idx)) ∧
        (r.fate = .uncorrectable ∨ r.fate = .poisoned → Does (.fetchLineReturn d id) s
          (conEnd (recFate m1 5 d (ownDesc x) w.idx r.line { ln := r.ln, fate := r.fate }) d w.desc 5 w.idx)))) ∧
     (∀ e w x, firstIdx 64 (engineIdle m d) = some e → expandNext m d = some w → desc m d w.desc = some x →
       (let rec_ := (parseRecord x.w w.idx (wagonBytes w)).filter (fun r => lastOk x.w w.idx ((w.src - dSrc x.w / 128) * 128 + w.off) r.length)
        (∀ r, rec_ = some r → Does (.expandWagon d e) s (modWagon m d w.id (fun v => { v with st := 2, engine := e, todo := expandOps x.w w.idx r }))) ∧
        (rec_ = none → Does (.expandWagon d e) s (conMove (conEnd (bump m CON_FORMAT_CTR 1) d w.desc 3 w.idx) d)))) ∧
     (∀ e w, (conDie m d).wagons.find? (fun w => w.st == 2 && w.engine == e) = some w → 0 < tabOf m d 2 → reclaiming m d 2 = false →
       Does (.expandHand d e) s (fetchIssue (handWagon m d w w.todo) d)) ∧
     (∀ w x, reclaiming m d 3 = false → (conDie m d).wagons.find? (fun w => w.id == id && w.st == 3) = some w → desc m d w.desc = some x →
       (let q := stageIssue d x.w id w.todo m
        Does (.stageWagonWrite d id) s (modWagon q.2.2 d id (fun v => { v with todo := q.1, issued := v.issued ++ q.2.1, acks := v.acks + q.2.1.length })))) ∧
     (∀ w, (conDie m d).wagons.find? (fun w => w.id == id && w.st == 3) = some w →
       (w.failed = true → Does (.stageWagonRetire d id) s (conMove (conEnd m d w.desc 5 w.idx) d)) ∧
       (w.failed = false → w.todo = [] → w.acks = 0 →
         (let m1 := modCon (bump m CON_WAGON_CTR 1) d (fun c => { c with wagons := c.wagons.filter (fun v => v.id != id), retired := c.retired + 1 })
          let m2 := modDesc (tabBack m1 d 2 1) d w.desc (fun x => { x with retired := x.retired + 1 })
          ((desc m2 d w.desc).any (fun x => x.retired == dWagons x.w) = true → Does (.stageWagonRetire d id) s (conMove (conEnd m2 d w.desc 0 0xFFFFFFFF) d)) ∧
          ((desc m2 d w.desc).any (fun x => x.retired == dWagons x.w) = false → Does (.stageWagonRetire d id) s (conMove m2 d))))) ∧
     (∀ h, reclaiming m d h = true → inFlight m d h = false → (∀ i, cmdGoing m i 0x0403 = false) →
       Does (.consistReclaimDone d h) s (conMove (conNote (bump (modCon m d (fun c => { c with
         avail := if h < 3 then setAt c.avail h (nth [64, 8192, 256] h - tabsHeld m d h) else c.avail, sliceOut := if h = 3 then [] else c.sliceOut, reclaim := c.reclaim.filter (· != h) })) CON_RECLAIM_CTR 1)) d)) ∧
     (∀ k, refillDue m k = true → fget m (CON_REGk_CFG_MODE k) ≠ 0 → (∀ r ∈ m.reqs, r.st ≠ 4 ∨ r.reg ≠ k) →
       Does (.regulatorRefill k) s { m with credits := tput 0 k (min (8 * fget m (CON_REGk_CFG_RATE k)) (tget 0 k m.credits + 4 * fget m (CON_REGk_CFG_RATE k))) m.credits, refillAt := tput 0 k m.ns m.refillAt }))

/-- Commands and registers of the consist (R347, R382, R388, R389, R663): CON.RUN is BUSY where its ranges meet others' and else runs as a descriptor of its die; CON.REGULATE writes the regulator it finds; CON.RESET and CON_RESET end the descriptors in the stages they
name and reclaim the hand-offs.
Commands and registers of the points engines (R391, R394, R398, R399, R425, R426): a write of PTS_TBL_DATA stores the entry at INDEX, its reserved bits 0, and INDEX moves on; PTS.TABLE stores its entries while no job runs; PTS.ROUTE and PTS.TALLY run a job on the engine of
their die, BUSY where a row sends the area; a reset ends the job with PTS_ABORT.
Where the rules leave room it rests on the model's own choices, log entries 24 and 25. -/
def Obligations.ConsistAndPointsCommands : Prop :=
  (
    ∀ s : State, acts s = true → ∀ i,
      (let p := cmdPay s.chip i
       let m := s.chip
       (cmdReady m i 0x0401 = true → runMeets m (fit 14 0 p) = true → Does (.conRun i) s (respond m i 1 [])) ∧
       (cmdReady m i 0x0401 = true → runMeets m (fit 14 0 p) = false → conOpen m (dDie (fit 14 0 p)) = true →
         Does (.conRun i) s (conAccept (cmdOn m i [dDie (fit 14 0 p)]) (dDie (fit 14 0 p)) none i (fit 14 0 p))) ∧
       (∀ k, cmdReady m i 0x0402 = true → chooseReg m (nth p 0) = some k →
         Does (.conRegulate i) s (respond (regStart m (setCsr m (CON_REGk_CFG_MODE k).off (bitsN (nth p 0) 31 30 * 2 ^ 30 + bitsN (nth p 0) 23 16 * 2 ^ 16 + nth p 1 % 65536)) k) i 0 [k])) ∧
       (cmdReady m i 0x0402 = true → chooseReg m (nth p 0) = none → Does (.conRegulate i) s (respond m i 0 [if bitsN (nth p 0) 31 30 = 0 then 0 else 2 ^ 31])) ∧
       (cmdReady m i 0x0403 = true →
         (let d := bitN (nth p 0) 0
          let st := bitsN (nth p 0) 7 4
          Does (.conReset i) s (resetStages (cmdOn m i [d, (resetDescs m d st).length]) d st))) ∧
       (∀ v : Word, Does (.conResetWrite v) s (resetStages (resetStages m 0 (bitsN v.toNat 3 0)) 1 (bitsN v.toNat 7 4))) ∧
       (∀ d st, st % 16 ≠ 0 → resetStages m d st =
         startReclaim ((resetDescs m d st).foldl (fun c id => conEnd c d id 9 0xFFFFFFFF) m) d ((idxs 4 st.testBit).flatMap stageHandoffs)))) ∧
  (
    ∀ s : State, acts s = true → ∀ i,
      (let p := cmdPay s.chip i
       let m := s.chip
       let w := fit 14 0 p
       (∀ v : Word, Gives (.ptsTblDataWrite v) s (fun t => tget 0 (fget m PTS_TBL_IDX_INDEX) t.pts.table = v.toNat &&& 0x87FF0FFF ∧
         (∀ k, k ≠ fget m PTS_TBL_IDX_INDEX → tget 0 k t.pts.table = tget 0 k m.pts.table) ∧ fget t PTS_TBL_IDX_INDEX = (fget m PTS_TBL_IDX_INDEX + 1) % 4096 ∧ t.pts.jobs = m.pts.jobs)) ∧
       (cmdReady m i 0x0501 = true → ptsJob m 0 = none → ptsJob m 1 = none →
         Does (.ptsTable i) s (respond ((List.range (nth p 1)).foldl (fun c k => setExpert c (nth p 0 + k) (nth p (2 + k))) m) i 0 [])) ∧
       (cmdReady m i 0x0501 = true → (ptsJob m 0).isSome = true ∨ (ptsJob m 1).isSome = true → Does (.ptsTable i) s (respond m i 1 [])) ∧
       (∀ code ins, (code, ins) ∈ [(0x0502, Instr.ptsRoute i), (0x0503, Instr.ptsTally i)] → cmdReady m i code = true →
         (jRoute w = true → sendMeets m w = true → Does ins s (respond m i 1 [])) ∧
         ((jRoute w = false ∨ sendMeets m w = false) → ptsOpen m (bitN (nth w 6) 25) = true →
           Does ins s (ptsAccept (cmdOn m i [bitN (nth w 6) 25]) (bitN (nth w 6) 25) none i w))) ∧
       (cmdReady m i 0x0504 = true → Does (.ptsReset i) s (respond (ptsEnd m (bitN (nth p 0) 0) 8) i 0 [])) ∧
       (∀ v : Word, (v.toNat % 4 = 1 → Does (.ptsResetWrite v) s (ptsEnd m 0 8)) ∧ (v.toNat % 4 = 2 → Does (.ptsResetWrite v) s (ptsEnd m 1 8)) ∧
         (v.toNat % 4 = 3 → Does (.ptsResetWrite v) s (ptsEnd (ptsEnd m 0 8) 1 8)) ∧ (v.toNat % 4 = 0 → Does (.ptsResetWrite v) s m))))

/-! ### The points engines -/

/-- A job of a points engine (R390 to R407, R413): taken from its ring when the engine is idle and accepts, checked, waiting for its word, or ended at its limit; a route job decides its next token, then writes its next slot block; a tally job counts its next expert's headers, then
writes its words; a job whose writes are done completes with its done word and record.
Where the rules leave room it rests on the model's own choices, log entries 24 and 25. -/
def Obligations.PointsJobsRun : Prop :=
  ∀ s : State, acts s = true → ∀ e,
    (let m := s.chip
     (∀ n, ptsOpen m e = true → ptsRing m e = some n → Does (.ptsJobAccept e) s (ringRead m n (fun _ => true) (ptsTake n))) ∧
     (∀ j a, ptsJob m e = some j → j.run = false → jWait j.w = some a → deviceReady m a 4 = true → (loadWord m a false).2.1 = none →
       (nth j.w 10 ≤ (loadWord m a false).1 → Does (.ptsWaitPoll e) s (setJob (loadWord m a false).2.2 e (some { j with run := true, start := m.ns }))) ∧
       ((loadWord m a false).1 < nth j.w 10 → Does (.ptsWaitPoll e) s (loadWord m a false).2.2)) ∧
     (ptsLate m e = true → Does (.ptsWaitTimeout e) s (ptsEnd m e 6)) ∧
     (∀ j, ptsJob m e = some j → j.run = true → j.fin = false → (∀ a ∈ jAreas j.w, deviceReady m a.1 a.2 = true) →
       (jRoute j.w = true → j.tok < jTokens j.w → Does (.routeJobRun e) s (pKeep e (routeToken e { m := m, j := j }))) ∧
       (jRoute j.w = true → jTokens j.w ≤ j.tok → Does (.routeJobRun e) s (pKeep e (routeBlock e { m := m, j := j }))) ∧
       (jRoute j.w = false → j.blk < jPos j.w → Does (.tallyJobRun e) s (pKeep e (tallyLocal e { m := m, j := j }))) ∧
       (jRoute j.w = false → jPos j.w ≤ j.blk → Does (.tallyJobRun e) s (pKeep e (tallyWrite e { m := m, j := j })))) ∧
     (∀ j, ptsJob m e = some j → j.fin = true → Does (.ptsJobComplete e) s (ptsEnd m e 0)) ∧
     (∀ j, ptsJob m e = some j →
       (∀ st, ptsJob (ptsEnd m e st) e = none ∧ (∀ f, f ≠ e → ptsJob (ptsEnd m e st) f = ptsJob m f))))

/-! ### Fervin lanes -/

/-- A lane's training and failure (R476, R484 to R490, R497, R500, R505): SIGNAL, CDR, FRAME, ADAPT and READY in turn, FAILED where the skew exceeds 16 ns, the LANE field is another's, or the time is over; a port whose lanes are decided steps up while both ends can,
falls back to the rate of the largest capacity, or settles; a port without a passing lane for 100 ms goes DOWN; a failing lane leaves the set in use; a far-end loop ends after 16 frames without its request.
Where the rules leave room it rests on the model's own choices, log entries 28 and 29. -/
def Obligations.LanesTrainAndFail : Prop :=
  ∀ s : State, acts s = true → ∀ p n, p < 36 → n < 4 →
    (let m := s.chip
     let q := port m p
     (laneSt m p n = 1 → linkSt m p = 1 → Does (.laneSignalDetect p n) s (setLink (modLane (setLane m p n 2) p n (fun l => { l with t0 := m.ns })) p 2)) ∧
     (laneSt m p n = 1 → linkSt m p = 2 → Does (.laneSignalDetect p n) s (modLane (setLane m p n 2) p n (fun l => { l with t0 := m.ns }))) ∧
     (laneSt m p n = 2 ∨ laneSt m p n = 6 → Does (.laneCdrLock p n) s (setLane m p n 3)) ∧
     (∀ skew field, laneSt m p n = 3 →
       (skew ≤ 16 → field = n → Does (.laneFrameLock p n skew field) s (setLane m p n 4)) ∧
       (16 < skew ∨ field ≠ n → Does (.laneFrameLock p n skew field) s (restoreDone (setLane m p n 7) p))) ∧
     (∀ c, laneSt m p n = 4 → c ≤ 128 → Does (.laneAdaptPass p n c 0) s (restoreDone (setLane m p n 5) p)) ∧
     (∀ st ∈ [2, 3, 4, 6], laneSt m p n = st → (q.lanes.getD n {}).t0 + laneLimit m p ≤ m.ns → Does (.laneAdaptTimeout p n) s (restoreDone (setLane m p n 7) p)) ∧
     (∀ st, st ≤ 8 → laneSt (setLane m p n st) p n = st ∧ (∀ k, k < 4 → k ≠ n → laneSt (setLane m p n st) p k = laneSt m p k)) ∧
     (∀ ok req mx, linkSt m p = 2 → lanesIn m p [5, 7] = 15 →
       (let pass := lanesIn m p [5] &&& ok % 16
        let m0 := modPort m p (fun q => { q with farOk := ok % 16 })
        let ps := setAt q.passed q.tryRate (pass + 1)
        let m1 := modPort m0 p (fun q => { q with passed := ps })
        let b := bestRate ps
        let up := q.tryRate < min (fget m (LNKp_CFG_MAX_RATE p)) (min 3 mx)
        (q.verify = false → pass ≠ 0 → up → req ≠ q.tryRate + 1 → Does (.laneRateStep p ok req mx) s m) ∧
        (q.verify = false → pass ≠ 0 → up → req = q.tryRate + 1 → Gives (.laneRateStep p ok req mx) s (fun t => (port t p).tryRate = q.tryRate + 1 ∧ fget t (LNKp_STAT_RATE p) = q.tryRate + 1)) ∧
        (q.verify = false → pass = 0 ∨ ¬ up → b.2 = 0 → Does (.laneRateStep p ok req mx) s m1) ∧
        (q.verify = false → pass = 0 ∨ ¬ up → b.2 ≠ 0 → q.tryRate ≤ b.1 → Does (.laneRateStep p ok req mx) s (settleRate m1 p b.2)) ∧
        (q.verify = false → pass = 0 ∨ ¬ up → b.2 ≠ 0 → b.1 < q.tryRate → Gives (.laneRateStep p ok req mx) s (fun t => (port t p).verify = true ∧ fget t (LNKp_STAT_RATE_FALLBACK p) = 1)) ∧
        (q.verify = true → selectLanes pass = 0 → Does (.laneRateStep p ok req mx) s (linkDown m0 p)) ∧
        (q.verify = true → selectLanes pass ≠ 0 → Does (.laneRateStep p ok req mx) s (settleRate m0 p (selectLanes pass))))) ∧
     (linkSt m p = 1 ∨ linkSt m p = 2 → q.tryRate = 0 → q.bringT0 + 100000000 ≤ m.ns → Does (.portBringupTimeout p) s (linkDown (setLanes m p 15 7) p)) ∧
     (∀ cause, tb (lanesUsed m p) n = true →
       cause = 0 ∨ (cause = 2 ∧ fget m LNK_CTRL_UE_MAX < (q.lanes.getD n {}).ueEpoch) ∨ (cause = 3 ∧ tb q.farOk n = false) → Does (.laneFail p n cause) s (lanesFail m p (2 ^ n))) ∧
     (tb (lanesUsed m p) n = true → Does (.laneFail p n 1) s (lanesFail (bump m (LNKp_LOCK_CTR p) 1) p (2 ^ n))) ∧
     (q.farLoop = true → q.loopT0 + frameNs m p 16 ≤ m.ns → Does (.farLoopExit p) s (modPort m p (fun q => { q with farLoop := false }))))

/-- Eye points, loop tests and frames of a port (R482, R492, R495, R496, R498): an expert point adds its errors to the lanes' EYE counters and is done; LNK.EYE's point moves its bisection while its possession is ACTIVE; a test that no lane locked fails with LNK_NO_LOCK;
a frame's codewords with more than 15 symbol errors count as uncorrectable, and the errors of the others as corrected; its header gives the far end's RX_OK.
Where the rules leave room it rests on the model's own choices, log entries 28 and 30. -/
def Obligations.EyePointsLoopsAndFrames : Prop :=
  ∀ s : State, acts s = true → ∀ p, p < 36 →
    (let m := s.chip
     (∀ errs, fon m (LNKp_EYE_STAT_BUSY p) = true → Does (.eyePointDone p errs) s
       (let ls := fget m (LNKp_EYE_CTRL_LANES p)
        let m1 := ((List.range 4).filter (tb ls)).foldl (fun c n => bump c (LNKp_Ln_EYE_CTR p n) (nth errs n)) m
        fset (fset m1 (LNKp_EYE_STAT_BUSY p) 0) (LNKp_EYE_STAT_DONE p) ls)) ∧
     (∀ errs e, fon m (LNKp_EYE_STAT_BUSY p) = false → (port m p).eye = some e → possOn m p [2] = true → Does (.eyePointDone p errs) s (scanPoint m p e errs)) ∧
     (∀ errs, fon m (LNKp_EYE_STAT_BUSY p) = false → (port m p).eye = none → Does (.eyePointDone p errs) s m) ∧
     (∀ i lp w t0 locked errs cmp unc, (port m p).loop = some (i, lp, w, t0) →
       (locked % 16 = 0 → lp / 4 = 3 → t0 + 1000000 ≤ m.ns → locked = 0 → Does (.loopTestEnd p locked errs cmp unc) s (fail (modPort m p (fun q => { q with loop := none })) i 0x0702)) ∧
       (t0 + 2 ^ w ≤ m.ns → lp / 4 ≠ 3 ∨ locked % 16 ≠ 0 → Gives (.loopTestEnd p locked errs cmp unc) s (fun t => (port t p).loop = none))) ∧
     (∀ n v errs msg, n < 4 → laneSt m p n ∈ [4, 5, 7, 8] →
       Does (.laneFrameReceive p n v errs msg) s (doLaneFrameReceive p n v.toNat errs msg m) ∧
       (v.toNat / 65536 + v.toNat % 65536 ≠ 0xFFFF → linkSt m p < 3 → Does (.laneFrameReceive p n v errs msg) s
         (modLane (bump (bump m (LNKp_Ln_CE_CTR p n) 0) (LNKp_Ln_UE_CTR p n) 4) p n (fun l => { l with ueEpoch := l.ueEpoch + 4 }))) ∧
       (v.toNat / 65536 + v.toNat % 65536 = 0xFFFF → linkSt m p < 3 → tb (v.toNat / 65536) 4 = false → (port m p).restore = 0 → Does (.laneFrameReceive p n v errs msg) s
         (let bad := ((List.range 4).filter (fun i => decide (15 < nth errs i))).length
          let corr := ((List.range 4).map (fun i => if nth errs i ≤ 15 then nth errs i else 0)).foldl (· + ·) 0
          let m1 := modLane (bump (bump m (LNKp_Ln_CE_CTR p n) corr) (LNKp_Ln_UE_CTR p n) bad) p n (fun l => { l with ueEpoch := l.ueEpoch + bad })
          modPort m1 p (fun q => { q with farOk := bitsN (v.toNat / 65536) 3 0 })))))

/-- Registers and commands of a port's lanes (R491 to R493, R495 to R499, R504 to R509, R512, R513, R530): START measures a point only in a possession of subkind 1 or 2, else REFUSED; a write of LNKp_CFG that changes LANE_EN, LOOP or OOS drops, restores, loops or takes out of service as its
fields say; the LNK commands answer LNK_DOWN, BUSY and BAD_FIELD where the rules say, and else begin or answer.
Where the rules leave room it rests on the model's own choices, log entries 29 and 30. -/
def Obligations.LinkCommands : Prop :=
  ∀ s : State, acts s = true → ∀ i,
    (let m := s.chip
     let w := nth (cmdPay m i) 0
     let p := bitsN w 5 0
     let ls := if bitsN w 11 8 = 0 then lanesUsed m p else bitsN w 11 8 &&& lanesUsed m p
     let down (p : Nat) : Prop := (port m p).oos = true ∨ fget m (LNKp_STAT_WIDTH p) = 0
     (∀ q (v : Word), q < 36 → tb v.toNat 31 = true →
       (let m1 := writeFields m (LNKp_EYE_CTRL_START q).off v.toNat
        (possOn m1 q [1, 2] = false → Does (.eyeStartWrite q v) s (fset m1 (LNKp_EYE_STAT_REFUSED q) 1)) ∧
        (possOn m1 q [1, 2] = true → Gives (.eyeStartWrite q v) s (fun t => fget t (LNKp_EYE_STAT_BUSY q) = 1 ∧ fget t (LNKp_EYE_STAT_DONE q) = 0)))) ∧
     (∀ q (v : Word), q < 36 →
       (bitsN v.toNat 19 16 ≠ fget m (LNKp_CFG_LANE_EN q) → Does (.laneEnWrite q v) s (cfgWrite q v.toNat m)) ∧
       (bitsN v.toNat 10 8 ≠ fget m (LNKp_CFG_LOOP q) → Does (.loopSelectWrite q v) s (cfgWrite q v.toNat m)) ∧
       (bitN v.toNat 31 ≠ fget m (LNKp_CFG_OOS q) → Does (.lnkOosWrite q v) s (cfgWrite q v.toNat m))) ∧
     (cmdReady m i 0x0703 = true → (down p → Does (.lnkEye i) s (fail m i 0x0701)) ∧ (¬ down p → (port m p).eye.isSome = true → Does (.lnkEye i) s (fail m i 1)) ∧
       (¬ down p → (port m p).eye = none → miotoRows m < 128 → ls ≠ 0 → Does (.lnkEye i) s
         (postEye (modPort (cmdOn m i []) p (fun q => { q with eye := some { m := i, lanes := ls, edge := if fget m (LNKp_STAT_RATE p) = 0 then 4 else 0 } })) p))) ∧
     (cmdReady m i 0x0704 = true → (loopAllows (bitsN w 31 28) (bitsN w 27 26) = false → Does (.lnkLoop i) s (fail m i 2)) ∧
       (loopAllows (bitsN w 31 28) (bitsN w 27 26) = true → fon m (LNKp_STAT_OOS_DONE p) = false ∨ (port m p).loop.isSome = true → Does (.lnkLoop i) s (fail m i 1)) ∧
       (loopAllows (bitsN w 31 28) (bitsN w 27 26) = true → fon m (LNKp_STAT_OOS_DONE p) = true → (port m p).loop = none → Does (.lnkLoop i) s
         (modPort (cmdOn m i []) p (fun q => { q with loop := some (i, bitsN w 31 28 * 4 + bitsN w 27 26, if nth (cmdPay m i) 1 = 0 then 24 else nth (cmdPay m i) 1, m.ns) })))) ∧
     (cmdReady m i 0x0702 = true → (let todo := maskN 4 (fun n => tb (bitsN w 11 8) n && !tb (lanesUsed m p) n)
       ((port m p).eye.isSome = true → Does (.lnkLane i) s (fail m i 1)) ∧ ((port m p).eye = none → down p → Does (.lnkLane i) s (fail m i 0x0701)) ∧
       ((port m p).eye = none → ¬ down p → todo = 0 → Does (.lnkLane i) s (respond m i 0 [lanesUsed m p])) ∧
       ((port m p).eye = none → ¬ down p → todo ≠ 0 → Does (.lnkLane i) s (restoreLanes (modPort (cmdOn m i []) p (fun q => { q with laneMb := some i })) p todo)))) ∧
     (cmdReady m i 0x0701 = true → (let now_ := [fget m (LNKp_STAT_RATE p) + fget m (LNKp_STAT_WIDTH p) * 16 + lanesUsed m p * 256]
       (bitsN w 31 28 = 0 → (port m p).oos = true → Does (.lnkService i) s (respond m i 0 now_)) ∧
       (bitsN w 31 28 = 0 → (port m p).oos = false → portClaimed m p = true → Does (.lnkService i) s (fail m i 1)) ∧
       (bitsN w 31 28 = 0 → (port m p).oos = false → portClaimed m p = false → (isTwinPort p && twinValid m) = false → Does (.lnkService i) s (portOut (cmdOn m i []) p (some i))) ∧
       (bitsN w 31 28 ≠ 0 → 5 ≤ linkSt m p → Does (.lnkService i) s (respond m i 0 now_)) ∧
       (bitsN w 31 28 ≠ 0 → linkSt m p ∈ [1, 2, 3, 4] → Does (.lnkService i) s (modPort (cmdOn m i []) p (fun q => { q with svcMb := some i }))) ∧
       (bitsN w 31 28 ≠ 0 → linkSt m p = 0 → Does (.lnkService i) s (modPort (bringUp (cmdOn m i []) p) p (fun q => { q with svcMb := some i }))))) ∧
     (cmdReady m i 0x0705 = true → Does (.lnkStatus i) s (respond m i 0 ([csr m (LNKp_STAT_RATE p).off, csr m (LNKp_LSTATE_STATE0 p).off] ++
       (List.range 4).flatMap (fun n => [csr m (LNKp_Ln_CE_CTR p n), csr m (LNKp_Ln_CE_CTR p n + 4), csr m (LNKp_Ln_UE_CTR p n), csr m (LNKp_Ln_UE_CTR p n + 4)])))) ∧
     (cmdReady m i 0x0706 = true → (2 ^ bitsN w 17 16 ≤ bitsN w 2 0 ∨ 2 ^ bitsN w 19 18 ≤ bitsN w 5 3 ∨ 2 ^ bitsN w 21 20 ≤ bitsN w 7 6 → Does (.lnkTopo i) s (fail m i 2)) ∧
       (bitsN w 2 0 < 2 ^ bitsN w 17 16 → bitsN w 5 3 < 2 ^ bitsN w 19 18 → bitsN w 7 6 < 2 ^ bitsN w 21 20 → fon m TT_CTRL_ARM = true → Does (.lnkTopo i) s (fail m i 1)) ∧
       (bitsN w 2 0 < 2 ^ bitsN w 17 16 → bitsN w 5 3 < 2 ^ bitsN w 19 18 → bitsN w 7 6 < 2 ^ bitsN w 21 20 → fon m TT_CTRL_ARM = false →
         
         (let m1 := setCsr m LNK_TOPO_VALID.off (2 ^ 31 + bitsN w 21 16 * 65536 + slotNum m * 256 + bitsN w 7 0)
          let m2 := setCsr m1 0x43C (2048 + bitsN w 7 0 * 8 + slotNum m)
          Does (.lnkTopo i) s (respond (setCsr (((List.range 36).filter (linkActive m2)).foldl checkWiring m2) 0x43C (csr m 0x43C)) i 0 [bitsN w 7 0 * 8 + slotNum m])))))

/-! ### Flits -/

/-- A flit that arrives on a port (R517, R518 to R520, R526, R527, R529): each row of the table brings one flit of its kind. A flit with a bad header or a body of another length is discarded and the stream is found anew; before LOCK flits are ignored; a sequenced flit is delivered only with the SEQ
expected, and another ahead of it asks for it again once; a control flit acts at once and IDLE only carries its header.
Where the rules leave room it rests on the model's own choices, log entries 32 and 33. -/
def Obligations.FlitsTakenInSequence : Prop :=
  ∀ s : State, acts s = true → ∀ p f, p < 36 →
    (let m := s.chip
     let m1 := headerRx p f m
     (∀ ins typ op, (ins, typ, op) ∈ [(Instr.flitDataWriteRx p f, 1, 0), (Instr.flitDataReduceRx p f, 1, 1), (Instr.flitDataReduceRx p f, 1, 2), (Instr.flitDataReduceRx p f, 1, 3),
         (Instr.voidMarkerRx p f, 1, 7), (Instr.reqReadRx p f, 2, 0), (Instr.reqWriteRx p f, 2, 1), (Instr.reqMaskedWriteRx p f, 2, 2), (Instr.reqAtomicRx p f, 2, 3),
         (Instr.respReadDataRx p f, 3, 0), (Instr.respWriteAckRx p f, 3, 1), (Instr.respAtomicResultRx p f, 3, 2), (Instr.respErrorRx p f, 3, 3), (Instr.idleRx p f, 0, 0)] →
       f.typ = typ → f.op = op → Does ins s (rxFlit p 0 f m)) ∧
     (∀ ins kind, (ins, kind) ∈ [(Instr.nakRx p f, 3), (Instr.auditRx p f, 4), (Instr.reclaimReqRx p f, 5), (Instr.reclaimRepRx p f, 6), (Instr.identRx p f, 7), (Instr.departRx p f, 8), (Instr.routedRx p f, 10)] →
       f.typ = 4 → f.op * 4 + f.dtype = kind → Does ins s (rxFlit p 0 f m)) ∧
     (∀ ins sub, (ins, sub) ∈ [(Instr.heartbeatRx p f, 1), (Instr.jendRx p f, 2), (Instr.jackRx p f, 3), (Instr.pairRx p f, 4), (Instr.regionRx p f, 6)] →
       f.typ = 4 → f.op * 4 + f.dtype = 9 → f.body ≠ [] → bitsN (nth (flitBody f) 0) 3 0 = sub → Does ins s (rxFlit p 0 f m)) ∧
     (f.typ = 4 → f.op * 4 + f.dtype = 9 → f.body = [] → Does (.unpairRx p f) s (rxFlit p 0 f m)) ∧
     (∀ ins msg, (ins, msg) ∈ [(Instr.twinHbRx p f, 1), (Instr.twinTakeRx p f, 2), (Instr.twinReleaseRx p f, 3)] →
       f.typ = 4 → f.op * 4 + f.dtype = 10 → nth (flitBody f) 0 / 2 ^ 16 = 0x0A00 + msg → Does ins s (rxFlit p 0 f m)) ∧
     (flitOk f = false ∨ f.body.length ≠ bodyLen f → rxFlit p 0 f m = modPort m p (fun q => { q with stream := [], synced := false })) ∧
     (flitOk f = true → f.body.length = bodyLen f →
       (linkSt m p < 3 → rxFlit p 0 f m = m) ∧
       (flitVc f ≠ none → 5 ≤ linkSt m p →
         (f.seq = ((port m p).rxSeq + 1) % 4096 → rxFlit p 0 f m = deliver p f m1) ∧
         (f.seq ≠ ((port m p).rxSeq + 1) % 4096 → f.seq ≠ (port m p).rxSeq → (f.seq + 4096 - (port m p).rxSeq) % 4096 < 2049 → (port m1 p).nakAt = none → rxFlit p 0 f m = sendNak m1 p) ∧
         (f.seq ≠ ((port m p).rxSeq + 1) % 4096 → f.seq = (port m p).rxSeq ∨ 2049 ≤ (f.seq + 4096 - (port m p).rxSeq) % 4096 ∨ (port m1 p).nakAt ≠ none → rxFlit p 0 f m = m1)) ∧
       (flitVc f ≠ none → 3 ≤ linkSt m p → linkSt m p < 5 → rxFlit p 0 f m = m) ∧
       (f.typ = 4 → flitVc f = none → 5 ≤ linkSt m p → rxFlit p 0 f m = ctlRx p 0 f m1) ∧
       (f.typ = 4 → flitVc f = none → 3 ≤ linkSt m p → linkSt m p < 5 → rxFlit p 0 f m = ctlRx p 0 f m) ∧
       (f.typ = 0 → 5 ≤ linkSt m p → rxFlit p 0 f m = m1)))

/-- What a delivered flit does (R518, R521, R522, R533 to R548, R714): its SEQ becomes the last accepted and its tablets are counted and, once it has passed on, owed; DATA and void markers go to the open window whose range holds their line, or count as stray; a request is served at its home,
its errors answered; a response ends its outstanding request; a ROUTED flit is delivered, passed on holding its entry, or counted unroutable.
The control flits of a link (R519, R527, R529, R530, R532 to R535, R768): NAK replays from the SEQ it names; RECLAIM_REQ is answered with the free entries and RECLAIM_REP gives them back as tablets; AUDIT is checked on an ACTIVE link; IDENT in EXCHANGE makes the far end known and the link ACTIVE,
or DOWN where the wiring is none that the rules give; DEPART drains the link and tells the host.
Where the rules leave room it rests on the model's own choices, log entries 27, 31, 32 and 33. -/
def Obligations.FlitsAndControlFlitsAct : Prop :=
  (
    ∀ (m : Chip) p f, p < 36 →
      (let v := (flitVc f).getD 0
       let m1 := modPort m p (fun q => { q with rxSeq := f.seq, nakAt := none, recvd := modAt q.recvd v (fun n => (n + flitTabs f) % 2 ^ 24) })
       (f.typ = 1 → f.op = 7 → deliver p f m = voidFlit p f (freeTabs m1 p 0 (max f.lines 1))) ∧
       (f.typ = 1 → f.op ≠ 7 → journalOn (freeTabs m1 p 0 (max f.lines 1)) p = true → deliver p f m = journalFlit p f (freeTabs m1 p 0 (max f.lines 1))) ∧
       (f.typ = 1 → f.op ≠ 7 → journalOn (freeTabs m1 p 0 (max f.lines 1)) p = false → deliver p f m = dataFlit p f (freeTabs m1 p 0 (max f.lines 1))) ∧
       (f.typ = 2 → deliver p f m = freeTabs (reqFlit p f m1) p 1 (max f.lines 1)) ∧
       (f.typ = 3 → deliver p f m = freeTabs (respFlit p f m1) p 2 (max f.lines 1)) ∧
       (f.typ = 4 → deliver p f m = routedFlit p f m1) ∧
       (isHere m f.dest = false → dataFlit p f m = bump m LNK_STRAY_CTR f.lines) ∧
       (isHere m f.dest = true → f.lines = 1 → ∀ ln k r r1, dataLine m f.dest f.addr = some ln → scratch m (ln * 128) = true → windowAt m ln (fun r => parOp r.par == f.op) = some (k, r) →
         claimSrc r f.src = some r1 → dataFlit p f m = windowLine m p k r1 f ln ⟨f.body.take 128, leNat ((f.body.drop 128).take 4), false, []⟩) ∧
       (∀ k r ln l, wbOk l = true → windowLine m p k r f ln l =
         pushReq (setRow m k (some (modSrc r f.src (fun s => { s with bytes := s.bytes + 128, das := if f.op = 0 then s.das else s.das ++ [ln] }))))
           { id := 0, kind := if f.op = 0 then .write else .reduce, line := ln, ln := l, op := f.op, size := f.dtype, ing := 6, who := .window k f.src }) ∧
       (isHere m f.dest = false → voidFlit p f m = bump (bump m (LNKp_VOID_RX_CTR p) 1) LNK_STRAY_CTR 1) ∧
       (f.op = 0 → badAddress m (f.addr * 128) false = false → reqFlit p f m = pushReq m { id := 0, kind := .read, line := f.addr, ing := 6, who := .peer p 2 f.tag f.src }) ∧
       (f.op = 1 → badAddress m (f.addr * 128) false = false → reqFlit p f m =
         pushReq m { id := 0, kind := .write, line := f.addr, ing := 6, who := .peer p 2 f.tag f.src, ln := ⟨f.body.take 128, nth (bytesWords f.body) 32, false, []⟩ }) ∧
       (∀ o, (port m p).out.find? (fun o => o.tag == f.tag) = some o → f.op = 1 → respFlit p f m =
         answer (modPort m p (fun q => { q with out := q.out.filter (fun x => x.tag != f.tag) })) { id := 0, kind := o.kind, line := (o.peer + 1) * 2 ^ 41 + o.line, who := o.who } .good zeroLine 0) ∧
       ((port m p).out.find? (fun o => o.tag == f.tag) = none → respFlit p f m = m) ∧
       (isHere m f.dest = true → routedFlit p f m = freeTabs (routedHere f m) p 3 1) ∧
       (isHere m f.dest = false → holderOf m f.dest ≠ selfNum m →
         (routePort m (holderOf m f.dest) = none → routedFlit p f m = freeTabs (bump m LNK_UNROUTE_CTR 1) p 3 1) ∧
         (∀ o, routePort m (holderOf m f.dest) = some o → routedFlit p f m = modPort m o (fun q => { q with vcq := modAt q.vcq 3 (· ++ [f]), held := q.held ++ [some p] }))))) ∧
  (
    ∀ (m : Chip) p f, p < 36 →
      (let w := flitBody f
       let kind := f.op * 4 + f.dtype
       let tots := [bitsN (nth w 1) 10 0, bitsN (nth w 1) 26 16, bitsN (nth w 2) 10 0, bitsN (nth w 2) 26 16]
       let m1 := fset (fset (fset m (LNKp_LINK_FAR_MODULE p) (bitsN (nth w 0) 10 0)) (LNKp_LINK_FAR_PORT p) (bitsN (nth w 0) 21 16)) (LNKp_LINK_FAR_VALID p) 1
       let m2 := modPort m1 p (fun q => { q with
         sent := [0, 0, 0, 0], ret := [0, 0, 0, 0], freed := [0, 0, 0, 0], recvd := [0, 0, 0, 0], owed := [0, 0, 0, 0],
         farMv := tb (nth w 0) 31, totals := tots, avail := tots, txSeq := 0, rxSeq := 0, nakAt := none, replay := [], replayDue := none })
       (kind = 3 → ∀ i, (port m p).replay.findIdx? (fun g => g.seq == nth w 0 % 4096) = some i → ctlRx p 0 f m = modPort m p (fun q => { q with replayDue := some i })) ∧
       (kind = 4 → linkActive m p = false ∨ (port m p).reclaim = true ∨ fon m LNK_FAB_CTRL_AUDIT_EN = false → ctlRx p 0 f m = m) ∧
       (kind = 4 → linkActive m p = true → (port m p).reclaim = false → fon m LNK_FAB_CTRL_AUDIT_EN = true →
         ((∀ v, v < 4 → nth (port m p).recvd v = nth w (2 * v) % 2 ^ 24 ∧ (nth (port m p).freed v + 2 ^ 24 - nth w (2 * v + 1) % 2 ^ 24) % 2 ^ 24 ≤ nth [1024, 256, 256, 32] v) → ctlRx p 0 f m = m) ∧
         (∀ v, v < 4 → nth (port m p).recvd v ≠ nth w (2 * v) % 2 ^ 24 → ctlRx p 0 f m = linkAuditFail m p)) ∧
       (kind = 5 → (let fr := fun v => nth [1024, 256, 256, 32] v - entriesHeld m p v
         ctlRx p 0 f m = modPort (sendCtl m p 6 [fr 0 + fr 1 * 65536, fr 2 + fr 3 * 65536, 0, 0]) p (fun q => { q with freed := [0, 0, 0, 0], recvd := [0, 0, 0, 0], owed := [0, 0, 0, 0] }))) ∧
       (kind = 6 → (port m p).reclaim = false → ctlRx p 0 f m = m) ∧
       (kind = 6 → (port m p).reclaim = true → ctlRx p 0 f m = bump (modPort m p (fun q => { q with
         sent := [0, 0, 0, 0], ret := [0, 0, 0, 0], avail := [bitsN (nth w 0) 10 0, bitsN (nth w 0) 26 16, bitsN (nth w 1) 10 0, bitsN (nth w 1) 26 16], reclaim := false, reclaimSent := false })) (LNKp_RECLAIM_CTR p) 1) ∧
       (kind = 7 → linkSt m p ≠ 4 → ctlRx p 0 f m = m) ∧
       (kind = 7 → linkSt m p = 4 → wiringBad m2 p = true → ctlRx p 0 f m = linkDown (fset m2 (LNKp_LINK_WIRING p) 1) p) ∧
       (kind = 7 → linkSt m p = 4 → wiringBad m2 p = false → ctlRx p 0 f m = linkUp m2 p) ∧
       (kind = 8 → linkActive m p = false → linkSt m p ≠ 6 → ctlRx p 0 f m = m) ∧
       (kind = 8 → linkActive m p = true → isTwinPort p = false → ctlRx p 0 f m =
         (let far := fget m (LNKp_LINK_FAR_MODULE p)
          notice ((List.range 36).foldl (fun c i => failOut c i (fun o => o.peer == far)) (modPort (setLink m p 6) p (fun q => { q with drainT0 := m.ns }))) 6 [far + p * 65536 + nth w 0 % 16 * 2 ^ 24]))))

/-- A link's frames, timers and registers (R477, R478, R491, R519, R523, R527, R529, R531, R535): a port whose link is not past TRAIN sends a frame without flits; the oldest unacknowledged flit goes again after 64 frame times; a NAK is repeated every 4; LOCK ends after 1 ms; a link has drained with nothing left, or after
1 ms; RECLAIM and RETRAIN act on an ACTIVE link. The choice of the next flit: control flits, then replay, then VC0 in a window, else each channel in turn.
Where the rules leave room it rests on the model's own choices, log entries 28, 31 and 32. -/
def Obligations.LinkTimersAndFrames : Prop :=
  ∀ s : State, acts s = true → ∀ p, p < 36 →
    (let m := s.chip
     let q := port m p
     (linkSt m p ≠ 0 ∨ asksLoop m p = true → Does (.portFrameSend p) s (doPortFrameSend p m)) ∧
     (linkSt m p = 1 ∨ linkSt m p = 2 → lanesIn m p [6] = 0 → Gives (.portFrameSend p) s (fun t => t.csr = m.csr ∧ (
       (port t p).txMsgs = [] ∧ (port t p).txOut = [] ∧ (port t p).frameSeq = (q.frameSeq + 1) % 64 ∧ (port t p).vcq = q.vcq ∧ (port t p).ctl = q.ctl))) ∧
     (∀ c f, (port c p).ctl.find? (fun f => !(f.op == 0 && (f.dtype == 1 || f.dtype == 2))) = some f →
       takeFlit c p = some (f, modPort c p (fun q => { q with ctl := q.ctl.erase f }))) ∧
     (∀ c, (port c p).ctl = [] → linkSt c p < 5 → takeFlit c p = none) ∧
     (∀ c i f, (port c p).ctl = [] → 5 ≤ linkSt c p → (port c p).replayDue = some i → (port c p).replay[i]? = some f → ∃ t, takeFlit c p = some (f, bump t (LNKp_REPLAY_CTR p) 1)) ∧
     (∀ c, (port c p).ctl = [] → 5 ≤ linkSt c p → (port c p).replayDue = none →
       (windowOn c p = true → headReady c p 0 = true → takeFlit c p = takeVc c p 0) ∧
       (∀ v, (((List.range 4).map (fun i => ((port c p).rrCh + 1 + i) % 4)).find? (headReady c p)) = some v → windowOn c p = false → takeFlit c p = takeVc c p v) ∧
       (headReady c p 0 = false → headReady c p 1 = false → headReady c p 2 = false → headReady c p 3 = false → takeFlit c p = none)) ∧
     (5 ≤ linkSt m p → q.replay ≠ [] → q.lastAck + frameNs m p 64 ≤ m.ns → Does (.replayTimeout p) s (modPort m p (fun q => { q with replayDue := some 0, lastAck := m.ns }))) ∧
     (∀ t, q.nakAt = some t → t + frameNs m p 4 ≤ m.ns → Does (.nakRepeat p) s (modPort (sendCtl m p 3 [(q.rxSeq + 1) % 4096, 0, 0, 0]) p (fun q => { q with nakAt := some m.ns }))) ∧
     (linkSt m p = 3 → q.lockT0 + 1000000 ≤ m.ns → Does (.linkLockTimeout p) s (linkDown m p)) ∧
     (linkSt m p = 6 → (q.replay = [] ∧ q.out = [] ∧ q.vcq.getD 2 [] = [] ∧ q.vcq.getD 3 [] = []) ∨ q.drainT0 + 1000000 ≤ m.ns → Does (.linkDrainEnd p) s (linkDown m p)) ∧
     (∀ v : Word, tb v.toNat 1 = true → tb v.toNat 0 = false →
       (linkActive m p = false → Does (.linkReclaimWrite p v) s m) ∧
       (linkActive m p = true → q.reclaim = false → Does (.linkReclaimWrite p v) s (modPort m p (fun q => { q with reclaim := true, reclaimSent := false })))) ∧
     (∀ v : Word, tb v.toNat 0 = true → linkActive m p = true → Does (.linkRetrainWrite p v) s (linkLost m p)))

/-! ### Twinning -/

/-- The messages of the twin (R712, R715, R718 to R721, R725 to R733): a heartbeat shows the twin alive, ends a wait, takes a fenced twin's role, and ends DEGRADED; JEND is answered once its lines are acknowledged; JACK of the occurrence that waits makes its start the journal point when it was complete;
PAIR goes on with this module's own pairing; UNPAIR ends the pairing; a TWIN_TAKE enters the alias table or is a conflict; a TWIN_RELEASE from the holder clears its entry.
Where the rules leave room it rests on the model's own choices, log entries 33, 34 and 35. -/
def Obligations.TwinMessagesAct : Prop :=
  ∀ (m : Chip) p f, isTwinPort p = true →
    (let w := flitBody f
     let sub := bitsN (nth w 0) 3 0
     let beat := modTwin m (fun t => { t with hbSeen := true, lastHb := nth64 w 2, peerState := bitsN (nth w 0) 7 4, waitWarm := none, portMiss := 0 })
     (f.body = [] → 2 ≤ twinSt m → twinCtl p f m = unpair m) ∧
     (f.body = [] → twinSt m < 2 → twinCtl p f m = m) ∧
     (f.body ≠ [] → sub = 1 → 2 ≤ twinSt m →
       (twinSt m = 3 ∨ twinSt m = 4 → bitsN (nth w 0) 7 4 = 7 → twinCtl p f m = takeOver beat) ∧
       (twinSt m ≠ 4 → m.twin.regionWait = [] → twinSt m ≠ 3 ∨ bitsN (nth w 0) 7 4 ≠ 7 → twinCtl p f m = beat) ∧
       (twinSt m = 4 → bitsN (nth w 0) 7 4 ≠ 7 → m.twin.jSet = true → (twinNote (enterTwin beat 3) 1 m.twin.twin).twin.regionWait = [] → twinCtl p f m = twinNote (enterTwin beat 3) 1 m.twin.twin)) ∧
     (f.body ≠ [] → sub = 2 → 2 ≤ twinSt m → twinCtl p f m = keeperAck (modTwin m (fun t => { t with rxEnd := some (p, nth w 1, nth64 w 2) }))) ∧
     (f.body ≠ [] → sub = 3 → m.twin.wait = none → twinCtl p f m = m) ∧
     (f.body ≠ [] → sub = 3 → ∀ start full img, m.twin.wait = some (start, full, img) →
       (nth64 w 2 ≠ start → twinCtl p f m = m) ∧
       (nth64 w 2 = start → full = false → (twinCtl p f m).twin.wait = none ∧ (twinCtl p f m).twin.imgAck = img ∧ (twinCtl p f m).csr = m.csr) ∧
       (nth64 w 2 = start → full = true → twinSt m ≠ 2 → start < 2 ^ 64 → (twinCtl p f m).twin.wait = none ∧ twinJ (twinCtl p f m) = start)) ∧
     (f.body ≠ [] → sub = 4 → m.twin.regionWait ≠ [] →
       twinCtl p f m = modTwin m (fun t => { t with pairSeen := some (bitsN (nth w 0) 18 8, bitsN (nth w 1) 10 0, tb (nth w 1) 31, bitsN (nth w 2) 13 0) })) ∧
     (f.body ≠ [] → sub = 6 → 1 ≤ twinSt m → nth w 4 ≠ 0 → twinCtl p f m = regionAsk p (bitsN (nth w 0) 11 8) w m) ∧
     (f.body ≠ [] → sub = 6 → 1 ≤ twinSt m → nth w 4 = 0 → twinCtl p f m = regionAnswer (bitsN (nth w 0) 11 8) w m) ∧
     (nth w 0 / 2 ^ 16 = 0x0A01 → 2 ≤ twinSt m → f.src = m.twin.twin → routedHere f m = modTwin m (fun t => { t with routedSeen := true, lastHb := nth64 w 2 })) ∧
     (nth w 0 / 2 ^ 16 = 0x0A02 → (let role := bitsN (nth w 0) 10 0
       let holder := bitsN (nth w 1) 10 0
       let cur := tget 0 role m.twin.alias_
       (f.src = role → holder = role → routedHere f m = modTwin m (fun t => { t with alias_ := tput 0 role 0 t.alias_ })) ∧
       (f.src = holder → holder ≠ role → cur = 0 ∨ cur = holder + 1 → tget 0 role (routedHere f m).twin.alias_ = holder + 1) ∧
       (f.src ≠ holder → f.src ≠ role ∨ holder ≠ role → routedHere f m = twinNote (bump (fset m TWIN_STAT_CONFLICT 1) TWIN_CONFLICT_CTR 1) 6 role))) ∧
     (nth w 0 / 2 ^ 16 = 0x0A03 → (let role := bitsN (nth w 0) 10 0
       (tget 0 role m.twin.alias_ = f.src + 1 → role ≠ selfNum m → routedHere f m = modTwin m (fun t => { t with alias_ := tput 0 role 0 t.alias_ })) ∧
       (tget 0 role m.twin.alias_ ≠ f.src + 1 → role ≠ selfNum m → routedHere f m = m))))

/-- The twinning commands and events (R707, R708, R724, R729 to R732, R736, R739, R829): TWIN.PAIR checks the state, the wiring and the keeper control area, then pairs; it fails with TWIN_TIMEOUT after 10 s; TWIN.DETACH unpairs, hands over, returns or takes over in the states that allow it; TWIN.PROTECT checks the region
and enters it; STATUS and POLICY answer; a read of the alias table gives the entry that its index names, and the index moves on; a handover waits for the work, then for the journal.
Where the rules leave room it rests on the model's own choices, log entries 34 and 35. -/
def Obligations.TwinCommands : Prop :=
  ∀ s : State, acts s = true → ∀ i,
    (let m := s.chip
     let p := cmdPay m i
     let op := bitsN (nth p 0) 31 28
     let k := bitsN (nth p 0) 3 0
     let r : Region := ⟨nth64 p 1, nth64 p 3, nth p 5⟩
     (cmdReady m i 0x0A01 = true →
       (twinSt m ≠ 0 → twinSt m ≠ 5 ∨ fget m TWIN_HELD_MODULE ≠ nth p 0 → Does (.twinPair i) s (fail m i 0x0A01)) ∧
       (twinSt m = 0 → pairWired m (nth p 0) = false → Does (.twinPair i) s (fail m i 0x0A02)) ∧
       (twinSt m = 0 → pairWired m (nth p 0) = true → nth64 p 1 % 65536 ≠ 0 ∨ scratchRange m (nth64 p 1) 0x40000 = false → Does (.twinPair i) s (fail m i 0x0A03)) ∧
       (twinSt m = 0 ∨ (twinSt m = 5 ∧ fget m TWIN_HELD_MODULE = nth p 0) → pairWired m (nth p 0) = true → nth64 p 1 % 65536 = 0 → scratchRange m (nth64 p 1) 0x40000 = true →
         (let m1 := modTwin (cmdOn m i []) (fun x => { x with twin := nth p 0, keepCtl := nth64 p 1, mb := some i, mbT0 := m.ns })
          let m2 := if twinSt m1 = 0 then enterTwin m1 1 else m1
          Does (.twinPair i) s (pairGo (twinSend m2 (pairMsg m2)))))) ∧
     (∀ j, m.twin.mb = some j → cmdGoing m j 0x0A01 = true → m.twin.pairSeen = none → m.twin.mbT0 + 10000000000 ≤ m.ns → Does .twinPairTimeout s (pairFail m 0x0A06)) ∧
     (cmdReady m i 0x0A02 = true →
       (op = 0 → twinSt m ∈ [2, 3, 4, 6] → Does (.twinDetach i) s (respond (unpair (twinSend m [])) i 0 [])) ∧
       (op = 1 → twinSt m = 3 → m.twin.handover = 0 → m.twin.mb = none → Does (.twinDetach i) s (modTwin (cmdOn m i []) (fun t => { t with handover := 1, mb := some i, jFrom := none, jCame := false }))) ∧
       (op = 2 → twinSt m = 5 → m.twin.peerState = 6 → m.twin.mb = none → Does (.twinDetach i) s (modTwin (cmdOn m i []) (fun t => { t with handover := 4, mb := some i }))) ∧
       (op = 3 → twinSt m ∈ [3, 4, 7] → Does (.twinDetach i) s (respond (takeOver m) i 0 [])) ∧
       (op = 0 ∧ twinSt m ∈ [0, 1, 5, 7] ∨ op = 1 ∧ twinSt m ≠ 3 ∨ op = 2 ∧ twinSt m ≠ 5 ∨ op = 3 ∧ twinSt m ∈ [0, 1, 2, 5, 6] ∨ 3 < op → Does (.twinDetach i) s (fail m i 0x0A01))) ∧
     (cmdReady m i 0x0A03 = true →
       (twinSt m ∈ [1, 5, 6, 7] → Does (.twinProtect i) s (fail m i 0x0A01)) ∧
       (twinSt m ∈ [0, 2, 3, 4] → op ≠ 1 → sourceBad m k r.src (regionBytes r) = true → Does (.twinProtect i) s (fail m i 0x0A03)) ∧
       (twinSt m ∈ [0, 2, 3, 4] → op ≠ 1 → sourceBad m k r.src (regionBytes r) = false → 65536 < ownUnits m k + r.units → Does (.twinProtect i) s (fail m i 0x0A04)) ∧
       (twinSt m = 0 → op ≠ 1 → sourceBad m k r.src (regionBytes r) = false → ownUnits m k + r.units ≤ 65536 → Does (.twinProtect i) s (respond (putRegion m k (some r)) i 0 [])) ∧
       (twinSt m ∈ [0, 2, 3, 4] → op = 1 → region m k = none → Does (.twinProtect i) s (respond m i 0 [])) ∧
       (twinSt m = 0 → op = 1 → ∀ x, region m k = some x → Does (.twinProtect i) s (respond (putRegion m k none) i 0 []))) ∧
     (cmdReady m i 0x0A04 = true → Does (.twinStatus i) s (respond m i 0 ([csr m TWIN_STAT_STATE.off, csr m TWIN_HELD_MODULE.off] ++ lohi (twinJ m) ++ [ownDirty m] ++ lohi m.twin.lastHb))) ∧
     (cmdReady m i 0x0A05 = true → Does (.twinPolicy i) s (respond (setCsr m TWIN_CTRL_MISS.off (nth p 0)) i 0 [csr m TWIN_CTRL_MISS.off])) ∧
     (let k := fget m TWIN_ALIAS_IDX_ROLE
      (tget 0 k m.twin.alias_ = 0 → Does .twinAliasDataRead s (fset { m with out := some 0 } TWIN_ALIAS_IDX_ROLE (k + 1))) ∧
      (∀ h, tget 0 k m.twin.alias_ = h + 1 → Does .twinAliasDataRead s (fset { m with out := some (2 ^ 31 + h) } TWIN_ALIAS_IDX_ROLE (k + 1)))) ∧
     (m.twin.handover = 1 → workIdle m = true → Does .twinHandoverProceed s (modTwin m (fun t => { t with handover := 2, jFrom := some (now m), jCame := false }))) ∧
     (m.twin.handover = 2 → m.twin.jCame = true → Gives .twinHandoverProceed s (fun t => t.twin.handover = 3 ∧ t.twin.twinHolds = true ∧ t.twin.mb = none)))

/-! ### Dies and die links -/

/-- Losses and checks of dies and die links (R559, R568, R573, R577 to R582): a unit's reclaim makes its tablets whole once nothing is in flight; a turn of a lane check notes the lanes that failed; the loss of a forwarded clock loses its compute die, that of a reference or BCLK makes the role fatal, as a base die's reset does:
FATAL_VALID is set, every link falls silent and nothing more is done; a lost compute die is fenced and its blocks end; a fence that is complete ends with the siding shut and its notice.
Where the rules leave room it rests on the model's own choices, log entries 36 to 39. -/
def Obligations.DiesAreLostAndFenced : Prop :=
  ∀ s : State, acts s = true → ∀ u,
    (let m := s.chip
     (u < 9 → (d2dUnit m u).reclaim = true → linkHeld m u = [] → Does (.d2dReclaimDone u) s (bump (modUnit m u (fun x => { x with taken := [], reclaim := false })) D2D_RECLAIM_CTR 1)) ∧
     (∀ fails, u < 9 → turnDone m u = true → Does (.laneCheckTurn u fails) s (modUnit m u (fun x => { x with
       turn := (d2dUnit m u).turn + 1, fails := x.fails ++ fails.filter (fun f => decide (f.1 < 2) && underCheck m u (d2dUnit m u).turn f) }))) ∧
     (u < 8 → dieUp m u = false → Does (.computeDieLost u 0) s m) ∧
     (u < 8 → dieUp m u = true → Does (.computeDieLost u 0) s (fenceDie m u 0) ∧ Does (.computeDieLost u 3) s (fenceDie m u 3) ∧
       Does (.computeDieLost u 1) s (fenceDie (fset m (D2D_CDd_STAT_CLK_LOST u) 1) u 1)) ∧
     (u < 8 → (d2dUnit m u).checkMb = none → ∀ c, (fenceDie m u c).cores = (loseBlocks (loseStores (fset m (D2D_CDd_STAT_STATE u) (if c = 2 ∨ c = 4 then 1 else 2)) u) u).cores ∧
       d2dUnit (fenceDie m u c) u = d2dUnit (modUnit m u (fun x => { x with fencing := true, cause := c, taken := [], fails := [], turn := 0 })) u) ∧
     (∀ k, 11 ≤ k → k ≤ 13 → u < 2 → Does (.roleFatal u k) s (roleFatal u k m)) ∧
     (∀ k, (roleFatal u k m).start.phase = 7 ∧ fget (roleFatal u k m) ERR_STAT_FATAL_VALID = 1 ∧ (roleFatal u k m).err.due = [] ∧ fget (roleFatal u k m) MB_GLOBAL_READY = 0) ∧
     (∀ c ∈ [(8, 0, 13), (9, 0, 12), (10, 1, 12), (11, 0, 13), (12, 1, 13)], Gives (.clockLoss c.1) s (fun t => ∃ m', t = roleFatal c.2.1 c.2.2 m' ∧ m'.start = m.start)) ∧
     (u < 8 → dieUp m u = true → Gives (.clockLoss u) s (fun t => ∃ m', t = fenceDie m' u 1 ∧ fget m' (D2D_CDd_STAT_CLK_LOST u) = 1 ∧ fget m' D2D_CLK_STAT_CD_CLK_OK = fget m D2D_CLK_STAT_CD_CLK_OK - (fget m D2D_CLK_STAT_CD_CLK_OK &&& 2 ^ u))) ∧
     (u < 8 → (d2dUnit m u).fencing = true → m.buf.siding.all (·.isEmpty) = true →
       (let m1 := modUnit m u (fun x => { x with fencing := false, taken := [], dieMb := none, reclaim := false })
        let m2 := if m1.d2d.any (fun y => y.fencing || y.testMb.isSome) then m1 else fset m1 BUF_CTRL_SIDING_EN 0
        ((d2dUnit m u).dieMb = none → (d2dUnit m u).cause ≠ 4 → Does (.dieFenceComplete u) s (bump (notice m2 5 [u + (d2dUnit m u).cause * 256]) D2D_RECLAIM_CTR 1)) ∧
        (∀ i, (d2dUnit m u).dieMb = some i → (d2dUnit m u).cause = 4 →
          Does (.dieFenceComplete u) s (respond (sizeRefresh (bump m2 D2D_RECLAIM_CTR 1)) i 0 [nth (sizeState (bump m2 D2D_RECLAIM_CTR 1)) 2])))))

/-- The lane maps and the D2D commands (R580 to R583, R663): D2D_MAP_DATA reads or writes the entry selected and the index moves on, wrapping after the last; D2D.DIE answers at once where nothing changes, is BUSY while a block is resident or the die is under test, and else fences or returns the die; D2D.CHECK posts a
one-shot check; D2D.MAP and D2D.STATUS read; DIAG.D2D runs on a die out of service, and its end reports at most 508 bundles.
Where the rules leave room it rests on the model's own choices, log entries 36 and 37. -/
def Obligations.DieLinkCommands : Prop :=
  ∀ s : State, acts s = true → ∀ i,
    (let m := s.chip
     let p := cmdPay m i
     let w := nth p 0
     let d := bitsN w 2 0
     let u := bitsN w 3 0
     let v := bitsN w 19 16
     let mu := fget m D2D_MAP_SEL_UNIT
     let dir := fget m D2D_MAP_SEL_DIR
     let e := fget m D2D_MAP_SEL_INDEX
     let move := fun c => fset c D2D_MAP_SEL_INDEX (if e + 1 = mapSize mu then 0 else e + 1)
     (∀ x, 8 < mu ∨ mapSize mu ≤ e → Does (.d2dMapDataAccess false x) s { m with out := some 0 } ∧ Does (.d2dMapDataAccess true x) s m) ∧
     (∀ x : Word, mu ≤ 8 → e < mapSize mu → Does (.d2dMapDataAccess false x) s (move { m with out := some (tget 0 (eKey dir e) (d2dUnit m mu).saved ^^^ plainEntry mu e) }) ∧
       Does (.d2dMapDataAccess true x) s (move (modUnit (recMark m) mu (fun y => { y with saved := tput 0 (eKey dir e) (x.toNat ^^^ plainEntry mu e) y.saved })))) ∧
     (cmdReady m i 0x0801 = true → (let on := bitsN w 31 28 == 1
       let held := (firstIdx 4 (fun j => cmdGoing m j 0x0D01 && nth (cmdAux m j) 0 == d)).isSome || (d2dUnit m d).testMb.isSome || (d2dUnit m d).fencing
       (dieUp m d = on → Does (.d2dDie i) s (respond m i 0 [nth (sizeState m) 2])) ∧
       (dieUp m d = true → on = false → tb w 27 = false → dieBusy m d = true → Does (.d2dDie i) s (fail m i 1)) ∧
       (dieUp m d ≠ on → (on = true ∨ tb w 27 = true ∨ dieBusy m d = false) → held = true → Does (.d2dDie i) s (fail m i 1)) ∧
       (dieUp m d = true → on = false → (tb w 27 = true ∨ dieBusy m d = false) → held = false →
         Does (.d2dDie i) s (fenceDie (modUnit (cmdOn (recMark m) i []) d (fun x => { x with byCmd := true, dieMb := some i })) d (if tb w 27 then 2 else 4))) ∧
       (dieUp m d = false → on = true → held = false → Does (.d2dDie i) s (returnDie i d m)))) ∧
     (let m1 := verifyUnit (fset m D2D_CLK_STAT_CD_CLK_OK (fget m D2D_CLK_STAT_CD_CLK_OK ||| 2 ^ d)) d
      dieFormed m1 d = false → returnDie i d m = fail m1 i 0x0801) ∧
     (cmdReady m i 0x0802 = true → ((d2dUnit m u).checkMb.isSome = true ∨ (checkRow m u).isSome = true → Does (.d2dCheck i) s (fail m i 1)) ∧
       ((d2dUnit m u).checkMb = none → checkRow m u = none → miotoRows m < 128 → u < 8 → Does (.d2dCheck i) s
         (postMioto (modUnit (cmdOn m i []) u (fun x => { x with checkMb := some i })) (miotoWords 5 3 ((now m / 2 ^ 20 + 1) * 2 ^ 20 + 0x11000) 64 0 1 50 3 u)))) ∧
     (cmdReady m i 0x0803 = true → (mapSize v < bitsN w 8 0 + nth p 1 → Does (.d2dMap i) s (fail m i 2)) ∧
       (bitsN w 8 0 + nth p 1 ≤ mapSize v → Does (.d2dMap i) s (respond m i 0 ((List.range (nth p 1)).map (fun k => mapEntry m v (bitN w 12) (bitsN w 8 0 + k)))))) ∧
     (cmdReady m i 0x0804 = true → Does (.d2dStatus i) s (respond m i 0 ([csr m D2D_CLK_STAT_REF_OK.off, csr m D2D_CPL_STAT_SPARES.off] ++ (List.range 8).map (fun d => csr m (D2D_CDd_STAT_STATE d).off)))) ∧
     (cmdReady m i 0x0D03 = true →
       (dieUp m w = true ∨ (d2dUnit m w).fencing = true ∨ (d2dUnit m w).testMb.isSome = true → Does (.diagD2d i) s (fail m i 1)) ∧
       (dieUp m w = false → (d2dUnit m w).fencing = false → (d2dUnit m w).testMb = none →
         Does (.diagD2d i) s (fset (modUnit (cmdOn m i []) w (fun x => { x with testMb := some i })) BUF_CTRL_SIDING_EN 1))) ∧
     (∀ dd fails j, dd < 8 → (d2dUnit m dd).testMb = some j →
       (let m1 := modUnit m dd (fun x => { x with testMb := none })
        let m2 := if m1.d2d.any (fun y => y.fencing || y.testMb.isSome) then m1 else fset m1 BUF_CTRL_SIDING_EN 0
        let fs := fails.filter (fun f => decide (f.1 < 2) && decide (f.2.1 < 288) && decide (f.2.2 < laneCount dd f.2.1 + 2))
        let keys := (fs.map (fun f => (f.1, f.2.1))).eraseDups
        Does (.d2dTestEnd dd fails) s (respond m2 j 0 ((b2n (decide (508 < keys.length)) * 2 ^ 31 + min 508 keys.length) :: (keys.take 508).map (bundleWord fs))))))

/-! ### The host -/

/-- Accesses of the host to the window (R584, R589 to R591, R596, R598, R599, R604, R609 to R611): a request is taken while the module runs and the path's link is up. An offset without an address errs: a memory read is answered poisoned and a memory write completed, an I/O read is unsupported, an I/O write discarded. A good line is read or written
where the bias allows; an access that must wait for a flip leaves no answer; an atomic acts on SCRATCH only, and a snoop always misses.
Where the rules leave room it rests on the model's own choices, log entries 40, 42 and 43. -/
def Obligations.HostAccessesWindow : Prop :=
  ∀ s : State, acts s = true → s.chip.start.phase = 5 → fon s.chip HOST_STAT_H0_UP = true →
    (let m := s.chip
     let wait := fun o => gFlipping m o = true ∨ (hostBias m (o / 65536) = false ∧ fon m HOST_CTRL_AUTO_FLIP = true)
     (∀ o, hostBad m o = true →
       Does (.hostMemRead o) s (putAns (bump (hostErr m 0 o) HOST_POISON_CTR 1) 0 (some (.poison (List.replicate 64 0#8)))) ∧
       (∀ d mask, Does (.hostMemWrite o d mask) s (putAns (hostErr m 0 o) 0 (some .done)))) ∧
     (∀ o, hostBad m o = false → wait o → Gives (.hostMemRead o) s (fun t => t.host.ans = setAt m.host.ans 0 none) ∧ (∀ d mask, Gives (.hostMemWrite o d mask) s (fun t => t.host.ans = setAt m.host.ans 0 none))) ∧
     (∀ o, hostBad m o = false → gFlipping m o = false → hostBias m (o / 65536) = true →
       (let ln := ((windowDa m o).getD 0) / 128
        let g := readExit m ln false
        (g.1.fate = .good → Does (.hostMemRead o) s (putAns g.2 0 (some (.data ((g.1.ln.data.drop (o % 128 / 64 * 64)).take 64))))) ∧
        (g.1.fate ≠ .good → Does (.hostMemRead o) s
          (putAns (bump (recFate g.2 8 0 (5, 0, 0) 1 ln g.1) HOST_POISON_CTR 1) 0 (some (.poison ((g.1.ln.data.drop (o % 128 / 64 * 64)).take 64))))) ∧
        (∀ d mask, (let w := partialWrite m ln (List.replicate (o % 128 / 64 * 64) 0#8 ++ fit 64 0#8 d ++ List.replicate (64 - o % 128 / 64 * 64) 0#8) (mask64 o mask) true false
          (w.1 = .good → Does (.hostMemWrite o d mask) s (putAns w.2 0 (some .done))) ∧
          (w.1 ≠ .good → Does (.hostMemWrite o d mask) s (putAns (recFate w.2 8 0 (5, 0, 0) 1 ln { ln := failLine m ln zeroLine w.1, fate := w.1 }) 0 (some .done))))))) ∧
     (∀ path, path < 2 →
       (let c := h1Seen m (path + 1)
        (∀ o n b, n ≤ 4096 → (offLines o n).find? (hostBad c) = some b → Does (.hostIoRead path o n) s (putAns (hostErr c (path + 1) b) (path + 1) (some .unsupported))) ∧
        (∀ o n w, n ≤ 4096 → (offLines o n).find? (hostBad c) = none → ioBias c o n = some w → Does (.hostIoRead path o n) s (putAns w (path + 1) none)) ∧
        (∀ o n, n ≤ 4096 → (offLines o n).find? (hostBad c) = none → ioBias c o n = none →
          Gives (.hostIoRead path o n) s (fun t => ∃ bs, t.host.ans = setAt c.host.ans (path + 1) (some (.data bs)) ∨ t.host.ans = setAt c.host.ans (path + 1) (some (.poison bs)))) ∧
        (∀ o d r b, d.length ≤ 512 → (offLines o d.length).find? (hostBad c) = some b → Does (.hostIoWrite path o d r) s (putAns (hostErr c (path + 1) b) (path + 1) (some .discarded))) ∧
        (∀ o d r w, d.length ≤ 512 → (offLines o d.length).find? (hostBad c) = none → ioBias c o d.length = some w → Does (.hostIoWrite path o d r) s (putAns w (path + 1) none)) ∧
        (∀ o d r, d.length ≤ 512 → (offLines o d.length).find? (hostBad c) = none → ioBias c o d.length = none → Does (.hostIoWrite path o d r) s (putAns ((offLines o d.length).foldl (ioWriteLine path o d) c) (path + 1) (some .done))) ∧
        (∀ o op size v x, op < 3 → windowDa c o = none → Does (.hostAtomicop path o op size v x) s (putAns (hostErr c (path + 1) o) (path + 1) (some .unsupported))) ∧
        (∀ o op size da v x, op < 3 → windowDa c o = some da → (size ≠ 4 ∧ size ≠ 8) ∨ o % size ≠ 0 ∨ scratch c da = false → hostBad c o = false →
          Does (.hostAtomicop path o op size v x) s (putAns c (path + 1) (some .unsupported))) ∧
        (∀ o op size da (v x : BitVec 64), op < 3 → windowDa c o = some da → size = 4 ∨ size = 8 → o % size = 0 → scratch c da = true → ioBias c o size = none →
          (let r := atomicAt c (da / 128) (nth [0, 9, 10] op) size (da % 128) (v.toNat % 2 ^ (8 * size)) (x.toNat % 2 ^ (8 * size))
           (r.1 = .good → Does (.hostAtomicop path o op size v x) s (putAns (setRa r.2.2 path (da / 128) none) (path + 1) (some (.value r.2.1)))))))) ∧
     (∀ line, Does (.cxlCacheSnoop line) s (putAns m 0 (some .miss))))

/-- Flips, read-ahead and bias registers, and the HOST commands (R590, R592, R594, R595, R597 to R604, R621): a recalled line is written home when dirty, and the last one ends the flip; a flip to HOST ends when no write waits at its home; a dwell that ends lets the waiting flip proceed; a read-ahead entry expires after 2,048 lt;
READAHEAD 0 empties the buffers; the bias word selected is read or written whole. HOST.WINDOW checks its target and overlap, HOST.BIAS sets or flips a run of granules, HOST.POLICY writes HOST_CTRL.
Where the rules leave room it rests on the model's own choices, log entries 40, 43 and 61. -/
def Obligations.BiasFlipsAndHostCommands : Prop :=
  ∀ s : State, acts s = true → ∀ i,
    (let m := s.chip
     let p := cmdPay m i
     let w := nth p 0
     let k := bitsN w 23 18
     let t := bitsN w 17 0
     let old := csr m (HOST_SEGk_VALID k).off
     (∀ g line f d dirty, flipOf m g true = some f → line ∈ f.lines →
       (let cut := fun c => modHost c (fun h => { h with flips := h.flips.map (fun f => if f.granule = g then { f with lines := f.lines.filter (· != line) } else f) })
        (dirty = false ∨ windowDa m (g * 65536 + line * 128) = none →
          ((flipOf (cut m) g true).any (fun f => f.lines.isEmpty) = false → Does (.biasRecallResponse g line dirty d) s (cut m)) ∧
          ((flipOf (cut m) g true).any (fun f => f.lines.isEmpty) = true → Does (.biasRecallResponse g line dirty d) s (flipDone (cut m) g true))) ∧
        (∀ da, windowDa m (g * 65536 + line * 128) = some da →
          (let c := cut (writeLine m (da / 128) (goodLine (fit 128 0#8 d)) false).2
           ((flipOf c g true).any (fun f => f.lines.isEmpty) = false → Does (.biasRecallResponse g line true d) s c) ∧
           ((flipOf c g true).any (fun f => f.lines.isEmpty) = true → Does (.biasRecallResponse g line true d) s (flipDone c g true)))))) ∧
     (∀ g, (flipOf m g false).isSome = true → writesOpen m g = false → Does (.biasFlipHostComplete g) s (flipDone m g false)) ∧
     (∀ g d, (g, d) ∈ m.host.waitFlips → dwellOver m g = true → Does (.biasDwellExpire g) s (waitGo m)) ∧
     (∀ path line t0 d, path < 2 → tget none line (raOf m path) = some (t0, d) → t0 + 2048 ≤ m.ns → Does (.readaheadExpire path line) s (setRa m path line none)) ∧
     (∀ v : Word, tb v.toNat 2 = false → Does (.hostReadaheadWrite v) s (writeHostCtrl v.toNat m)) ∧
     (∀ c : Chip, ∀ v, fon (writeFields c HOST_CTRL_HOLDOFF_MS.off v) HOST_CTRL_READAHEAD = false → writeHostCtrl v c = emptyRa (writeFields c HOST_CTRL_HOLDOFF_MS.off v) [0, 1]) ∧
     (∀ v, Does (.hostBiasDataAccess false v) s
       (fset { m with out := some (maskN 32 (fun b => !hostBias m (32 * fget m HOST_BIAS_SEL_WORD + b))) } HOST_BIAS_SEL_WORD (if fget m HOST_BIAS_SEL_WORD = 32767 then 0 else fget m HOST_BIAS_SEL_WORD + 1))) ∧
     (∀ v : Word, Gives (.hostBiasDataAccess true v) s (fun c => (∀ b, b < 32 → hostBias c (32 * fget m HOST_BIAS_SEL_WORD + b) = !tb v.toNat b) ∧
       (∀ g, g / 32 ≠ fget m HOST_BIAS_SEL_WORD → hostBias c g = hostBias m g))) ∧
     (cmdReady m i 0x0901 = true →
       (tb w 31 = true → targetOk t = false → Does (.hostWindow i) s (fail m i 0x0901)) ∧
       (tb w 31 = true → targetOk t = true → (List.range 64).any (fun j => j != k && fon m (HOST_SEGk_VALID j) && fget m (HOST_SEGk_TARGET j) == t) = true → Does (.hostWindow i) s (fail m i 0x0902)) ∧
       (tb w 31 = true → targetOk t = true → (List.range 64).any (fun j => j != k && fon m (HOST_SEGk_VALID j) && fget m (HOST_SEGk_TARGET j) == t) = false →
         t ≤ 0x5FF → stackUp m (stackOf (t * 2 ^ 30)) = false → Does (.hostWindow i) s (fail m i 1)) ∧
       (tb w 31 = false → m.host.winCmd = none → Does (.hostWindow i) s (windowGo (modHost (cmdOn m i []) (fun h => { h with winCmd := some (i, k, t, old) })))) ∧
       (tb w 31 = true → targetOk t = true → (List.range 64).any (fun j => j != k && fon m (HOST_SEGk_VALID j) && fget m (HOST_SEGk_TARGET j) == t) = false →
         0x5FF < t ∨ stackUp m (stackOf (t * 2 ^ 30)) = true → m.host.winCmd = none →
         Does (.hostWindow i) s (windowGo (modHost (cmdOn m i []) (fun h => { h with winCmd := some (i, k, 2 ^ 31 + t, old) }))))) ∧
     (cmdReady m i 0x0902 = true →
       (tb w 30 = true → (let gs := (List.range (nth p 1)).filter (fun k => hostBias m (bitsN w 19 0 + k) == tb w 31)
         let c := flipsGo (gs.foldl (fun c k => setBias c (bitsN w 19 0 + k) (tb w 31)) m)
         Does (.hostBias i) s (respond c i 0 [gs.length, elapsed (gs.foldl (fun c k => setBias c (bitsN w 19 0 + k) (tb w 31)) m) (cmdT0 (gs.foldl (fun c k => setBias c (bitsN w 19 0 + k) (tb w 31)) m) i)]))) ∧
       (tb w 30 = false → m.host.biasCmd = none → Does (.hostBias i) s (biasGo (modHost (cmdOn m i [bitsN w 19 0, 0]) (fun h => { h with biasCmd := some (i, bitsN w 19 0, bitsN w 19 0 + nth p 1, tb w 31) }))))) ∧
     (cmdReady m i 0x0903 = true → Does (.hostPolicy i) s (respond (writeHostCtrl w m) i 0 [csr m HOST_CTRL_HOLDOFF_MS.off])))

/-! ### Mailboxes and rings -/

/-- A mailbox (R622 to R625, R630 to R632, R658): GO sets VECTOR where it is legal, and is ignored with OVERRUN while a command runs or READY is 0; else STATE is RUNNING and the command passes its checks in order: its code, its length, its fields; then it answers BUSY where a chapter says so or
NOT_READY, or it runs, waiting for those before it that conflict. A command that waits starts when they have completed. A vector's gap that ends sends its message.
Where the rules leave room it rests on the model's own choices, log entry 44. -/
def Obligations.MailboxIssuesCommands : Prop :=
  ∀ s : State, acts s = true →
    (let m := s.chip
     (∀ i (v : Word), i < 4 → tb v.toNat 31 = true →
       (let vec := bitsN v.toNat 6 0
        let m1 := if vec ≤ 63 ∨ vec = 0x7F then fset m (MBm_CTRL_VECTOR i) vec else m
        (fget m1 (MBm_STAT_STATE i) = 1 ∨ fon m1 MB_GLOBAL_READY = false → Does (.mailboxGo i v) s (bump (fset m1 (MBm_STAT_OVERRUN i) 1) MB_OVERRUN_CTR 1)) ∧
        (fget m1 (MBm_STAT_STATE i) ≠ 1 → fon m1 MB_GLOBAL_READY = true → Does (.mailboxGo i v) s (issue (fset m1 (MBm_STAT_STATE i) 1) i)))) ∧
     (∀ c : Chip, ∀ i,
       (let hdr := reqWord c i 0
        let code := bitsN hdr 31 16
        let pay := reqPay c i (bitsN hdr 8 0)
        let us := unitsOf code pay
        let before := conflicts c i c.mbOrder us
        (catLen code pay = none → issue c i = respondD c i 3 0 []) ∧
        (∀ n, catLen code pay = some n → bitsN hdr 8 0 ≠ n → issue c i = respondD c i 4 0 []) ∧
        (catLen code pay = some (bitsN hdr 8 0) → fieldsOk c code hdr pay = false → code ≠ 0x0203 → code ≠ 0x0204 → issue c i = respondD c i 2 0 []) ∧
        (goChecks c code hdr pay = none →
          (before.any (fun r => functionOf r.code == functionOf code && !r.expert && expertForm code pay) = true ∨ chapterBusy code before = true → issue c i = fail c i 1) ∧
          (before = [] → notReady c code = true → issue c i = fail c i 5) ∧
          (before = [] → notReady c code = false →
            issue c i = { c with mbOrder := c.mbOrder + 1, mb := setAt c.mb i (some ⟨code, pay, expertForm code pay, us, c.mbOrder, 1, c.ns, []⟩) }) ∧
          (before ≠ [] → before.any (fun r => functionOf r.code == functionOf code && !r.expert && expertForm code pay) = false → chapterBusy code before = false →
            issue c i = { c with mbOrder := c.mbOrder + 1, mb := setAt c.mb i (some ⟨code, pay, expertForm code pay, us, c.mbOrder, 0, c.ns, []⟩) })))) ∧
     (∀ i r, mbRun m i = some r → r.phase = 0 → conflicts m i r.order r.units = [] →
       (notReady m r.code = true → Does (.commandWaitResume i) s (fail m i 5)) ∧
       (notReady m r.code = false → Does (.commandWaitResume i) s (setMb m i (some { r with phase := 1 })))) ∧
     (∀ v, gapOver m v = true → Does (.msixGapExpire v) s (msix { m with host := { m.host with msiGap := tput false v false m.host.msiGap } } v)))

/-- Rings (R612 to R614, R636 to R642, R645, R646): a doorbell is taken when it lies ahead of L by at most ENTRIES and not behind the one held, else it counts as bad; C of an event ring moves on by at most the records written; a stale entry is read again, and after 64,000 lt the status slot says so and reading stops; an entry
that is read is accepted with its SEQ. SYS.RING creates a ring whose areas are free and serve, or answers SYS_RANGE or SYS_RING; it removes one without live entries.
Where the rules leave room it rests on the model's own choices, log entry 45. -/
def Obligations.RingsAndDoorbells : Prop :=
  ∀ s : State, acts s = true →
    (let m := s.chip
     (∀ n (v : Word), n < 64 → ring m n = none → Does (.hostDoorbellWrite n v) s (bump m HOST_DB_BAD_CTR 1) ∧ Does (.eventRingDoorbell n v) s m) ∧
     (∀ n (v : Word) r, n < 64 → ring m n = some r → ringKind m n ≤ 5 →
       (let x := dist32 v.toNat (ringL m n)
        (x = 0 ∨ ringEnts m n < x → Does (.hostDoorbellWrite n v) s (bump m HOST_DB_BAD_CTR 1)) ∧
        (1 ≤ x → x ≤ ringEnts m n → (∀ t, r.target = some t → dist32 t (ringL m n) ≤ x) →
          Does (.hostDoorbellWrite n v) s (setRing m n (some { r with target := some v.toNat, waiting := if r.stopped then false else r.waiting, stopped := false, badSeen := false }))) ∧
        (1 ≤ x → x ≤ ringEnts m n → ∀ t, r.target = some t → x < dist32 t (ringL m n) → Does (.hostDoorbellWrite n v) s m))) ∧
     (∀ n (v : Word) r, n < 64 → ring m n = some r → 6 ≤ ringKind m n →
       (let x := dist32 v.toNat (ringL m n)
        (1 ≤ x → x ≤ dist32 (r.next + 2 ^ 32 - 1) (ringL m n) → Does (.eventRingDoorbell n v) s (fset m (MB_RINGn_L_L n) v.toNat)) ∧
        (x = 0 ∨ dist32 (r.next + 2 ^ 32 - 1) (ringL m n) < x → Does (.eventRingDoorbell n v) s (bump m HOST_DB_BAD_CTR 1)))) ∧
     (∀ n, ringStalled m n = true →
       (ringKind m n = 1 → launchWants m n = true → Does (.ringEntryReread n) s (doLaunchAccept n m)) ∧
       (ringKind m n = 2 ∨ ringKind m n = 3 → conWants m n = true → Does (.ringEntryReread n) s (doConDescriptorAccept n m)) ∧
       (ringKind m n = 4 ∨ ringKind m n = 5 → ptsOpen m (ringKind m n - 4) = true → ringWants m n = true → Does (.ringEntryReread n) s (ringRead m n (fun _ => true) (ptsTake n)))) ∧
     (∀ n r, ring m n = some r → r.waiting = true → r.stopped = false → r.t0 + 64000 ≤ m.ns → Does (.doorbellAhead n) s (doDoorbellAhead n m)) ∧
     (∀ c n r agree take, ring c n = some r → deviceReady c (r.base + (ringSeq c n % ringEnts c n) * slotBytes c n) (slotBytes c n) = true →
       (∀ ws, (ringPeek c n).1 = some ws → agree ws = true → ringRead c n agree take = take (ringSeq c n) ws (ringAccept (ringPeek c n).2.2 n)) ∧
       ((ringPeek c n).1 = none → ringRead c n agree take = ringStale (ringPeek c n).2.2 n (ringPeek c n).2.1)) ∧
     (∀ i, cmdReady m i 0x0104 = true →
       (let p := cmdPay m i
        let w0 := nth p 0
        let n := bitsN w0 5 0
        let kind := bitsN w0 27 24
        let slot := if kind = 1 then 128 else 64
        let base := nth p 2 + 2 ^ 32 * nth p 3
        let compl := nth p 4 + 2 ^ 32 * nth p 5
        let mine := if kind ≤ 5 then [(base, nth p 1 * slot), (compl, nth p 1 * slot + 64)] else [(base, nth p 1 * slot)]
        let clash := mine.any (fun a => ((List.range 64).flatMap (ringAreas m)).any (fun b => rangesMeet a.1 a.2 b.1 b.2)) || (decide (kind ≤ 5) && rangesMeet base (nth p 1 * slot) compl (nth p 1 * slot + 64))
        (bitsN w0 31 28 = 1 → ring m n = none → Does (.sysRing i) s (respond m i 0 [0])) ∧
        (bitsN w0 31 28 = 1 → ∀ r, ring m n = some r → r.live ≠ 0 → Does (.sysRing i) s (fail m i 1)) ∧
        (bitsN w0 31 28 = 1 → ∀ r, ring m n = some r → r.live = 0 → Gives (.sysRing i) s (fun t => ring t n = none)) ∧
        (bitsN w0 31 28 ≠ 1 → (ring m n).isSome = true ∨ (6 ≤ kind ∧ (eventRing m kind).isSome = true) → Does (.sysRing i) s (fail m i 0x0102)) ∧
        (bitsN w0 31 28 ≠ 1 → ring m n = none → kind < 6 ∨ eventRing m kind = none → (∃ a ∈ mine, areaOk m a.1 a.2 = false) ∨ clash = true → Does (.sysRing i) s (fail m i 0x0101)) ∧
        (bitsN w0 31 28 ≠ 1 → ring m n = none → kind < 6 ∨ eventRing m kind = none → (∀ a ∈ mine, areaOk m a.1 a.2 = true) → clash = false →
          (let m1 := setCsr (setCsr m (MB_RINGn_CFG_KIND n).off (kind * 2 ^ 28 + bitN w0 23 * 2 ^ 27 + bitsN w0 22 21 * 2 ^ 25 + bitsN w0 20 14 * 2 ^ 18 + nth p 1)) (MB_RINGn_L_L n).off ((nth p 6 + 2 ^ 32 - 1) % 2 ^ 32)
           Does (.sysRing i) s (respond (fatalPost (setRing m1 n (some { base := base, compl := compl, next := nth p 6 }))) i 0 [if kind ≤ 5 then nth p 1 * slot + 64 else 0]))))))

/-! ### Starts -/

/-- The causes of a start (R617 to R619, R665 to R670, R772, R773, R783, R807, R808): VIN48's rise turns the rails on and starts cold, unless a trip is latched or MOD_RST_N is low; MOD_RST_N low for 10 µs holds the module in reset and its release starts cold; the hold-off's end, a hot reset, the release of H0_PERST_N and the
watchdog start warm; a cause is cold where it says so, where the module is role-fatal or where no start has completed, and a module at READY first sends DEPART.
Where the rules leave room it rests on the model's own choices, log entries 48, 49, 50, 58 and 60. -/
def Obligations.CausesStartTheModule : Prop :=
  ∀ s : State,
    (let b := s.board
     let m := s.chip
     let up := fun (t : State) => if acts t then { t with chip := settle t.chip } else t
     (∀ mv, b.vin = false → 40000 ≤ mv → mv ≤ 60000 →
       (let b1 := vinBack b mv
        (b1.trip = true → exec (.vin48Rise mv) s = .next (up { s with board := b1 })) ∧
        (b1.trip = false → b.modRst = true → exec (.vin48Rise mv) s = .next { s with board := { b1 with rails := true }, chip := Chip.off }) ∧
        (b1.trip = false → b.modRst = false → exec (.vin48Rise mv) s = .next (up (coldSteps { s with board := { b1 with rails := true }, chip := Chip.off }))))) ∧
     (∀ mv, b.vin = true ∨ mv < 40000 ∨ 60000 < mv → exec (.vin48Rise mv) s = .next s) ∧
     (∀ dur, b.rails = false ∨ dur < 10000 → exec (.modRstAssert dur) s = .next { s with board := { b with modRst := true } }) ∧
     (∀ dur, b.rails = true → 10000 ≤ dur → ∃ t, exec (.modRstAssert dur) s = .next t ∧ t.chip.start.phase = 0 ∧ t.board.modRst = true ∧ t.chip.mem = [] ∧ acts t = false) ∧
     (b.modRst = true → b.rails = true → m.start.phase = 0 → exec .modRstRelease s = .next (up (coldSteps { s with board := { b with modRst := false, jtagPins := [] } }))) ∧
     (b.modRst = false ∨ b.rails = false ∨ m.start.phase ≠ 0 → exec .modRstRelease s = .next (up { s with board := { b with modRst := false, jtagPins := [] } })) ∧
     (b.h0Perst = true → exec .h0PerstRelease s = .next (up (startCause { s with board := { b with h0Perst := false } } false false 2))) ∧
     (b.h0Perst = false → exec .h0PerstRelease s = .next s) ∧
     (acts s = true → exec .h0PerstAssert s = .next { s with board := { b with h0Perst := true }, chip := settle (if fon m HOST_STAT_H0_UP then h0Down (modHost m (fun h => { h with downAt := some m.ns })) else m) }) ∧
     (acts s = false → exec .h0PerstAssert s = .next { s with board := { b with h0Perst := true } }) ∧
     (acts s = true → fon m HOST_STAT_H0_UP = false → ∀ t0, m.host.downAt = some t0 → t0 + fget m HOST_CTRL_HOLDOFF_MS * 10 ^ 6 ≤ m.ns →
       exec .h0HoldoffExpire s = .next (up (if fon m HOST_CTRL_LOSS_STAY then h0Lost s else startCause (h0Lost s) false false 0))) ∧
     (b.rails = true → m.start.phase ≠ 0 → exec .h0HotReset s = .next (up (startCause (h0Lost { s with chip := if fon m HOST_STAT_H0_UP then h0Down m else m }) false false 2))) ∧
     (b.rails = true → 4 ≤ m.start.phase → exec .miotoWatchdogExpire s = .next (up (startCause s false false 2))) ∧
     (∀ cold modRst reason, b.rails = true → heeds m cold modRst = true → m.start.phase ≠ 5 →
       (cold = true ∨ m.start.phase = 7 ∨ m.start.completed = false → startCause s cold modRst reason = coldSteps s) ∧
       (cold = false → m.start.phase ≠ 7 → m.start.completed = true → startCause s cold modRst reason = warmSteps s)) ∧
     (∀ cold modRst reason, b.rails = true → m.start.phase = 5 →
       (cold = true ∨ m.start.completed = false → startCause s cold modRst reason = coldSteps (sendDepart s reason)) ∧
       (cold = false → m.start.completed = true → startCause s cold modRst reason = warmSteps (sendDepart s reason))) ∧
     (∀ cold modRst reason, b.rails = false ∨ heeds m cold modRst = false → startCause s cold modRst reason = s))

/-- The links of the host while the module runs (R602, R617, R620, R808): H0's link up within the hold-off sets H0_LOST with a notice; its loss starts the hold-off and discards what is in flight; a loss or reset of H1 only marks it.
Where the rules leave room it rests on the model's own choices, log entries 42 and 50. -/
def Obligations.HostLinksComeAndGo : Prop :=
  ∀ s : State, acts s = true →
    (let m := s.chip
     (∀ sp w, s.board.h0Perst = false → fon m HOST_STAT_H0_UP = false → 1 ≤ sp → sp ≤ 6 → w ≤ 4 →
       (let m1 := fset (fset (fset m HOST_STAT_H0_UP 1) HOST_STAT_H0_SPEED sp) HOST_STAT_H0_WIDTH w
        (m.host.downAt = none → Does (.h0LinkUp sp w) s m1) ∧
        (∀ t0, m.host.downAt = some t0 → Gives (.h0LinkUp sp w) s (fun t => fget t HOST_STAT_H0_UP = 1 ∧ fget t HOST_STAT_H0_SPEED = sp ∧ fget t HOST_STAT_H0_WIDTH = w ∧ fget t HOST_STAT_H0_LOST = 1 ∧
          t.host.downAt = none ∧ t.err.due = m.err.due ++ [(8, [csr t HOST_STAT_H0_UP.off])])))) ∧
     (fon m HOST_STAT_H0_UP = true → Does .h0LinkDown s (h0Down (modHost m (fun h => { h with downAt := some m.ns })))) ∧
     (∀ c : Chip, c.host.flips = [] → h0Down c = putAns (putAns (fset (fset (fset c HOST_STAT_H0_UP 0) HOST_STAT_H0_SPEED 0) HOST_STAT_H0_WIDTH 0xF) 0 (some .discarded)) 1 (some .discarded)) ∧
     (let m1 := putAns (fset (fset (fset (fset m HOST_STAT_H1_UP 0) HOST_STAT_H1_SPEED 0) HOST_STAT_H1_WIDTH 0xF) HOST_STAT_H1_LOST 1) 2 (some .discarded)
      Does .h1LinkLoss s m1 ∧ Does .h1Perst s m1))

/-- The end of a start, the SYS commands and secure boot (R43, R618, R644, R660, R665, R675 to R680, R689 to R698, R783): START_READY ends the concurrent steps, sets STATE READY, counts and records the start; a module too hot to start waits for its sensors; SYS.SIZE, IDENT and STATE answer; SYS.RESET completes the other commands with ABORTED,
answers and starts; SEC.MEASURE and SEC.ATTEST report; SEC.UPDATE writes, commits or reverts an image bank by its checks, and the end of programming makes the bank pending.
Where the rules leave room it rests on the model's own choices, log entries 47 to 53. -/
def Obligations.StartEndsAndSystemCommands : Prop :=
  ∀ s : State, acts s = true → ∀ i,
    (let m := s.chip
     let b := s.board
     let p := cmdPay m i
     let op := bitsN (nth p 0) 31 28
     let up := fun (t : State) => if acts t then { t with chip := settle t.chip } else t
     let sec := fun (t : State) => Host.Outcome.next (σ := State) (φ := Fault) (ρ := Refusal) { t with chip := settle (secStat t.board t.chip) }
     (∀ stk ports dies, m.start.phase = 4 → ∃ t, exec (.startReady stk ports dies) s = .next t ∧ t.chip.start.phase = 5 ∧ t.chip.start.completed = true ∧ t.board.startLog = b.startLog ++ [b2n m.start.warm]) ∧
     (∀ stk ports dies, m.start.phase ≠ 4 → exec (.startReady stk ports dies) s = .next s) ∧
     (∀ temps powers, m.start.phase = 3 →
       ((∀ d k, d < 10 → k < sensors d → estimate temps powers d k ≤ 110 * 256) → exec (.bootThermalRecheck temps powers) s = .next (up (bootImage { s with board := { b with hot := false } }))) ∧
       (∀ d k, d < 10 → k < sensors d → 110 * 256 < estimate temps powers d k → exec (.bootThermalRecheck temps powers) s = .next (up s))) ∧
     (cmdReady m i 0x0101 = true → Does (.sysSize i) s (respond (sizeRefresh m) i 0 ((List.range 21).map (fun k => csr (sizeRefresh m) (0x400 + 4 * k))))) ∧
     (cmdReady m i 0x0102 = true → Does (.sysIdent i) s (respond m i 0 ([0x1F3D9240, 0x41300000] ++ bytesWords (fit 16 0#8 b.serial) ++ [m.start.version, m.start.svn]))) ∧
     (cmdReady m i 0x0103 = true → Does (.sysState i) s
       (respond m i 0 ([sysStateCode m * 2 ^ 28 + b2n m.start.warm * 2 ^ 24 + ltState m, gatesWaiting m * 2 ^ 16 + launchesActive m] ++ lohi (maskN 64 (fun n => (ring m n).isSome))))) ∧
     (cmdReady m i 0x0106 = true →
       (let cold := op == 1
        let m1 := (List.range 4).foldl (fun c j => if j ≠ i ∧ (mbRun c j).isSome then fail c j 6 else c) m
        (heeds m cold false = true → exec (.sysReset i) s = .next (up (startCause { s with chip := fset (respond m1 i 0 []) MB_GLOBAL_READY 0 } cold false (if cold then 1 else 2)))) ∧
        (heeds m cold false = false → exec (.sysReset i) s = .next (up { s with chip := respond m i 0 [] })))) ∧
     (cmdReady m i 0x0C01 = true → Does (.secMeasure i) s
       (respond m i 0 ([b2n m.start.skipped * 2 ^ 24 + b2n (trialRuns b m) * 2 ^ 20 + b2n b.bankPending.isSome * 2 ^ 16 + b.selected % 2 * 2 ^ 8 + m.start.running % 2,
         b.fuseSvn % 256 * 2 ^ 16 + m.start.svn % 256 * 2 ^ 8 + m.start.key % 256, b2n b.key0Revoked * 2 + b2n m.start.warm] ++ bytesWords (fit 64 0#8 m.start.meas)))) ∧
     (cmdReady m i 0x0C02 = true →
       (op = 0 → Does (.secAttest i) s (respond m i 0 (attestReport b m (p.drop 1) ++ bytesWords (fit 116 0#8 (edSign m.start.aliasKey (wordBytes (attestReport b m (p.drop 1)))))))) ∧
       (op ≠ 0 → (let cert := if tb (nth p 0) 24 then m.start.aliasCert else b.deviceCert
         (cert.length ≤ nth p 1 → Does (.secAttest i) s (fail m i 2)) ∧
         (nth p 1 < cert.length → Does (.secAttest i) s (respond m i 0 ([cert.length, min 2000 (cert.length - nth p 1)] ++ padWords ((cert.drop (nth p 1)).take (min 2000 (cert.length - nth p 1))))))))) ∧
     (cmdReady m i 0x0C03 = true →
       (m.start.update.isSome = true → exec (.secUpdate i) s = sec { s with chip := fail m i 1 }) ∧
       (m.start.update = none → op = 0 → exec (.secUpdate i) s = sec (updateWrite i p s)) ∧
       (m.start.update = none → op = 1 → trialRuns b m = false → exec (.secUpdate i) s = sec { s with chip := fail m i 0x0C05 }) ∧
       (m.start.update = none → op = 1 → trialRuns b m = true → tb (nth p 0) 24 = false → m.start.svn ≤ 64 →
         exec (.secUpdate i) s = sec { s with board := { b with selected := m.start.running, trial := none, fuseSvn := max b.fuseSvn m.start.svn }, chip := updateDone i m.start.running m.start.svn m }) ∧
       (m.start.update = none → op = 2 → b.bankPending.isSome = true →
         exec (.secUpdate i) s = sec { s with board := { b with bankPending := none }, chip := updateDone i b.selected (imgSvn (bankHeader b b.selected)) m })) ∧
     (∀ j k, m.start.update = some (j, k) →
       (let m1 : Chip := { m with start := { m.start with update := none, updImage := [] } }
        exec (.flashProgramDone true) s = sec { s with board := { putBank b k 0 m.start.updImage with bankPending := some k }, chip := updateDone j k (imgSvn (bytesWords (m.start.updImage.take 256))) m1 } ∧
        exec (.flashProgramDone false) s = sec { s with chip := fail m1 j 0x0C06 })))

/-! ### Power and temperature -/

/-- Samples, limits and faults (R773, R775 to R793, R796): a power sample adds its energy to the counter and starts the surge clamp above its trip; a sensor that strays by more than 15 °C for 16 samples is excluded, and taken back after 64 within 5 °C; the thermal state has 5 °C of hysteresis; a die that meets the shutdown condition in two samples running
trips the module; the step and the limit take effect in a window or at the timer; a first converter's failure caps the limit, a second is role-fatal; a rail's fault loses its die or the role; VIN48 out of range turns the rails off.
Where the rules leave room it rests on the model's own choices, log entries 39 and 54 to 58. -/
def Obligations.PowerAndTemperature : Prop :=
  ∀ s : State, acts s = true →
    (let m := s.chip
     (∀ mv ma, exec (.powerSample mv ma) s = .next { s with board := { s.board with vinMv := mv }, chip := settle (doPowerSample mv ma m) }) ∧
     (∀ mv ma, (let e := (m.pwr.remFj + mv * ma * 1024) / 10 ^ 12
       let t := doPowerSample mv ma m
       (cget m PWR_ENERGY_CTR < 2 ^ 48 → cget t PWR_ENERGY_CTR = min (cget m PWR_ENERGY_CTR + e) (2 ^ 48 - 1)) ∧ t.pwr.remFj = (m.pwr.remFj + mv * ma * 1024) % 10 ^ 12 ∧ t.pwr.epochUw = m.pwr.epochUw + mv * ma ∧ fget t PWR_INPUT_VIN_MV = sat 65535 mv ∧
       t.pwr.surge = (m.pwr.surge || decide ((if fon m PWR_STAT_PHASE_FAIL then 2250 else 3000) * 10 ^ 6 < mv * ma)))) ∧
     (∀ temps powers, (let t := doThermalSample temps powers m
       (overheated m t = true → ∃ u, exec (.thermalSample temps powers) s = .next u ∧ u.chip = Chip.off ∧ u.board.rails = false ∧ u.board.trip = true ∧ u.board.hot = true ∧ u.board.depart = s.board.depart) ∧
       (overheated m t = false → Does (.thermalSample temps powers) s t))) ∧
     (∀ e d k, (let ns := (neighbours d k).filter (fun n => !(sensor m d n).suspect)
       let diff := (e k * ns.length - (ns.map e).foldl (· + ·) 0) + ((ns.map e).foldl (· + ·) 0 - e k * ns.length)
       let old := sensor m d k
       (ns ≠ [] → old.suspect = false → diff ≤ 15 * 256 * ns.length → sensorNext m e d k = { est := e k, suspect := false, run := 0 }) ∧
       (ns ≠ [] → old.suspect = false → 15 * 256 * ns.length < diff → sensorNext m e d k = if 15 ≤ old.run then { est := e k, suspect := true, run := 0 } else { est := e k, suspect := false, run := old.run + 1 }) ∧
       (ns ≠ [] → old.suspect = true → diff ≤ 5 * 256 * ns.length → sensorNext m e d k = if 63 ≤ old.run then { est := e k, suspect := false, run := 0 } else { est := e k, suspect := true, run := old.run + 1 }) ∧
       (ns ≠ [] → old.suspect = true → 5 * 256 * ns.length < diff → sensorNext m e d k = { est := e k, suspect := true, run := 0 }))) ∧
     (∀ old tj, old ≤ 2 → thermalState old tj = if 105 * 256 ≤ tj ∨ (old = 2 ∧ 100 * 256 < tj) then 2 else if 95 * 256 ≤ tj ∨ (old ≠ 0 ∧ 90 * 256 < tj) then 1 else 0) ∧
     (throttleTimerDue m = true → Does .throttleTimer s (throttleAct m)) ∧
     (fget (throttleAct m) PWR_STAT_STEP = fget m PWR_STAT_NEXT_STEP ∧ fget (throttleAct m) PWR_STAT_BCLK_HALF = (if 9 ≤ fget m PWR_STAT_NEXT_STEP then 1 else 0) ∧ fget (throttleAct m) PWR_LIMIT_IN_FORCE = nextLimit m ∧
       (throttleAct m).pwr.surge = false ∧ fget (throttleAct m) PWR_STAT_S_POWER = if m.pwr.surge then min 11 (fget m PWR_STAT_S_POWER + 1) else fget m PWR_STAT_S_POWER) ∧
     (∀ sp avg l run, nextPower sp avg l run = if l < avg then (min (sp + 1) 11, 0) else if 100 * avg < 95 * l then (if 3 ≤ run then (sp - 1, 0) else (sp, run + 1)) else (sp, 0)) ∧
     (∀ r, (r < 8 → Does (.railFault r) s (loseDie r 0 m)) ∧ (8 ≤ r → r < 26 → Does (.railFault r) s (roleFatal (railBase r) 11 m)) ∧ (26 ≤ r → Does (.railFault r) s m)) ∧
     (∀ n, (4 ≤ n ∨ n ∈ m.pwr.convFail → Does (.converterFail n) s m) ∧
       (n < 4 → m.pwr.convFail = [] → Gives (.converterFail n) s (fun t => t.pwr.convFail = [n] ∧ fget t PWR_STAT_PHASE_FAIL = 1 ∧ fget t PWR_LIMIT_IN_FORCE = min 2000 (fget m PWR_LIMIT_IN_FORCE))) ∧
       (n < 4 → m.pwr.convFail ≠ [] → n ∉ m.pwr.convFail → Gives (.converterFail n) s (fun t => t.start.phase = 7 ∧ fget t ERR_STAT_FATAL_VALID = 1))) ∧
     (∃ t, exec .vin48Undervolt s = .next t ∧ t.chip = Chip.off ∧ t.board.rails = false ∧ t.board.vin = false ∧ t.board.fell = true ∧ t.board.depart = (activePorts m, 1)) ∧
     (∃ t, exec .vin48Overvolt s = .next t ∧ t.chip = Chip.off ∧ t.board.rails = false ∧ t.board.vin = false ∧ t.board.depart = s.board.depart) ∧
     (∀ i, cmdReady m i 0x0B01 = true →
       (let w := nth (cmdPay m i) 0
        (bitsN w 11 0 < 1000 ∨ 2800 < bitsN w 11 0 → Does (.pwrLimit i) s (fail m i 0x0B01)) ∧
        (1000 ≤ bitsN w 11 0 → bitsN w 11 0 ≤ 2800 → Does (.pwrLimit i) s
          (respond (fset (fset (fset m PWR_LIMIT_TARGET (bitsN w 11 0)) PWR_CTRL_FLOOR (bitsN w 23 20)) PWR_CTRL_FORCE (bitN w 31)) i 0 [fget m PWR_LIMIT_TARGET * 2 ^ 16 + fget m PWR_LIMIT_IN_FORCE])))) ∧
     (∀ i, cmdReady m i 0x0B02 = true → Does (.pwrStatus i) s (respond m i 0 ([csr m PWR_STAT_STEP.off, csr m PWR_LIMIT_TARGET.off, csr m PWR_INPUT_AVG_W.off] ++
       (List.range 10).map (fun d => csr m (PWR_TJd_TJ d).off) ++ [csr m PWR_ENERGY_CTR, csr m (PWR_ENERGY_CTR + 4)]))))

/-! ### The board -/

/-- The management bus and the test access port (R806, R811 to R815), in every state of the module: the responder answers at 0x58 plus the slot while VSB is up, takes no write, and gives its address while it drives the alert; TDO shows one bit of delay, the identity code or the lands, and nothing without VIN48; EXTEST drives the lands only while MOD_RST_N
is low, and the flash is programmed only while READY is 0; else both act as BYPASS. Nothing here reaches the module itself.
Where the rules leave room it rests on the model's own choices, log entry 59. -/
def Obligations.BoardBusAndTestPort : Prop :=
  ∀ s : State,
    (let b := s.board
     let hears := fun a => b.vsb = true ∧ a = 0x58 + b.slot % 8
     let answer := fun (o : Option Nat) => ({ s with board := { b with smbOut := o } } : State)
     let tap := fun tdo pins => ({ s with board := { b with tdo := if b.vin then tdo else [], jtagPins := if b.vin then pins else [] } } : State)
     (∀ a off, (hears a → exec (.smbRead a off false) s = .next (answer (some (mgmtByte s off))) ∧ exec (.smbRead a off true) s = .next (answer (some (mgmtByte s off + 256 * mgmtByte s (off + 1))))) ∧
       (¬ hears a → ∀ w, exec (.smbRead a off w) s = .next (answer none))) ∧
     (∀ a off v, (hears a → exec (.smbWrite a off v) s = .next (answer (some 0))) ∧ (¬ hears a → exec (.smbWrite a off v) s = .next (answer none))) ∧
     (b.vsb = true → smbAlert s = true → exec .smbAlertResponse s = .next (answer (some (0x58 + b.slot % 8)))) ∧
     (b.vsb = false ∨ smbAlert s = false → exec .smbAlertResponse s = .next (answer none)) ∧
     (∀ bits, exec (.jtagBypass bits) s = .next (tap ((false :: bits).take bits.length) [])) ∧
     (exec .jtagIdcode s = .next (tap ((List.range 32).map (tb 0x0924027B)) [])) ∧
     (∀ pins, exec (.jtagSample pins) s = .next (tap pins [])) ∧
     (∀ pins, (b.modRst = true → exec (.jtagExtest pins) s = .next (tap b.tdo pins)) ∧ (b.modRst = false → exec (.jtagExtest pins) s = .next (tap ((false :: pins).take pins.length) []))) ∧
     (∀ k off d, (fget s.chip MB_GLOBAL_READY = 0 → b.vin = true → k < 2 → exec (.jtagFlashProg k off d) s = .next { s with board := putBank { b with jtagPins := [] } k off d }) ∧
       (fget s.chip MB_GLOBAL_READY = 0 → b.vin = false ∨ 2 ≤ k → exec (.jtagFlashProg k off d) s = .next s) ∧
       (fget s.chip MB_GLOBAL_READY ≠ 0 → (let bits := d.flatMap (fun x => (List.range 8).map (tb x.toNat))
         exec (.jtagFlashProg k off d) s = .next (tap ((false :: bits).take bits.length) [])))))

/-- Power is in order right after reset.
The machine after reset: nothing is queued, the rails are off and the module holds no state, so that every register of control space reads as its reset value, no memory is listed, no row, ring, block or request exists; and the row of VIN48's rise is what starts it. The pins' levels and the empty flash are the model's choice (see the assumption log on State.reset).
Where the rules leave room it rests on the model's own choices, log entries 5 and 6. -/
def Obligations.ResetLeavesModuleOffInOrder : Prop :=
  (
    PowerInv State.reset) ∧
  (
    State.reset.pending = [] ∧ State.reset.chip = Chip.off ∧ State.reset.board.rails = false ∧ State.reset.board.vin = false ∧ State.reset.board.trip = false ∧
    (∀ off, csr State.reset.chip off = regReset off) ∧ State.reset.chip.mem = [] ∧ rowsOf State.reset.chip = [] ∧ (∀ n, ring State.reset.chip n = none) ∧ State.reset.chip.reqs = [] ∧ State.reset.chip.cores = [] ∧
    (∀ mv, 40000 ≤ mv → mv ≤ 60000 → ∃ t, exec (.vin48Rise mv) State.reset = .next t ∧ t.board.vin = true ∧ t.board.rails = true ∧ t.board.vsb = true))
end

