-- ==== Sys2Proof/Decode.lean ====
section
/-! DEFINITION. Decoding of command words. The opcode table gives its rows no bits (every "fields" list is empty): the commands are register
accesses, mailbox requests, bus messages and events, which no word of the table spells. -/

namespace Sys2Proof

/-- The command that a word of the table spells: none, as no row has bits (assumption 1). -/
def decodeTableWord (_nbits _w : Nat) : Option Instr := none

end Sys2Proof
end

