-- ==== Sys2Proof/Laws/Exec.lean ====
section
/-! SUPPORT. How a command runs: the shared forms every meaning has, each with the one lemma that says all it can do. -/

namespace Sys2Proof.Laws

open Sys2Proof.Machine

/-- A module that acts runs the effect, and ends the step. -/
theorem run_acts {s : State} (h : acts s = true) (f : Chip → Chip) : run s f = .next { s with chip := settle (f s.chip) } := by
  simp [run, h]

/-- A module that does not act stays as it is. -/
theorem run_still {s : State} (h : acts s = false) (f : Chip → Chip) : run s f = .next s := by
  simp [run, h]

/-- An event that comes about. -/
theorem runIf_acts {s : State} {c : Chip → Bool} (h : acts s = true) (hc : c s.chip = true) (f : Chip → Chip) :
    runIf s c f = .next { s with chip := settle (f s.chip) } := by
  simp [runIf, run, h, hc]

/-- An event whose condition does not hold ends the step and does nothing else. -/
theorem runIf_no {s : State} {c : Chip → Bool} (h : acts s = true) (hc : c s.chip = false) (f : Chip → Chip) :
    runIf s c f = .next { s with chip := settle s.chip } := by
  simp [runIf, run, h, hc]

/-- A command of a mailbox that is ready. -/
theorem runCmd_ready {s : State} {i code : Nat} (h : acts s = true) (hc : cmdReady s.chip i code = true) (f : List Nat → Chip → Chip) :
    runCmd s i code f = .next { s with chip := settle (f (cmdPay s.chip i) s.chip) } := by
  simp [runCmd, runIf, run, h, hc]

/-- A step answers a next state whatever the command: no run or runIf stops. -/
theorem run_next (s : State) (f : Chip → Chip) : ∃ t, run s f = .next t := by
  cases h : acts s
  · exact ⟨s, run_still h f⟩
  · exact ⟨_, run_acts h f⟩

/-- What run leaves of the board and the queue. -/
theorem run_board {s t : State} {f : Chip → Chip} (h : run s f = .next t) : t.board = s.board ∧ t.pending = s.pending := by
  unfold run at h
  split at h
  · injection h with h; subst h; exact ⟨rfl, rfl⟩
  · injection h with h; subst h; exact ⟨rfl, rfl⟩

/-- A module without its rails does nothing. -/
theorem run_off {s : State} (h : s.board.rails = false) (f : Chip → Chip) : run s f = .next s := by
  apply run_still; simp [acts, h]

/-- The word of a group that issues is one of a row's. -/
theorem canIssue_of {m : Chip} {c slot w : Nat} {ops : List Nat} (h : canIssue m c slot w [iOp w] = true) (ho : iOp w ∈ ops) : canIssue m c slot w ops = true := by
  simp only [canIssue, Bool.and_eq_true] at h ⊢
  refine ⟨⟨h.1.1, ?_⟩, h.2⟩
  simp [ho]

/-- An instruction that issues has its effect. -/
theorem issueOp_issues {s : State} {c slot : Nat} {word : BitVec 64} {g : Grp} {b : Blk} (h : Issues s c slot word g b) {ops : List Nat}
    (ho : iOp word.toNat ∈ ops) (f : Nat → Grp → Blk → Chip → Chip) :
    issueOp s c slot word ops f = .next { s with chip := settle (f word.toNat g b s.chip) } := by
  unfold issueOp
  rw [runIf_acts h.acts (canIssue_of h.can ho)]
  simp [doIssue, h.grp, h.blk, h.legal, h.inRange]

/-- An instruction that changes only its group. -/
theorem issueAlu_issues {s : State} {c slot : Nat} {word : BitVec 64} {g : Grp} {b : Blk} (h : Issues s c slot word g b) {ops : List Nat}
    (ho : iOp word.toNat ∈ ops) (f : Nat → Grp → Grp) :
    issueAlu s c slot word ops f = .next { s with chip := settle (setGrp s.chip c slot (some (advance (f word.toNat g)))) } :=
  issueOp_issues h ho _

/-! ### Plain commands -/

/-- What a command of the powered module alone can do: nothing while the module does not act, else change its machine and end the step. -/
def Plain (o : Host.Outcome State Fault Refusal) (s : State) : Prop :=
  (acts s = false ∧ o = .next s) ∨ (acts s = true ∧ ∃ m, o = .next { s with chip := settle m })

theorem plain_run (s : State) (f : Chip → Chip) : Plain (run s f) s := by
  cases h : acts s
  · exact .inl ⟨h, run_still h f⟩
  · exact .inr ⟨h, _, run_acts h f⟩

theorem plain_runIf (s : State) (c : Chip → Bool) (f : Chip → Chip) : Plain (runIf s c f) s := plain_run s _

theorem plain_runCmd (s : State) (i code : Nat) (f : List Nat → Chip → Chip) : Plain (runCmd s i code f) s := plain_runIf s _ _

theorem plain_issueOp (s : State) (c slot : Nat) (word : BitVec 64) (ops : List Nat) (f : Nat → Grp → Blk → Chip → Chip) : Plain (issueOp s c slot word ops f) s :=
  plain_runIf s _ _

theorem plain_issueAlu (s : State) (c slot : Nat) (word : BitVec 64) (ops : List Nat) (f : Nat → Grp → Grp) : Plain (issueAlu s c slot word ops f) s :=
  plain_issueOp s c slot word ops _

/-- A plain command answers a next state with the board and the queue as they were. -/
theorem Plain.next {o : Host.Outcome State Fault Refusal} {s : State} (h : Plain o s) : ∃ t, o = .next t ∧ t.board = s.board ∧ t.pending = s.pending := by
  obtain ⟨_, h⟩ | ⟨_, m, h⟩ := h
  · exact ⟨s, h, rfl, rfl⟩
  · exact ⟨_, h, rfl, rfl⟩

end Sys2Proof.Laws
end

