-- ==== Sys2Proof/Laws/State.lean ====
section
/-! SUPPORT. What each update of the machine leaves: one lemma per field and update, so that no proof unfolds an update. -/

namespace Sys2Proof.Laws

open Sys2Proof.Machine

/-! ### setCsr -/

@[simp] theorem setCsr_latch (m : Chip) (o v : Nat) : (setCsr m o v).latch = m.latch := rfl
@[simp] theorem setCsr_hiHeld (m : Chip) (o v : Nat) : (setCsr m o v).hiHeld = m.hiHeld := rfl
@[simp] theorem setCsr_out (m : Chip) (o v : Nat) : (setCsr m o v).out = m.out := rfl
@[simp] theorem setCsr_ns (m : Chip) (o v : Nat) : (setCsr m o v).ns = m.ns := rfl
@[simp] theorem setCsr_freeCtr (m : Chip) (o v : Nat) : (setCsr m o v).freeCtr = m.freeCtr := rfl
@[simp] theorem setCsr_mem (m : Chip) (o v : Nat) : (setCsr m o v).mem = m.mem := rfl
@[simp] theorem setCsr_lmeta (m : Chip) (o v : Nat) : (setCsr m o v).lmeta = m.lmeta := rfl
@[simp] theorem setCsr_buf (m : Chip) (o v : Nat) : (setCsr m o v).buf = m.buf := rfl
@[simp] theorem setCsr_stks (m : Chip) (o v : Nat) : (setCsr m o v).stks = m.stks := rfl
@[simp] theorem setCsr_reqs (m : Chip) (o v : Nat) : (setCsr m o v).reqs = m.reqs := rfl
@[simp] theorem setCsr_resps (m : Chip) (o v : Nat) : (setCsr m o v).resps = m.resps := rfl
@[simp] theorem setCsr_reqId (m : Chip) (o v : Nat) : (setCsr m o v).reqId = m.reqId := rfl
@[simp] theorem setCsr_lt (m : Chip) (o v : Nat) : (setCsr m o v).lt = m.lt := rfl
@[simp] theorem setCsr_rows (m : Chip) (o v : Nat) : (setCsr m o v).rows = m.rows := rfl
@[simp] theorem setCsr_mb (m : Chip) (o v : Nat) : (setCsr m o v).mb = m.mb := rfl
@[simp] theorem setCsr_mbOrder (m : Chip) (o v : Nat) : (setCsr m o v).mbOrder = m.mbOrder := rfl
@[simp] theorem setCsr_rings (m : Chip) (o v : Nat) : (setCsr m o v).rings = m.rings := rfl
@[simp] theorem setCsr_err (m : Chip) (o v : Nat) : (setCsr m o v).err = m.err := rfl
@[simp] theorem setCsr_pwr (m : Chip) (o v : Nat) : (setCsr m o v).pwr = m.pwr := rfl
@[simp] theorem setCsr_twin (m : Chip) (o v : Nat) : (setCsr m o v).twin = m.twin := rfl
@[simp] theorem setCsr_start (m : Chip) (o v : Nat) : (setCsr m o v).start = m.start := rfl
@[simp] theorem setCsr_ports (m : Chip) (o v : Nat) : (setCsr m o v).ports = m.ports := rfl
@[simp] theorem setCsr_d2d (m : Chip) (o v : Nat) : (setCsr m o v).d2d = m.d2d := rfl
@[simp] theorem setCsr_host (m : Chip) (o v : Nat) : (setCsr m o v).host = m.host := rfl
@[simp] theorem setCsr_cores (m : Chip) (o v : Nat) : (setCsr m o v).cores = m.cores := rfl
@[simp] theorem setCsr_code (m : Chip) (o v : Nat) : (setCsr m o v).code = m.code := rfl
@[simp] theorem setCsr_launches (m : Chip) (o v : Nat) : (setCsr m o v).launches = m.launches := rfl
@[simp] theorem setCsr_launchId (m : Chip) (o v : Nat) : (setCsr m o v).launchId = m.launchId := rfl
@[simp] theorem setCsr_launchOrder (m : Chip) (o v : Nat) : (setCsr m o v).launchOrder = m.launchOrder := rfl
@[simp] theorem setCsr_placeRing (m : Chip) (o v : Nat) : (setCsr m o v).placeRing = m.placeRing := rfl
@[simp] theorem setCsr_con (m : Chip) (o v : Nat) : (setCsr m o v).con = m.con := rfl
@[simp] theorem setCsr_credits (m : Chip) (o v : Nat) : (setCsr m o v).credits = m.credits := rfl
@[simp] theorem setCsr_refillAt (m : Chip) (o v : Nat) : (setCsr m o v).refillAt = m.refillAt := rfl
@[simp] theorem setCsr_pts (m : Chip) (o v : Nat) : (setCsr m o v).pts = m.pts := rfl

/-! ### fset -/

@[simp] theorem fset_latch (m : Chip) (f : Fld) (v : Nat) : (fset m f v).latch = m.latch := rfl
@[simp] theorem fset_hiHeld (m : Chip) (f : Fld) (v : Nat) : (fset m f v).hiHeld = m.hiHeld := rfl
@[simp] theorem fset_out (m : Chip) (f : Fld) (v : Nat) : (fset m f v).out = m.out := rfl
@[simp] theorem fset_ns (m : Chip) (f : Fld) (v : Nat) : (fset m f v).ns = m.ns := rfl
@[simp] theorem fset_freeCtr (m : Chip) (f : Fld) (v : Nat) : (fset m f v).freeCtr = m.freeCtr := rfl
@[simp] theorem fset_mem (m : Chip) (f : Fld) (v : Nat) : (fset m f v).mem = m.mem := rfl
@[simp] theorem fset_lmeta (m : Chip) (f : Fld) (v : Nat) : (fset m f v).lmeta = m.lmeta := rfl
@[simp] theorem fset_buf (m : Chip) (f : Fld) (v : Nat) : (fset m f v).buf = m.buf := rfl
@[simp] theorem fset_stks (m : Chip) (f : Fld) (v : Nat) : (fset m f v).stks = m.stks := rfl
@[simp] theorem fset_reqs (m : Chip) (f : Fld) (v : Nat) : (fset m f v).reqs = m.reqs := rfl
@[simp] theorem fset_resps (m : Chip) (f : Fld) (v : Nat) : (fset m f v).resps = m.resps := rfl
@[simp] theorem fset_reqId (m : Chip) (f : Fld) (v : Nat) : (fset m f v).reqId = m.reqId := rfl
@[simp] theorem fset_lt (m : Chip) (f : Fld) (v : Nat) : (fset m f v).lt = m.lt := rfl
@[simp] theorem fset_rows (m : Chip) (f : Fld) (v : Nat) : (fset m f v).rows = m.rows := rfl
@[simp] theorem fset_mb (m : Chip) (f : Fld) (v : Nat) : (fset m f v).mb = m.mb := rfl
@[simp] theorem fset_mbOrder (m : Chip) (f : Fld) (v : Nat) : (fset m f v).mbOrder = m.mbOrder := rfl
@[simp] theorem fset_rings (m : Chip) (f : Fld) (v : Nat) : (fset m f v).rings = m.rings := rfl
@[simp] theorem fset_err (m : Chip) (f : Fld) (v : Nat) : (fset m f v).err = m.err := rfl
@[simp] theorem fset_pwr (m : Chip) (f : Fld) (v : Nat) : (fset m f v).pwr = m.pwr := rfl
@[simp] theorem fset_twin (m : Chip) (f : Fld) (v : Nat) : (fset m f v).twin = m.twin := rfl
@[simp] theorem fset_start (m : Chip) (f : Fld) (v : Nat) : (fset m f v).start = m.start := rfl
@[simp] theorem fset_ports (m : Chip) (f : Fld) (v : Nat) : (fset m f v).ports = m.ports := rfl
@[simp] theorem fset_d2d (m : Chip) (f : Fld) (v : Nat) : (fset m f v).d2d = m.d2d := rfl
@[simp] theorem fset_host (m : Chip) (f : Fld) (v : Nat) : (fset m f v).host = m.host := rfl
@[simp] theorem fset_cores (m : Chip) (f : Fld) (v : Nat) : (fset m f v).cores = m.cores := rfl
@[simp] theorem fset_code (m : Chip) (f : Fld) (v : Nat) : (fset m f v).code = m.code := rfl
@[simp] theorem fset_launches (m : Chip) (f : Fld) (v : Nat) : (fset m f v).launches = m.launches := rfl
@[simp] theorem fset_launchId (m : Chip) (f : Fld) (v : Nat) : (fset m f v).launchId = m.launchId := rfl
@[simp] theorem fset_launchOrder (m : Chip) (f : Fld) (v : Nat) : (fset m f v).launchOrder = m.launchOrder := rfl
@[simp] theorem fset_placeRing (m : Chip) (f : Fld) (v : Nat) : (fset m f v).placeRing = m.placeRing := rfl
@[simp] theorem fset_con (m : Chip) (f : Fld) (v : Nat) : (fset m f v).con = m.con := rfl
@[simp] theorem fset_credits (m : Chip) (f : Fld) (v : Nat) : (fset m f v).credits = m.credits := rfl
@[simp] theorem fset_refillAt (m : Chip) (f : Fld) (v : Nat) : (fset m f v).refillAt = m.refillAt := rfl
@[simp] theorem fset_pts (m : Chip) (f : Fld) (v : Nat) : (fset m f v).pts = m.pts := rfl

/-! ### setCtr -/

@[simp] theorem setCtr_latch (m : Chip) (o v : Nat) : (setCtr m o v).latch = m.latch := rfl
@[simp] theorem setCtr_hiHeld (m : Chip) (o v : Nat) : (setCtr m o v).hiHeld = m.hiHeld := rfl
@[simp] theorem setCtr_out (m : Chip) (o v : Nat) : (setCtr m o v).out = m.out := rfl
@[simp] theorem setCtr_ns (m : Chip) (o v : Nat) : (setCtr m o v).ns = m.ns := rfl
@[simp] theorem setCtr_freeCtr (m : Chip) (o v : Nat) : (setCtr m o v).freeCtr = m.freeCtr := rfl
@[simp] theorem setCtr_mem (m : Chip) (o v : Nat) : (setCtr m o v).mem = m.mem := rfl
@[simp] theorem setCtr_lmeta (m : Chip) (o v : Nat) : (setCtr m o v).lmeta = m.lmeta := rfl
@[simp] theorem setCtr_buf (m : Chip) (o v : Nat) : (setCtr m o v).buf = m.buf := rfl
@[simp] theorem setCtr_stks (m : Chip) (o v : Nat) : (setCtr m o v).stks = m.stks := rfl
@[simp] theorem setCtr_reqs (m : Chip) (o v : Nat) : (setCtr m o v).reqs = m.reqs := rfl
@[simp] theorem setCtr_resps (m : Chip) (o v : Nat) : (setCtr m o v).resps = m.resps := rfl
@[simp] theorem setCtr_reqId (m : Chip) (o v : Nat) : (setCtr m o v).reqId = m.reqId := rfl
@[simp] theorem setCtr_lt (m : Chip) (o v : Nat) : (setCtr m o v).lt = m.lt := rfl
@[simp] theorem setCtr_rows (m : Chip) (o v : Nat) : (setCtr m o v).rows = m.rows := rfl
@[simp] theorem setCtr_mb (m : Chip) (o v : Nat) : (setCtr m o v).mb = m.mb := rfl
@[simp] theorem setCtr_mbOrder (m : Chip) (o v : Nat) : (setCtr m o v).mbOrder = m.mbOrder := rfl
@[simp] theorem setCtr_rings (m : Chip) (o v : Nat) : (setCtr m o v).rings = m.rings := rfl
@[simp] theorem setCtr_err (m : Chip) (o v : Nat) : (setCtr m o v).err = m.err := rfl
@[simp] theorem setCtr_pwr (m : Chip) (o v : Nat) : (setCtr m o v).pwr = m.pwr := rfl
@[simp] theorem setCtr_twin (m : Chip) (o v : Nat) : (setCtr m o v).twin = m.twin := rfl
@[simp] theorem setCtr_start (m : Chip) (o v : Nat) : (setCtr m o v).start = m.start := rfl
@[simp] theorem setCtr_ports (m : Chip) (o v : Nat) : (setCtr m o v).ports = m.ports := rfl
@[simp] theorem setCtr_d2d (m : Chip) (o v : Nat) : (setCtr m o v).d2d = m.d2d := rfl
@[simp] theorem setCtr_host (m : Chip) (o v : Nat) : (setCtr m o v).host = m.host := rfl
@[simp] theorem setCtr_cores (m : Chip) (o v : Nat) : (setCtr m o v).cores = m.cores := rfl
@[simp] theorem setCtr_code (m : Chip) (o v : Nat) : (setCtr m o v).code = m.code := rfl
@[simp] theorem setCtr_launches (m : Chip) (o v : Nat) : (setCtr m o v).launches = m.launches := rfl
@[simp] theorem setCtr_launchId (m : Chip) (o v : Nat) : (setCtr m o v).launchId = m.launchId := rfl
@[simp] theorem setCtr_launchOrder (m : Chip) (o v : Nat) : (setCtr m o v).launchOrder = m.launchOrder := rfl
@[simp] theorem setCtr_placeRing (m : Chip) (o v : Nat) : (setCtr m o v).placeRing = m.placeRing := rfl
@[simp] theorem setCtr_con (m : Chip) (o v : Nat) : (setCtr m o v).con = m.con := rfl
@[simp] theorem setCtr_credits (m : Chip) (o v : Nat) : (setCtr m o v).credits = m.credits := rfl
@[simp] theorem setCtr_refillAt (m : Chip) (o v : Nat) : (setCtr m o v).refillAt = m.refillAt := rfl
@[simp] theorem setCtr_pts (m : Chip) (o v : Nat) : (setCtr m o v).pts = m.pts := rfl

/-! ### notice -/

@[simp] theorem notice_csr (m : Chip) (c : Nat) (b : List Nat) : (notice m c b).csr = m.csr := rfl
@[simp] theorem notice_latch (m : Chip) (c : Nat) (b : List Nat) : (notice m c b).latch = m.latch := rfl
@[simp] theorem notice_hiHeld (m : Chip) (c : Nat) (b : List Nat) : (notice m c b).hiHeld = m.hiHeld := rfl
@[simp] theorem notice_out (m : Chip) (c : Nat) (b : List Nat) : (notice m c b).out = m.out := rfl
@[simp] theorem notice_ns (m : Chip) (c : Nat) (b : List Nat) : (notice m c b).ns = m.ns := rfl
@[simp] theorem notice_freeCtr (m : Chip) (c : Nat) (b : List Nat) : (notice m c b).freeCtr = m.freeCtr := rfl
@[simp] theorem notice_mem (m : Chip) (c : Nat) (b : List Nat) : (notice m c b).mem = m.mem := rfl
@[simp] theorem notice_lmeta (m : Chip) (c : Nat) (b : List Nat) : (notice m c b).lmeta = m.lmeta := rfl
@[simp] theorem notice_buf (m : Chip) (c : Nat) (b : List Nat) : (notice m c b).buf = m.buf := rfl
@[simp] theorem notice_stks (m : Chip) (c : Nat) (b : List Nat) : (notice m c b).stks = m.stks := rfl
@[simp] theorem notice_reqs (m : Chip) (c : Nat) (b : List Nat) : (notice m c b).reqs = m.reqs := rfl
@[simp] theorem notice_resps (m : Chip) (c : Nat) (b : List Nat) : (notice m c b).resps = m.resps := rfl
@[simp] theorem notice_reqId (m : Chip) (c : Nat) (b : List Nat) : (notice m c b).reqId = m.reqId := rfl
@[simp] theorem notice_lt (m : Chip) (c : Nat) (b : List Nat) : (notice m c b).lt = m.lt := rfl
@[simp] theorem notice_rows (m : Chip) (c : Nat) (b : List Nat) : (notice m c b).rows = m.rows := rfl
@[simp] theorem notice_mb (m : Chip) (c : Nat) (b : List Nat) : (notice m c b).mb = m.mb := rfl
@[simp] theorem notice_mbOrder (m : Chip) (c : Nat) (b : List Nat) : (notice m c b).mbOrder = m.mbOrder := rfl
@[simp] theorem notice_rings (m : Chip) (c : Nat) (b : List Nat) : (notice m c b).rings = m.rings := rfl
@[simp] theorem notice_pwr (m : Chip) (c : Nat) (b : List Nat) : (notice m c b).pwr = m.pwr := rfl
@[simp] theorem notice_twin (m : Chip) (c : Nat) (b : List Nat) : (notice m c b).twin = m.twin := rfl
@[simp] theorem notice_start (m : Chip) (c : Nat) (b : List Nat) : (notice m c b).start = m.start := rfl
@[simp] theorem notice_ports (m : Chip) (c : Nat) (b : List Nat) : (notice m c b).ports = m.ports := rfl
@[simp] theorem notice_d2d (m : Chip) (c : Nat) (b : List Nat) : (notice m c b).d2d = m.d2d := rfl
@[simp] theorem notice_host (m : Chip) (c : Nat) (b : List Nat) : (notice m c b).host = m.host := rfl
@[simp] theorem notice_cores (m : Chip) (c : Nat) (b : List Nat) : (notice m c b).cores = m.cores := rfl
@[simp] theorem notice_code (m : Chip) (c : Nat) (b : List Nat) : (notice m c b).code = m.code := rfl
@[simp] theorem notice_launches (m : Chip) (c : Nat) (b : List Nat) : (notice m c b).launches = m.launches := rfl
@[simp] theorem notice_launchId (m : Chip) (c : Nat) (b : List Nat) : (notice m c b).launchId = m.launchId := rfl
@[simp] theorem notice_launchOrder (m : Chip) (c : Nat) (b : List Nat) : (notice m c b).launchOrder = m.launchOrder := rfl
@[simp] theorem notice_placeRing (m : Chip) (c : Nat) (b : List Nat) : (notice m c b).placeRing = m.placeRing := rfl
@[simp] theorem notice_con (m : Chip) (c : Nat) (b : List Nat) : (notice m c b).con = m.con := rfl
@[simp] theorem notice_credits (m : Chip) (c : Nat) (b : List Nat) : (notice m c b).credits = m.credits := rfl
@[simp] theorem notice_refillAt (m : Chip) (c : Nat) (b : List Nat) : (notice m c b).refillAt = m.refillAt := rfl
@[simp] theorem notice_pts (m : Chip) (c : Nat) (b : List Nat) : (notice m c b).pts = m.pts := rfl

/-! ### recErr -/

@[simp] theorem recErr_csr (m : Chip) (a b c d : Nat) (o : Owner) (e f g h i : Nat) : (recErr m a b c d o e f g h i).csr = m.csr := rfl
@[simp] theorem recErr_latch (m : Chip) (a b c d : Nat) (o : Owner) (e f g h i : Nat) : (recErr m a b c d o e f g h i).latch = m.latch := rfl
@[simp] theorem recErr_hiHeld (m : Chip) (a b c d : Nat) (o : Owner) (e f g h i : Nat) : (recErr m a b c d o e f g h i).hiHeld = m.hiHeld := rfl
@[simp] theorem recErr_out (m : Chip) (a b c d : Nat) (o : Owner) (e f g h i : Nat) : (recErr m a b c d o e f g h i).out = m.out := rfl
@[simp] theorem recErr_ns (m : Chip) (a b c d : Nat) (o : Owner) (e f g h i : Nat) : (recErr m a b c d o e f g h i).ns = m.ns := rfl
@[simp] theorem recErr_freeCtr (m : Chip) (a b c d : Nat) (o : Owner) (e f g h i : Nat) : (recErr m a b c d o e f g h i).freeCtr = m.freeCtr := rfl
@[simp] theorem recErr_mem (m : Chip) (a b c d : Nat) (o : Owner) (e f g h i : Nat) : (recErr m a b c d o e f g h i).mem = m.mem := rfl
@[simp] theorem recErr_lmeta (m : Chip) (a b c d : Nat) (o : Owner) (e f g h i : Nat) : (recErr m a b c d o e f g h i).lmeta = m.lmeta := rfl
@[simp] theorem recErr_buf (m : Chip) (a b c d : Nat) (o : Owner) (e f g h i : Nat) : (recErr m a b c d o e f g h i).buf = m.buf := rfl
@[simp] theorem recErr_stks (m : Chip) (a b c d : Nat) (o : Owner) (e f g h i : Nat) : (recErr m a b c d o e f g h i).stks = m.stks := rfl
@[simp] theorem recErr_reqs (m : Chip) (a b c d : Nat) (o : Owner) (e f g h i : Nat) : (recErr m a b c d o e f g h i).reqs = m.reqs := rfl
@[simp] theorem recErr_resps (m : Chip) (a b c d : Nat) (o : Owner) (e f g h i : Nat) : (recErr m a b c d o e f g h i).resps = m.resps := rfl
@[simp] theorem recErr_reqId (m : Chip) (a b c d : Nat) (o : Owner) (e f g h i : Nat) : (recErr m a b c d o e f g h i).reqId = m.reqId := rfl
@[simp] theorem recErr_lt (m : Chip) (a b c d : Nat) (o : Owner) (e f g h i : Nat) : (recErr m a b c d o e f g h i).lt = m.lt := rfl
@[simp] theorem recErr_rows (m : Chip) (a b c d : Nat) (o : Owner) (e f g h i : Nat) : (recErr m a b c d o e f g h i).rows = m.rows := rfl
@[simp] theorem recErr_mb (m : Chip) (a b c d : Nat) (o : Owner) (e f g h i : Nat) : (recErr m a b c d o e f g h i).mb = m.mb := rfl
@[simp] theorem recErr_mbOrder (m : Chip) (a b c d : Nat) (o : Owner) (e f g h i : Nat) : (recErr m a b c d o e f g h i).mbOrder = m.mbOrder := rfl
@[simp] theorem recErr_rings (m : Chip) (a b c d : Nat) (o : Owner) (e f g h i : Nat) : (recErr m a b c d o e f g h i).rings = m.rings := rfl
@[simp] theorem recErr_pwr (m : Chip) (a b c d : Nat) (o : Owner) (e f g h i : Nat) : (recErr m a b c d o e f g h i).pwr = m.pwr := rfl
@[simp] theorem recErr_twin (m : Chip) (a b c d : Nat) (o : Owner) (e f g h i : Nat) : (recErr m a b c d o e f g h i).twin = m.twin := rfl
@[simp] theorem recErr_start (m : Chip) (a b c d : Nat) (o : Owner) (e f g h i : Nat) : (recErr m a b c d o e f g h i).start = m.start := rfl
@[simp] theorem recErr_ports (m : Chip) (a b c d : Nat) (o : Owner) (e f g h i : Nat) : (recErr m a b c d o e f g h i).ports = m.ports := rfl
@[simp] theorem recErr_d2d (m : Chip) (a b c d : Nat) (o : Owner) (e f g h i : Nat) : (recErr m a b c d o e f g h i).d2d = m.d2d := rfl
@[simp] theorem recErr_host (m : Chip) (a b c d : Nat) (o : Owner) (e f g h i : Nat) : (recErr m a b c d o e f g h i).host = m.host := rfl
@[simp] theorem recErr_cores (m : Chip) (a b c d : Nat) (o : Owner) (e f g h i : Nat) : (recErr m a b c d o e f g h i).cores = m.cores := rfl
@[simp] theorem recErr_code (m : Chip) (a b c d : Nat) (o : Owner) (e f g h i : Nat) : (recErr m a b c d o e f g h i).code = m.code := rfl
@[simp] theorem recErr_launches (m : Chip) (a b c d : Nat) (o : Owner) (e f g h i : Nat) : (recErr m a b c d o e f g h i).launches = m.launches := rfl
@[simp] theorem recErr_launchId (m : Chip) (a b c d : Nat) (o : Owner) (e f g h i : Nat) : (recErr m a b c d o e f g h i).launchId = m.launchId := rfl
@[simp] theorem recErr_launchOrder (m : Chip) (a b c d : Nat) (o : Owner) (e f g h i : Nat) : (recErr m a b c d o e f g h i).launchOrder = m.launchOrder := rfl
@[simp] theorem recErr_placeRing (m : Chip) (a b c d : Nat) (o : Owner) (e f g h i : Nat) : (recErr m a b c d o e f g h i).placeRing = m.placeRing := rfl
@[simp] theorem recErr_con (m : Chip) (a b c d : Nat) (o : Owner) (e f g h i : Nat) : (recErr m a b c d o e f g h i).con = m.con := rfl
@[simp] theorem recErr_credits (m : Chip) (a b c d : Nat) (o : Owner) (e f g h i : Nat) : (recErr m a b c d o e f g h i).credits = m.credits := rfl
@[simp] theorem recErr_refillAt (m : Chip) (a b c d : Nat) (o : Owner) (e f g h i : Nat) : (recErr m a b c d o e f g h i).refillAt = m.refillAt := rfl
@[simp] theorem recErr_pts (m : Chip) (a b c d : Nat) (o : Owner) (e f g h i : Nat) : (recErr m a b c d o e f g h i).pts = m.pts := rfl

/-! ### ttEvent -/

@[simp] theorem ttEvent_csr (m : Chip) (ws : List Nat) : (ttEvent m ws).csr = m.csr := rfl
@[simp] theorem ttEvent_latch (m : Chip) (ws : List Nat) : (ttEvent m ws).latch = m.latch := rfl
@[simp] theorem ttEvent_hiHeld (m : Chip) (ws : List Nat) : (ttEvent m ws).hiHeld = m.hiHeld := rfl
@[simp] theorem ttEvent_out (m : Chip) (ws : List Nat) : (ttEvent m ws).out = m.out := rfl
@[simp] theorem ttEvent_ns (m : Chip) (ws : List Nat) : (ttEvent m ws).ns = m.ns := rfl
@[simp] theorem ttEvent_freeCtr (m : Chip) (ws : List Nat) : (ttEvent m ws).freeCtr = m.freeCtr := rfl
@[simp] theorem ttEvent_mem (m : Chip) (ws : List Nat) : (ttEvent m ws).mem = m.mem := rfl
@[simp] theorem ttEvent_lmeta (m : Chip) (ws : List Nat) : (ttEvent m ws).lmeta = m.lmeta := rfl
@[simp] theorem ttEvent_buf (m : Chip) (ws : List Nat) : (ttEvent m ws).buf = m.buf := rfl
@[simp] theorem ttEvent_stks (m : Chip) (ws : List Nat) : (ttEvent m ws).stks = m.stks := rfl
@[simp] theorem ttEvent_reqs (m : Chip) (ws : List Nat) : (ttEvent m ws).reqs = m.reqs := rfl
@[simp] theorem ttEvent_resps (m : Chip) (ws : List Nat) : (ttEvent m ws).resps = m.resps := rfl
@[simp] theorem ttEvent_reqId (m : Chip) (ws : List Nat) : (ttEvent m ws).reqId = m.reqId := rfl
@[simp] theorem ttEvent_lt (m : Chip) (ws : List Nat) : (ttEvent m ws).lt = m.lt := rfl
@[simp] theorem ttEvent_rows (m : Chip) (ws : List Nat) : (ttEvent m ws).rows = m.rows := rfl
@[simp] theorem ttEvent_mb (m : Chip) (ws : List Nat) : (ttEvent m ws).mb = m.mb := rfl
@[simp] theorem ttEvent_mbOrder (m : Chip) (ws : List Nat) : (ttEvent m ws).mbOrder = m.mbOrder := rfl
@[simp] theorem ttEvent_rings (m : Chip) (ws : List Nat) : (ttEvent m ws).rings = m.rings := rfl
@[simp] theorem ttEvent_pwr (m : Chip) (ws : List Nat) : (ttEvent m ws).pwr = m.pwr := rfl
@[simp] theorem ttEvent_twin (m : Chip) (ws : List Nat) : (ttEvent m ws).twin = m.twin := rfl
@[simp] theorem ttEvent_start (m : Chip) (ws : List Nat) : (ttEvent m ws).start = m.start := rfl
@[simp] theorem ttEvent_ports (m : Chip) (ws : List Nat) : (ttEvent m ws).ports = m.ports := rfl
@[simp] theorem ttEvent_d2d (m : Chip) (ws : List Nat) : (ttEvent m ws).d2d = m.d2d := rfl
@[simp] theorem ttEvent_host (m : Chip) (ws : List Nat) : (ttEvent m ws).host = m.host := rfl
@[simp] theorem ttEvent_cores (m : Chip) (ws : List Nat) : (ttEvent m ws).cores = m.cores := rfl
@[simp] theorem ttEvent_code (m : Chip) (ws : List Nat) : (ttEvent m ws).code = m.code := rfl
@[simp] theorem ttEvent_launches (m : Chip) (ws : List Nat) : (ttEvent m ws).launches = m.launches := rfl
@[simp] theorem ttEvent_launchId (m : Chip) (ws : List Nat) : (ttEvent m ws).launchId = m.launchId := rfl
@[simp] theorem ttEvent_launchOrder (m : Chip) (ws : List Nat) : (ttEvent m ws).launchOrder = m.launchOrder := rfl
@[simp] theorem ttEvent_placeRing (m : Chip) (ws : List Nat) : (ttEvent m ws).placeRing = m.placeRing := rfl
@[simp] theorem ttEvent_con (m : Chip) (ws : List Nat) : (ttEvent m ws).con = m.con := rfl
@[simp] theorem ttEvent_credits (m : Chip) (ws : List Nat) : (ttEvent m ws).credits = m.credits := rfl
@[simp] theorem ttEvent_refillAt (m : Chip) (ws : List Nat) : (ttEvent m ws).refillAt = m.refillAt := rfl
@[simp] theorem ttEvent_pts (m : Chip) (ws : List Nat) : (ttEvent m ws).pts = m.pts := rfl

/-! ### recMark -/

@[simp] theorem recMark_csr (m : Chip) : (recMark m).csr = m.csr := rfl
@[simp] theorem recMark_latch (m : Chip) : (recMark m).latch = m.latch := rfl
@[simp] theorem recMark_hiHeld (m : Chip) : (recMark m).hiHeld = m.hiHeld := rfl
@[simp] theorem recMark_out (m : Chip) : (recMark m).out = m.out := rfl
@[simp] theorem recMark_ns (m : Chip) : (recMark m).ns = m.ns := rfl
@[simp] theorem recMark_freeCtr (m : Chip) : (recMark m).freeCtr = m.freeCtr := rfl
@[simp] theorem recMark_mem (m : Chip) : (recMark m).mem = m.mem := rfl
@[simp] theorem recMark_lmeta (m : Chip) : (recMark m).lmeta = m.lmeta := rfl
@[simp] theorem recMark_buf (m : Chip) : (recMark m).buf = m.buf := rfl
@[simp] theorem recMark_stks (m : Chip) : (recMark m).stks = m.stks := rfl
@[simp] theorem recMark_reqs (m : Chip) : (recMark m).reqs = m.reqs := rfl
@[simp] theorem recMark_resps (m : Chip) : (recMark m).resps = m.resps := rfl
@[simp] theorem recMark_reqId (m : Chip) : (recMark m).reqId = m.reqId := rfl
@[simp] theorem recMark_lt (m : Chip) : (recMark m).lt = m.lt := rfl
@[simp] theorem recMark_rows (m : Chip) : (recMark m).rows = m.rows := rfl
@[simp] theorem recMark_mb (m : Chip) : (recMark m).mb = m.mb := rfl
@[simp] theorem recMark_mbOrder (m : Chip) : (recMark m).mbOrder = m.mbOrder := rfl
@[simp] theorem recMark_rings (m : Chip) : (recMark m).rings = m.rings := rfl
@[simp] theorem recMark_err (m : Chip) : (recMark m).err = m.err := rfl
@[simp] theorem recMark_pwr (m : Chip) : (recMark m).pwr = m.pwr := rfl
@[simp] theorem recMark_twin (m : Chip) : (recMark m).twin = m.twin := rfl
@[simp] theorem recMark_ports (m : Chip) : (recMark m).ports = m.ports := rfl
@[simp] theorem recMark_d2d (m : Chip) : (recMark m).d2d = m.d2d := rfl
@[simp] theorem recMark_host (m : Chip) : (recMark m).host = m.host := rfl
@[simp] theorem recMark_cores (m : Chip) : (recMark m).cores = m.cores := rfl
@[simp] theorem recMark_code (m : Chip) : (recMark m).code = m.code := rfl
@[simp] theorem recMark_launches (m : Chip) : (recMark m).launches = m.launches := rfl
@[simp] theorem recMark_launchId (m : Chip) : (recMark m).launchId = m.launchId := rfl
@[simp] theorem recMark_launchOrder (m : Chip) : (recMark m).launchOrder = m.launchOrder := rfl
@[simp] theorem recMark_placeRing (m : Chip) : (recMark m).placeRing = m.placeRing := rfl
@[simp] theorem recMark_con (m : Chip) : (recMark m).con = m.con := rfl
@[simp] theorem recMark_credits (m : Chip) : (recMark m).credits = m.credits := rfl
@[simp] theorem recMark_refillAt (m : Chip) : (recMark m).refillAt = m.refillAt := rfl
@[simp] theorem recMark_pts (m : Chip) : (recMark m).pts = m.pts := rfl

/-! ### setRow -/

@[simp] theorem setRow_csr (m : Chip) (k : Nat) (r : Option TtRow) : (setRow m k r).csr = m.csr := rfl
@[simp] theorem setRow_latch (m : Chip) (k : Nat) (r : Option TtRow) : (setRow m k r).latch = m.latch := rfl
@[simp] theorem setRow_hiHeld (m : Chip) (k : Nat) (r : Option TtRow) : (setRow m k r).hiHeld = m.hiHeld := rfl
@[simp] theorem setRow_out (m : Chip) (k : Nat) (r : Option TtRow) : (setRow m k r).out = m.out := rfl
@[simp] theorem setRow_ns (m : Chip) (k : Nat) (r : Option TtRow) : (setRow m k r).ns = m.ns := rfl
@[simp] theorem setRow_freeCtr (m : Chip) (k : Nat) (r : Option TtRow) : (setRow m k r).freeCtr = m.freeCtr := rfl
@[simp] theorem setRow_mem (m : Chip) (k : Nat) (r : Option TtRow) : (setRow m k r).mem = m.mem := rfl
@[simp] theorem setRow_lmeta (m : Chip) (k : Nat) (r : Option TtRow) : (setRow m k r).lmeta = m.lmeta := rfl
@[simp] theorem setRow_buf (m : Chip) (k : Nat) (r : Option TtRow) : (setRow m k r).buf = m.buf := rfl
@[simp] theorem setRow_stks (m : Chip) (k : Nat) (r : Option TtRow) : (setRow m k r).stks = m.stks := rfl
@[simp] theorem setRow_reqs (m : Chip) (k : Nat) (r : Option TtRow) : (setRow m k r).reqs = m.reqs := rfl
@[simp] theorem setRow_resps (m : Chip) (k : Nat) (r : Option TtRow) : (setRow m k r).resps = m.resps := rfl
@[simp] theorem setRow_reqId (m : Chip) (k : Nat) (r : Option TtRow) : (setRow m k r).reqId = m.reqId := rfl
@[simp] theorem setRow_lt (m : Chip) (k : Nat) (r : Option TtRow) : (setRow m k r).lt = m.lt := rfl
@[simp] theorem setRow_mb (m : Chip) (k : Nat) (r : Option TtRow) : (setRow m k r).mb = m.mb := rfl
@[simp] theorem setRow_mbOrder (m : Chip) (k : Nat) (r : Option TtRow) : (setRow m k r).mbOrder = m.mbOrder := rfl
@[simp] theorem setRow_rings (m : Chip) (k : Nat) (r : Option TtRow) : (setRow m k r).rings = m.rings := rfl
@[simp] theorem setRow_err (m : Chip) (k : Nat) (r : Option TtRow) : (setRow m k r).err = m.err := rfl
@[simp] theorem setRow_pwr (m : Chip) (k : Nat) (r : Option TtRow) : (setRow m k r).pwr = m.pwr := rfl
@[simp] theorem setRow_twin (m : Chip) (k : Nat) (r : Option TtRow) : (setRow m k r).twin = m.twin := rfl
@[simp] theorem setRow_start (m : Chip) (k : Nat) (r : Option TtRow) : (setRow m k r).start = m.start := rfl
@[simp] theorem setRow_ports (m : Chip) (k : Nat) (r : Option TtRow) : (setRow m k r).ports = m.ports := rfl
@[simp] theorem setRow_d2d (m : Chip) (k : Nat) (r : Option TtRow) : (setRow m k r).d2d = m.d2d := rfl
@[simp] theorem setRow_host (m : Chip) (k : Nat) (r : Option TtRow) : (setRow m k r).host = m.host := rfl
@[simp] theorem setRow_cores (m : Chip) (k : Nat) (r : Option TtRow) : (setRow m k r).cores = m.cores := rfl
@[simp] theorem setRow_code (m : Chip) (k : Nat) (r : Option TtRow) : (setRow m k r).code = m.code := rfl
@[simp] theorem setRow_launches (m : Chip) (k : Nat) (r : Option TtRow) : (setRow m k r).launches = m.launches := rfl
@[simp] theorem setRow_launchId (m : Chip) (k : Nat) (r : Option TtRow) : (setRow m k r).launchId = m.launchId := rfl
@[simp] theorem setRow_launchOrder (m : Chip) (k : Nat) (r : Option TtRow) : (setRow m k r).launchOrder = m.launchOrder := rfl
@[simp] theorem setRow_placeRing (m : Chip) (k : Nat) (r : Option TtRow) : (setRow m k r).placeRing = m.placeRing := rfl
@[simp] theorem setRow_con (m : Chip) (k : Nat) (r : Option TtRow) : (setRow m k r).con = m.con := rfl
@[simp] theorem setRow_credits (m : Chip) (k : Nat) (r : Option TtRow) : (setRow m k r).credits = m.credits := rfl
@[simp] theorem setRow_refillAt (m : Chip) (k : Nat) (r : Option TtRow) : (setRow m k r).refillAt = m.refillAt := rfl
@[simp] theorem setRow_pts (m : Chip) (k : Nat) (r : Option TtRow) : (setRow m k r).pts = m.pts := rfl

/-! ### modRow -/

@[simp] theorem modRow_csr (m : Chip) (k : Nat) (f : TtRow → TtRow) : (modRow m k f).csr = m.csr := rfl
@[simp] theorem modRow_latch (m : Chip) (k : Nat) (f : TtRow → TtRow) : (modRow m k f).latch = m.latch := rfl
@[simp] theorem modRow_hiHeld (m : Chip) (k : Nat) (f : TtRow → TtRow) : (modRow m k f).hiHeld = m.hiHeld := rfl
@[simp] theorem modRow_out (m : Chip) (k : Nat) (f : TtRow → TtRow) : (modRow m k f).out = m.out := rfl
@[simp] theorem modRow_ns (m : Chip) (k : Nat) (f : TtRow → TtRow) : (modRow m k f).ns = m.ns := rfl
@[simp] theorem modRow_freeCtr (m : Chip) (k : Nat) (f : TtRow → TtRow) : (modRow m k f).freeCtr = m.freeCtr := rfl
@[simp] theorem modRow_mem (m : Chip) (k : Nat) (f : TtRow → TtRow) : (modRow m k f).mem = m.mem := rfl
@[simp] theorem modRow_lmeta (m : Chip) (k : Nat) (f : TtRow → TtRow) : (modRow m k f).lmeta = m.lmeta := rfl
@[simp] theorem modRow_buf (m : Chip) (k : Nat) (f : TtRow → TtRow) : (modRow m k f).buf = m.buf := rfl
@[simp] theorem modRow_stks (m : Chip) (k : Nat) (f : TtRow → TtRow) : (modRow m k f).stks = m.stks := rfl
@[simp] theorem modRow_reqs (m : Chip) (k : Nat) (f : TtRow → TtRow) : (modRow m k f).reqs = m.reqs := rfl
@[simp] theorem modRow_resps (m : Chip) (k : Nat) (f : TtRow → TtRow) : (modRow m k f).resps = m.resps := rfl
@[simp] theorem modRow_reqId (m : Chip) (k : Nat) (f : TtRow → TtRow) : (modRow m k f).reqId = m.reqId := rfl
@[simp] theorem modRow_lt (m : Chip) (k : Nat) (f : TtRow → TtRow) : (modRow m k f).lt = m.lt := rfl
@[simp] theorem modRow_mb (m : Chip) (k : Nat) (f : TtRow → TtRow) : (modRow m k f).mb = m.mb := rfl
@[simp] theorem modRow_mbOrder (m : Chip) (k : Nat) (f : TtRow → TtRow) : (modRow m k f).mbOrder = m.mbOrder := rfl
@[simp] theorem modRow_rings (m : Chip) (k : Nat) (f : TtRow → TtRow) : (modRow m k f).rings = m.rings := rfl
@[simp] theorem modRow_err (m : Chip) (k : Nat) (f : TtRow → TtRow) : (modRow m k f).err = m.err := rfl
@[simp] theorem modRow_pwr (m : Chip) (k : Nat) (f : TtRow → TtRow) : (modRow m k f).pwr = m.pwr := rfl
@[simp] theorem modRow_twin (m : Chip) (k : Nat) (f : TtRow → TtRow) : (modRow m k f).twin = m.twin := rfl
@[simp] theorem modRow_start (m : Chip) (k : Nat) (f : TtRow → TtRow) : (modRow m k f).start = m.start := rfl
@[simp] theorem modRow_ports (m : Chip) (k : Nat) (f : TtRow → TtRow) : (modRow m k f).ports = m.ports := rfl
@[simp] theorem modRow_d2d (m : Chip) (k : Nat) (f : TtRow → TtRow) : (modRow m k f).d2d = m.d2d := rfl
@[simp] theorem modRow_host (m : Chip) (k : Nat) (f : TtRow → TtRow) : (modRow m k f).host = m.host := rfl
@[simp] theorem modRow_cores (m : Chip) (k : Nat) (f : TtRow → TtRow) : (modRow m k f).cores = m.cores := rfl
@[simp] theorem modRow_code (m : Chip) (k : Nat) (f : TtRow → TtRow) : (modRow m k f).code = m.code := rfl
@[simp] theorem modRow_launches (m : Chip) (k : Nat) (f : TtRow → TtRow) : (modRow m k f).launches = m.launches := rfl
@[simp] theorem modRow_launchId (m : Chip) (k : Nat) (f : TtRow → TtRow) : (modRow m k f).launchId = m.launchId := rfl
@[simp] theorem modRow_launchOrder (m : Chip) (k : Nat) (f : TtRow → TtRow) : (modRow m k f).launchOrder = m.launchOrder := rfl
@[simp] theorem modRow_placeRing (m : Chip) (k : Nat) (f : TtRow → TtRow) : (modRow m k f).placeRing = m.placeRing := rfl
@[simp] theorem modRow_con (m : Chip) (k : Nat) (f : TtRow → TtRow) : (modRow m k f).con = m.con := rfl
@[simp] theorem modRow_credits (m : Chip) (k : Nat) (f : TtRow → TtRow) : (modRow m k f).credits = m.credits := rfl
@[simp] theorem modRow_refillAt (m : Chip) (k : Nat) (f : TtRow → TtRow) : (modRow m k f).refillAt = m.refillAt := rfl
@[simp] theorem modRow_pts (m : Chip) (k : Nat) (f : TtRow → TtRow) : (modRow m k f).pts = m.pts := rfl

/-! ### modPort -/

@[simp] theorem modPort_csr (m : Chip) (p : Nat) (f : Port → Port) : (modPort m p f).csr = m.csr := rfl
@[simp] theorem modPort_latch (m : Chip) (p : Nat) (f : Port → Port) : (modPort m p f).latch = m.latch := rfl
@[simp] theorem modPort_hiHeld (m : Chip) (p : Nat) (f : Port → Port) : (modPort m p f).hiHeld = m.hiHeld := rfl
@[simp] theorem modPort_out (m : Chip) (p : Nat) (f : Port → Port) : (modPort m p f).out = m.out := rfl
@[simp] theorem modPort_ns (m : Chip) (p : Nat) (f : Port → Port) : (modPort m p f).ns = m.ns := rfl
@[simp] theorem modPort_freeCtr (m : Chip) (p : Nat) (f : Port → Port) : (modPort m p f).freeCtr = m.freeCtr := rfl
@[simp] theorem modPort_mem (m : Chip) (p : Nat) (f : Port → Port) : (modPort m p f).mem = m.mem := rfl
@[simp] theorem modPort_lmeta (m : Chip) (p : Nat) (f : Port → Port) : (modPort m p f).lmeta = m.lmeta := rfl
@[simp] theorem modPort_buf (m : Chip) (p : Nat) (f : Port → Port) : (modPort m p f).buf = m.buf := rfl
@[simp] theorem modPort_stks (m : Chip) (p : Nat) (f : Port → Port) : (modPort m p f).stks = m.stks := rfl
@[simp] theorem modPort_reqs (m : Chip) (p : Nat) (f : Port → Port) : (modPort m p f).reqs = m.reqs := rfl
@[simp] theorem modPort_resps (m : Chip) (p : Nat) (f : Port → Port) : (modPort m p f).resps = m.resps := rfl
@[simp] theorem modPort_reqId (m : Chip) (p : Nat) (f : Port → Port) : (modPort m p f).reqId = m.reqId := rfl
@[simp] theorem modPort_lt (m : Chip) (p : Nat) (f : Port → Port) : (modPort m p f).lt = m.lt := rfl
@[simp] theorem modPort_rows (m : Chip) (p : Nat) (f : Port → Port) : (modPort m p f).rows = m.rows := rfl
@[simp] theorem modPort_mb (m : Chip) (p : Nat) (f : Port → Port) : (modPort m p f).mb = m.mb := rfl
@[simp] theorem modPort_mbOrder (m : Chip) (p : Nat) (f : Port → Port) : (modPort m p f).mbOrder = m.mbOrder := rfl
@[simp] theorem modPort_rings (m : Chip) (p : Nat) (f : Port → Port) : (modPort m p f).rings = m.rings := rfl
@[simp] theorem modPort_err (m : Chip) (p : Nat) (f : Port → Port) : (modPort m p f).err = m.err := rfl
@[simp] theorem modPort_pwr (m : Chip) (p : Nat) (f : Port → Port) : (modPort m p f).pwr = m.pwr := rfl
@[simp] theorem modPort_twin (m : Chip) (p : Nat) (f : Port → Port) : (modPort m p f).twin = m.twin := rfl
@[simp] theorem modPort_start (m : Chip) (p : Nat) (f : Port → Port) : (modPort m p f).start = m.start := rfl
@[simp] theorem modPort_d2d (m : Chip) (p : Nat) (f : Port → Port) : (modPort m p f).d2d = m.d2d := rfl
@[simp] theorem modPort_host (m : Chip) (p : Nat) (f : Port → Port) : (modPort m p f).host = m.host := rfl
@[simp] theorem modPort_cores (m : Chip) (p : Nat) (f : Port → Port) : (modPort m p f).cores = m.cores := rfl
@[simp] theorem modPort_code (m : Chip) (p : Nat) (f : Port → Port) : (modPort m p f).code = m.code := rfl
@[simp] theorem modPort_launches (m : Chip) (p : Nat) (f : Port → Port) : (modPort m p f).launches = m.launches := rfl
@[simp] theorem modPort_launchId (m : Chip) (p : Nat) (f : Port → Port) : (modPort m p f).launchId = m.launchId := rfl
@[simp] theorem modPort_launchOrder (m : Chip) (p : Nat) (f : Port → Port) : (modPort m p f).launchOrder = m.launchOrder := rfl
@[simp] theorem modPort_placeRing (m : Chip) (p : Nat) (f : Port → Port) : (modPort m p f).placeRing = m.placeRing := rfl
@[simp] theorem modPort_con (m : Chip) (p : Nat) (f : Port → Port) : (modPort m p f).con = m.con := rfl
@[simp] theorem modPort_credits (m : Chip) (p : Nat) (f : Port → Port) : (modPort m p f).credits = m.credits := rfl
@[simp] theorem modPort_refillAt (m : Chip) (p : Nat) (f : Port → Port) : (modPort m p f).refillAt = m.refillAt := rfl
@[simp] theorem modPort_pts (m : Chip) (p : Nat) (f : Port → Port) : (modPort m p f).pts = m.pts := rfl

/-! ### modStack -/

@[simp] theorem modStack_csr (m : Chip) (k : Nat) (f : Stack → Stack) : (modStack m k f).csr = m.csr := rfl
@[simp] theorem modStack_latch (m : Chip) (k : Nat) (f : Stack → Stack) : (modStack m k f).latch = m.latch := rfl
@[simp] theorem modStack_hiHeld (m : Chip) (k : Nat) (f : Stack → Stack) : (modStack m k f).hiHeld = m.hiHeld := rfl
@[simp] theorem modStack_out (m : Chip) (k : Nat) (f : Stack → Stack) : (modStack m k f).out = m.out := rfl
@[simp] theorem modStack_ns (m : Chip) (k : Nat) (f : Stack → Stack) : (modStack m k f).ns = m.ns := rfl
@[simp] theorem modStack_freeCtr (m : Chip) (k : Nat) (f : Stack → Stack) : (modStack m k f).freeCtr = m.freeCtr := rfl
@[simp] theorem modStack_mem (m : Chip) (k : Nat) (f : Stack → Stack) : (modStack m k f).mem = m.mem := rfl
@[simp] theorem modStack_lmeta (m : Chip) (k : Nat) (f : Stack → Stack) : (modStack m k f).lmeta = m.lmeta := rfl
@[simp] theorem modStack_buf (m : Chip) (k : Nat) (f : Stack → Stack) : (modStack m k f).buf = m.buf := rfl
@[simp] theorem modStack_reqs (m : Chip) (k : Nat) (f : Stack → Stack) : (modStack m k f).reqs = m.reqs := rfl
@[simp] theorem modStack_resps (m : Chip) (k : Nat) (f : Stack → Stack) : (modStack m k f).resps = m.resps := rfl
@[simp] theorem modStack_reqId (m : Chip) (k : Nat) (f : Stack → Stack) : (modStack m k f).reqId = m.reqId := rfl
@[simp] theorem modStack_lt (m : Chip) (k : Nat) (f : Stack → Stack) : (modStack m k f).lt = m.lt := rfl
@[simp] theorem modStack_rows (m : Chip) (k : Nat) (f : Stack → Stack) : (modStack m k f).rows = m.rows := rfl
@[simp] theorem modStack_mb (m : Chip) (k : Nat) (f : Stack → Stack) : (modStack m k f).mb = m.mb := rfl
@[simp] theorem modStack_mbOrder (m : Chip) (k : Nat) (f : Stack → Stack) : (modStack m k f).mbOrder = m.mbOrder := rfl
@[simp] theorem modStack_rings (m : Chip) (k : Nat) (f : Stack → Stack) : (modStack m k f).rings = m.rings := rfl
@[simp] theorem modStack_err (m : Chip) (k : Nat) (f : Stack → Stack) : (modStack m k f).err = m.err := rfl
@[simp] theorem modStack_pwr (m : Chip) (k : Nat) (f : Stack → Stack) : (modStack m k f).pwr = m.pwr := rfl
@[simp] theorem modStack_twin (m : Chip) (k : Nat) (f : Stack → Stack) : (modStack m k f).twin = m.twin := rfl
@[simp] theorem modStack_start (m : Chip) (k : Nat) (f : Stack → Stack) : (modStack m k f).start = m.start := rfl
@[simp] theorem modStack_ports (m : Chip) (k : Nat) (f : Stack → Stack) : (modStack m k f).ports = m.ports := rfl
@[simp] theorem modStack_d2d (m : Chip) (k : Nat) (f : Stack → Stack) : (modStack m k f).d2d = m.d2d := rfl
@[simp] theorem modStack_host (m : Chip) (k : Nat) (f : Stack → Stack) : (modStack m k f).host = m.host := rfl
@[simp] theorem modStack_cores (m : Chip) (k : Nat) (f : Stack → Stack) : (modStack m k f).cores = m.cores := rfl
@[simp] theorem modStack_code (m : Chip) (k : Nat) (f : Stack → Stack) : (modStack m k f).code = m.code := rfl
@[simp] theorem modStack_launches (m : Chip) (k : Nat) (f : Stack → Stack) : (modStack m k f).launches = m.launches := rfl
@[simp] theorem modStack_launchId (m : Chip) (k : Nat) (f : Stack → Stack) : (modStack m k f).launchId = m.launchId := rfl
@[simp] theorem modStack_launchOrder (m : Chip) (k : Nat) (f : Stack → Stack) : (modStack m k f).launchOrder = m.launchOrder := rfl
@[simp] theorem modStack_placeRing (m : Chip) (k : Nat) (f : Stack → Stack) : (modStack m k f).placeRing = m.placeRing := rfl
@[simp] theorem modStack_con (m : Chip) (k : Nat) (f : Stack → Stack) : (modStack m k f).con = m.con := rfl
@[simp] theorem modStack_credits (m : Chip) (k : Nat) (f : Stack → Stack) : (modStack m k f).credits = m.credits := rfl
@[simp] theorem modStack_refillAt (m : Chip) (k : Nat) (f : Stack → Stack) : (modStack m k f).refillAt = m.refillAt := rfl
@[simp] theorem modStack_pts (m : Chip) (k : Nat) (f : Stack → Stack) : (modStack m k f).pts = m.pts := rfl

/-! ### modUnit -/

@[simp] theorem modUnit_csr (m : Chip) (u : Nat) (f : D2dUnit → D2dUnit) : (modUnit m u f).csr = m.csr := rfl
@[simp] theorem modUnit_latch (m : Chip) (u : Nat) (f : D2dUnit → D2dUnit) : (modUnit m u f).latch = m.latch := rfl
@[simp] theorem modUnit_hiHeld (m : Chip) (u : Nat) (f : D2dUnit → D2dUnit) : (modUnit m u f).hiHeld = m.hiHeld := rfl
@[simp] theorem modUnit_out (m : Chip) (u : Nat) (f : D2dUnit → D2dUnit) : (modUnit m u f).out = m.out := rfl
@[simp] theorem modUnit_ns (m : Chip) (u : Nat) (f : D2dUnit → D2dUnit) : (modUnit m u f).ns = m.ns := rfl
@[simp] theorem modUnit_freeCtr (m : Chip) (u : Nat) (f : D2dUnit → D2dUnit) : (modUnit m u f).freeCtr = m.freeCtr := rfl
@[simp] theorem modUnit_mem (m : Chip) (u : Nat) (f : D2dUnit → D2dUnit) : (modUnit m u f).mem = m.mem := rfl
@[simp] theorem modUnit_lmeta (m : Chip) (u : Nat) (f : D2dUnit → D2dUnit) : (modUnit m u f).lmeta = m.lmeta := rfl
@[simp] theorem modUnit_buf (m : Chip) (u : Nat) (f : D2dUnit → D2dUnit) : (modUnit m u f).buf = m.buf := rfl
@[simp] theorem modUnit_stks (m : Chip) (u : Nat) (f : D2dUnit → D2dUnit) : (modUnit m u f).stks = m.stks := rfl
@[simp] theorem modUnit_reqs (m : Chip) (u : Nat) (f : D2dUnit → D2dUnit) : (modUnit m u f).reqs = m.reqs := rfl
@[simp] theorem modUnit_resps (m : Chip) (u : Nat) (f : D2dUnit → D2dUnit) : (modUnit m u f).resps = m.resps := rfl
@[simp] theorem modUnit_reqId (m : Chip) (u : Nat) (f : D2dUnit → D2dUnit) : (modUnit m u f).reqId = m.reqId := rfl
@[simp] theorem modUnit_lt (m : Chip) (u : Nat) (f : D2dUnit → D2dUnit) : (modUnit m u f).lt = m.lt := rfl
@[simp] theorem modUnit_rows (m : Chip) (u : Nat) (f : D2dUnit → D2dUnit) : (modUnit m u f).rows = m.rows := rfl
@[simp] theorem modUnit_mb (m : Chip) (u : Nat) (f : D2dUnit → D2dUnit) : (modUnit m u f).mb = m.mb := rfl
@[simp] theorem modUnit_mbOrder (m : Chip) (u : Nat) (f : D2dUnit → D2dUnit) : (modUnit m u f).mbOrder = m.mbOrder := rfl
@[simp] theorem modUnit_rings (m : Chip) (u : Nat) (f : D2dUnit → D2dUnit) : (modUnit m u f).rings = m.rings := rfl
@[simp] theorem modUnit_err (m : Chip) (u : Nat) (f : D2dUnit → D2dUnit) : (modUnit m u f).err = m.err := rfl
@[simp] theorem modUnit_pwr (m : Chip) (u : Nat) (f : D2dUnit → D2dUnit) : (modUnit m u f).pwr = m.pwr := rfl
@[simp] theorem modUnit_twin (m : Chip) (u : Nat) (f : D2dUnit → D2dUnit) : (modUnit m u f).twin = m.twin := rfl
@[simp] theorem modUnit_start (m : Chip) (u : Nat) (f : D2dUnit → D2dUnit) : (modUnit m u f).start = m.start := rfl
@[simp] theorem modUnit_ports (m : Chip) (u : Nat) (f : D2dUnit → D2dUnit) : (modUnit m u f).ports = m.ports := rfl
@[simp] theorem modUnit_host (m : Chip) (u : Nat) (f : D2dUnit → D2dUnit) : (modUnit m u f).host = m.host := rfl
@[simp] theorem modUnit_cores (m : Chip) (u : Nat) (f : D2dUnit → D2dUnit) : (modUnit m u f).cores = m.cores := rfl
@[simp] theorem modUnit_code (m : Chip) (u : Nat) (f : D2dUnit → D2dUnit) : (modUnit m u f).code = m.code := rfl
@[simp] theorem modUnit_launches (m : Chip) (u : Nat) (f : D2dUnit → D2dUnit) : (modUnit m u f).launches = m.launches := rfl
@[simp] theorem modUnit_launchId (m : Chip) (u : Nat) (f : D2dUnit → D2dUnit) : (modUnit m u f).launchId = m.launchId := rfl
@[simp] theorem modUnit_launchOrder (m : Chip) (u : Nat) (f : D2dUnit → D2dUnit) : (modUnit m u f).launchOrder = m.launchOrder := rfl
@[simp] theorem modUnit_placeRing (m : Chip) (u : Nat) (f : D2dUnit → D2dUnit) : (modUnit m u f).placeRing = m.placeRing := rfl
@[simp] theorem modUnit_con (m : Chip) (u : Nat) (f : D2dUnit → D2dUnit) : (modUnit m u f).con = m.con := rfl
@[simp] theorem modUnit_credits (m : Chip) (u : Nat) (f : D2dUnit → D2dUnit) : (modUnit m u f).credits = m.credits := rfl
@[simp] theorem modUnit_refillAt (m : Chip) (u : Nat) (f : D2dUnit → D2dUnit) : (modUnit m u f).refillAt = m.refillAt := rfl
@[simp] theorem modUnit_pts (m : Chip) (u : Nat) (f : D2dUnit → D2dUnit) : (modUnit m u f).pts = m.pts := rfl

/-! ### modTwin -/

@[simp] theorem modTwin_csr (m : Chip) (f : TwinState → TwinState) : (modTwin m f).csr = m.csr := rfl
@[simp] theorem modTwin_latch (m : Chip) (f : TwinState → TwinState) : (modTwin m f).latch = m.latch := rfl
@[simp] theorem modTwin_hiHeld (m : Chip) (f : TwinState → TwinState) : (modTwin m f).hiHeld = m.hiHeld := rfl
@[simp] theorem modTwin_out (m : Chip) (f : TwinState → TwinState) : (modTwin m f).out = m.out := rfl
@[simp] theorem modTwin_ns (m : Chip) (f : TwinState → TwinState) : (modTwin m f).ns = m.ns := rfl
@[simp] theorem modTwin_freeCtr (m : Chip) (f : TwinState → TwinState) : (modTwin m f).freeCtr = m.freeCtr := rfl
@[simp] theorem modTwin_mem (m : Chip) (f : TwinState → TwinState) : (modTwin m f).mem = m.mem := rfl
@[simp] theorem modTwin_lmeta (m : Chip) (f : TwinState → TwinState) : (modTwin m f).lmeta = m.lmeta := rfl
@[simp] theorem modTwin_buf (m : Chip) (f : TwinState → TwinState) : (modTwin m f).buf = m.buf := rfl
@[simp] theorem modTwin_stks (m : Chip) (f : TwinState → TwinState) : (modTwin m f).stks = m.stks := rfl
@[simp] theorem modTwin_reqs (m : Chip) (f : TwinState → TwinState) : (modTwin m f).reqs = m.reqs := rfl
@[simp] theorem modTwin_resps (m : Chip) (f : TwinState → TwinState) : (modTwin m f).resps = m.resps := rfl
@[simp] theorem modTwin_reqId (m : Chip) (f : TwinState → TwinState) : (modTwin m f).reqId = m.reqId := rfl
@[simp] theorem modTwin_lt (m : Chip) (f : TwinState → TwinState) : (modTwin m f).lt = m.lt := rfl
@[simp] theorem modTwin_rows (m : Chip) (f : TwinState → TwinState) : (modTwin m f).rows = m.rows := rfl
@[simp] theorem modTwin_mb (m : Chip) (f : TwinState → TwinState) : (modTwin m f).mb = m.mb := rfl
@[simp] theorem modTwin_mbOrder (m : Chip) (f : TwinState → TwinState) : (modTwin m f).mbOrder = m.mbOrder := rfl
@[simp] theorem modTwin_rings (m : Chip) (f : TwinState → TwinState) : (modTwin m f).rings = m.rings := rfl
@[simp] theorem modTwin_err (m : Chip) (f : TwinState → TwinState) : (modTwin m f).err = m.err := rfl
@[simp] theorem modTwin_pwr (m : Chip) (f : TwinState → TwinState) : (modTwin m f).pwr = m.pwr := rfl
@[simp] theorem modTwin_start (m : Chip) (f : TwinState → TwinState) : (modTwin m f).start = m.start := rfl
@[simp] theorem modTwin_ports (m : Chip) (f : TwinState → TwinState) : (modTwin m f).ports = m.ports := rfl
@[simp] theorem modTwin_d2d (m : Chip) (f : TwinState → TwinState) : (modTwin m f).d2d = m.d2d := rfl
@[simp] theorem modTwin_host (m : Chip) (f : TwinState → TwinState) : (modTwin m f).host = m.host := rfl
@[simp] theorem modTwin_cores (m : Chip) (f : TwinState → TwinState) : (modTwin m f).cores = m.cores := rfl
@[simp] theorem modTwin_code (m : Chip) (f : TwinState → TwinState) : (modTwin m f).code = m.code := rfl
@[simp] theorem modTwin_launches (m : Chip) (f : TwinState → TwinState) : (modTwin m f).launches = m.launches := rfl
@[simp] theorem modTwin_launchId (m : Chip) (f : TwinState → TwinState) : (modTwin m f).launchId = m.launchId := rfl
@[simp] theorem modTwin_launchOrder (m : Chip) (f : TwinState → TwinState) : (modTwin m f).launchOrder = m.launchOrder := rfl
@[simp] theorem modTwin_placeRing (m : Chip) (f : TwinState → TwinState) : (modTwin m f).placeRing = m.placeRing := rfl
@[simp] theorem modTwin_con (m : Chip) (f : TwinState → TwinState) : (modTwin m f).con = m.con := rfl
@[simp] theorem modTwin_credits (m : Chip) (f : TwinState → TwinState) : (modTwin m f).credits = m.credits := rfl
@[simp] theorem modTwin_refillAt (m : Chip) (f : TwinState → TwinState) : (modTwin m f).refillAt = m.refillAt := rfl
@[simp] theorem modTwin_pts (m : Chip) (f : TwinState → TwinState) : (modTwin m f).pts = m.pts := rfl

/-! ### modHost -/

@[simp] theorem modHost_csr (m : Chip) (f : HostState → HostState) : (modHost m f).csr = m.csr := rfl
@[simp] theorem modHost_latch (m : Chip) (f : HostState → HostState) : (modHost m f).latch = m.latch := rfl
@[simp] theorem modHost_hiHeld (m : Chip) (f : HostState → HostState) : (modHost m f).hiHeld = m.hiHeld := rfl
@[simp] theorem modHost_out (m : Chip) (f : HostState → HostState) : (modHost m f).out = m.out := rfl
@[simp] theorem modHost_ns (m : Chip) (f : HostState → HostState) : (modHost m f).ns = m.ns := rfl
@[simp] theorem modHost_freeCtr (m : Chip) (f : HostState → HostState) : (modHost m f).freeCtr = m.freeCtr := rfl
@[simp] theorem modHost_mem (m : Chip) (f : HostState → HostState) : (modHost m f).mem = m.mem := rfl
@[simp] theorem modHost_lmeta (m : Chip) (f : HostState → HostState) : (modHost m f).lmeta = m.lmeta := rfl
@[simp] theorem modHost_buf (m : Chip) (f : HostState → HostState) : (modHost m f).buf = m.buf := rfl
@[simp] theorem modHost_stks (m : Chip) (f : HostState → HostState) : (modHost m f).stks = m.stks := rfl
@[simp] theorem modHost_reqs (m : Chip) (f : HostState → HostState) : (modHost m f).reqs = m.reqs := rfl
@[simp] theorem modHost_resps (m : Chip) (f : HostState → HostState) : (modHost m f).resps = m.resps := rfl
@[simp] theorem modHost_reqId (m : Chip) (f : HostState → HostState) : (modHost m f).reqId = m.reqId := rfl
@[simp] theorem modHost_lt (m : Chip) (f : HostState → HostState) : (modHost m f).lt = m.lt := rfl
@[simp] theorem modHost_rows (m : Chip) (f : HostState → HostState) : (modHost m f).rows = m.rows := rfl
@[simp] theorem modHost_mb (m : Chip) (f : HostState → HostState) : (modHost m f).mb = m.mb := rfl
@[simp] theorem modHost_mbOrder (m : Chip) (f : HostState → HostState) : (modHost m f).mbOrder = m.mbOrder := rfl
@[simp] theorem modHost_rings (m : Chip) (f : HostState → HostState) : (modHost m f).rings = m.rings := rfl
@[simp] theorem modHost_err (m : Chip) (f : HostState → HostState) : (modHost m f).err = m.err := rfl
@[simp] theorem modHost_pwr (m : Chip) (f : HostState → HostState) : (modHost m f).pwr = m.pwr := rfl
@[simp] theorem modHost_twin (m : Chip) (f : HostState → HostState) : (modHost m f).twin = m.twin := rfl
@[simp] theorem modHost_start (m : Chip) (f : HostState → HostState) : (modHost m f).start = m.start := rfl
@[simp] theorem modHost_ports (m : Chip) (f : HostState → HostState) : (modHost m f).ports = m.ports := rfl
@[simp] theorem modHost_d2d (m : Chip) (f : HostState → HostState) : (modHost m f).d2d = m.d2d := rfl
@[simp] theorem modHost_cores (m : Chip) (f : HostState → HostState) : (modHost m f).cores = m.cores := rfl
@[simp] theorem modHost_code (m : Chip) (f : HostState → HostState) : (modHost m f).code = m.code := rfl
@[simp] theorem modHost_launches (m : Chip) (f : HostState → HostState) : (modHost m f).launches = m.launches := rfl
@[simp] theorem modHost_launchId (m : Chip) (f : HostState → HostState) : (modHost m f).launchId = m.launchId := rfl
@[simp] theorem modHost_launchOrder (m : Chip) (f : HostState → HostState) : (modHost m f).launchOrder = m.launchOrder := rfl
@[simp] theorem modHost_placeRing (m : Chip) (f : HostState → HostState) : (modHost m f).placeRing = m.placeRing := rfl
@[simp] theorem modHost_con (m : Chip) (f : HostState → HostState) : (modHost m f).con = m.con := rfl
@[simp] theorem modHost_credits (m : Chip) (f : HostState → HostState) : (modHost m f).credits = m.credits := rfl
@[simp] theorem modHost_refillAt (m : Chip) (f : HostState → HostState) : (modHost m f).refillAt = m.refillAt := rfl
@[simp] theorem modHost_pts (m : Chip) (f : HostState → HostState) : (modHost m f).pts = m.pts := rfl

/-! ### modCon -/

@[simp] theorem modCon_csr (m : Chip) (d : Nat) (f : ConDie → ConDie) : (modCon m d f).csr = m.csr := rfl
@[simp] theorem modCon_latch (m : Chip) (d : Nat) (f : ConDie → ConDie) : (modCon m d f).latch = m.latch := rfl
@[simp] theorem modCon_hiHeld (m : Chip) (d : Nat) (f : ConDie → ConDie) : (modCon m d f).hiHeld = m.hiHeld := rfl
@[simp] theorem modCon_out (m : Chip) (d : Nat) (f : ConDie → ConDie) : (modCon m d f).out = m.out := rfl
@[simp] theorem modCon_ns (m : Chip) (d : Nat) (f : ConDie → ConDie) : (modCon m d f).ns = m.ns := rfl
@[simp] theorem modCon_freeCtr (m : Chip) (d : Nat) (f : ConDie → ConDie) : (modCon m d f).freeCtr = m.freeCtr := rfl
@[simp] theorem modCon_mem (m : Chip) (d : Nat) (f : ConDie → ConDie) : (modCon m d f).mem = m.mem := rfl
@[simp] theorem modCon_lmeta (m : Chip) (d : Nat) (f : ConDie → ConDie) : (modCon m d f).lmeta = m.lmeta := rfl
@[simp] theorem modCon_buf (m : Chip) (d : Nat) (f : ConDie → ConDie) : (modCon m d f).buf = m.buf := rfl
@[simp] theorem modCon_stks (m : Chip) (d : Nat) (f : ConDie → ConDie) : (modCon m d f).stks = m.stks := rfl
@[simp] theorem modCon_reqs (m : Chip) (d : Nat) (f : ConDie → ConDie) : (modCon m d f).reqs = m.reqs := rfl
@[simp] theorem modCon_resps (m : Chip) (d : Nat) (f : ConDie → ConDie) : (modCon m d f).resps = m.resps := rfl
@[simp] theorem modCon_reqId (m : Chip) (d : Nat) (f : ConDie → ConDie) : (modCon m d f).reqId = m.reqId := rfl
@[simp] theorem modCon_lt (m : Chip) (d : Nat) (f : ConDie → ConDie) : (modCon m d f).lt = m.lt := rfl
@[simp] theorem modCon_rows (m : Chip) (d : Nat) (f : ConDie → ConDie) : (modCon m d f).rows = m.rows := rfl
@[simp] theorem modCon_mb (m : Chip) (d : Nat) (f : ConDie → ConDie) : (modCon m d f).mb = m.mb := rfl
@[simp] theorem modCon_mbOrder (m : Chip) (d : Nat) (f : ConDie → ConDie) : (modCon m d f).mbOrder = m.mbOrder := rfl
@[simp] theorem modCon_rings (m : Chip) (d : Nat) (f : ConDie → ConDie) : (modCon m d f).rings = m.rings := rfl
@[simp] theorem modCon_err (m : Chip) (d : Nat) (f : ConDie → ConDie) : (modCon m d f).err = m.err := rfl
@[simp] theorem modCon_pwr (m : Chip) (d : Nat) (f : ConDie → ConDie) : (modCon m d f).pwr = m.pwr := rfl
@[simp] theorem modCon_twin (m : Chip) (d : Nat) (f : ConDie → ConDie) : (modCon m d f).twin = m.twin := rfl
@[simp] theorem modCon_start (m : Chip) (d : Nat) (f : ConDie → ConDie) : (modCon m d f).start = m.start := rfl
@[simp] theorem modCon_ports (m : Chip) (d : Nat) (f : ConDie → ConDie) : (modCon m d f).ports = m.ports := rfl
@[simp] theorem modCon_d2d (m : Chip) (d : Nat) (f : ConDie → ConDie) : (modCon m d f).d2d = m.d2d := rfl
@[simp] theorem modCon_host (m : Chip) (d : Nat) (f : ConDie → ConDie) : (modCon m d f).host = m.host := rfl
@[simp] theorem modCon_cores (m : Chip) (d : Nat) (f : ConDie → ConDie) : (modCon m d f).cores = m.cores := rfl
@[simp] theorem modCon_code (m : Chip) (d : Nat) (f : ConDie → ConDie) : (modCon m d f).code = m.code := rfl
@[simp] theorem modCon_launches (m : Chip) (d : Nat) (f : ConDie → ConDie) : (modCon m d f).launches = m.launches := rfl
@[simp] theorem modCon_launchId (m : Chip) (d : Nat) (f : ConDie → ConDie) : (modCon m d f).launchId = m.launchId := rfl
@[simp] theorem modCon_launchOrder (m : Chip) (d : Nat) (f : ConDie → ConDie) : (modCon m d f).launchOrder = m.launchOrder := rfl
@[simp] theorem modCon_placeRing (m : Chip) (d : Nat) (f : ConDie → ConDie) : (modCon m d f).placeRing = m.placeRing := rfl
@[simp] theorem modCon_credits (m : Chip) (d : Nat) (f : ConDie → ConDie) : (modCon m d f).credits = m.credits := rfl
@[simp] theorem modCon_refillAt (m : Chip) (d : Nat) (f : ConDie → ConDie) : (modCon m d f).refillAt = m.refillAt := rfl
@[simp] theorem modCon_pts (m : Chip) (d : Nat) (f : ConDie → ConDie) : (modCon m d f).pts = m.pts := rfl

/-! ### setRing -/

@[simp] theorem setRing_csr (m : Chip) (n : Nat) (r : Option Ring) : (setRing m n r).csr = m.csr := rfl
@[simp] theorem setRing_latch (m : Chip) (n : Nat) (r : Option Ring) : (setRing m n r).latch = m.latch := rfl
@[simp] theorem setRing_hiHeld (m : Chip) (n : Nat) (r : Option Ring) : (setRing m n r).hiHeld = m.hiHeld := rfl
@[simp] theorem setRing_out (m : Chip) (n : Nat) (r : Option Ring) : (setRing m n r).out = m.out := rfl
@[simp] theorem setRing_ns (m : Chip) (n : Nat) (r : Option Ring) : (setRing m n r).ns = m.ns := rfl
@[simp] theorem setRing_freeCtr (m : Chip) (n : Nat) (r : Option Ring) : (setRing m n r).freeCtr = m.freeCtr := rfl
@[simp] theorem setRing_mem (m : Chip) (n : Nat) (r : Option Ring) : (setRing m n r).mem = m.mem := rfl
@[simp] theorem setRing_lmeta (m : Chip) (n : Nat) (r : Option Ring) : (setRing m n r).lmeta = m.lmeta := rfl
@[simp] theorem setRing_buf (m : Chip) (n : Nat) (r : Option Ring) : (setRing m n r).buf = m.buf := rfl
@[simp] theorem setRing_stks (m : Chip) (n : Nat) (r : Option Ring) : (setRing m n r).stks = m.stks := rfl
@[simp] theorem setRing_reqs (m : Chip) (n : Nat) (r : Option Ring) : (setRing m n r).reqs = m.reqs := rfl
@[simp] theorem setRing_resps (m : Chip) (n : Nat) (r : Option Ring) : (setRing m n r).resps = m.resps := rfl
@[simp] theorem setRing_reqId (m : Chip) (n : Nat) (r : Option Ring) : (setRing m n r).reqId = m.reqId := rfl
@[simp] theorem setRing_lt (m : Chip) (n : Nat) (r : Option Ring) : (setRing m n r).lt = m.lt := rfl
@[simp] theorem setRing_rows (m : Chip) (n : Nat) (r : Option Ring) : (setRing m n r).rows = m.rows := rfl
@[simp] theorem setRing_mb (m : Chip) (n : Nat) (r : Option Ring) : (setRing m n r).mb = m.mb := rfl
@[simp] theorem setRing_mbOrder (m : Chip) (n : Nat) (r : Option Ring) : (setRing m n r).mbOrder = m.mbOrder := rfl
@[simp] theorem setRing_err (m : Chip) (n : Nat) (r : Option Ring) : (setRing m n r).err = m.err := rfl
@[simp] theorem setRing_pwr (m : Chip) (n : Nat) (r : Option Ring) : (setRing m n r).pwr = m.pwr := rfl
@[simp] theorem setRing_twin (m : Chip) (n : Nat) (r : Option Ring) : (setRing m n r).twin = m.twin := rfl
@[simp] theorem setRing_start (m : Chip) (n : Nat) (r : Option Ring) : (setRing m n r).start = m.start := rfl
@[simp] theorem setRing_ports (m : Chip) (n : Nat) (r : Option Ring) : (setRing m n r).ports = m.ports := rfl
@[simp] theorem setRing_d2d (m : Chip) (n : Nat) (r : Option Ring) : (setRing m n r).d2d = m.d2d := rfl
@[simp] theorem setRing_host (m : Chip) (n : Nat) (r : Option Ring) : (setRing m n r).host = m.host := rfl
@[simp] theorem setRing_cores (m : Chip) (n : Nat) (r : Option Ring) : (setRing m n r).cores = m.cores := rfl
@[simp] theorem setRing_code (m : Chip) (n : Nat) (r : Option Ring) : (setRing m n r).code = m.code := rfl
@[simp] theorem setRing_launches (m : Chip) (n : Nat) (r : Option Ring) : (setRing m n r).launches = m.launches := rfl
@[simp] theorem setRing_launchId (m : Chip) (n : Nat) (r : Option Ring) : (setRing m n r).launchId = m.launchId := rfl
@[simp] theorem setRing_launchOrder (m : Chip) (n : Nat) (r : Option Ring) : (setRing m n r).launchOrder = m.launchOrder := rfl
@[simp] theorem setRing_placeRing (m : Chip) (n : Nat) (r : Option Ring) : (setRing m n r).placeRing = m.placeRing := rfl
@[simp] theorem setRing_con (m : Chip) (n : Nat) (r : Option Ring) : (setRing m n r).con = m.con := rfl
@[simp] theorem setRing_credits (m : Chip) (n : Nat) (r : Option Ring) : (setRing m n r).credits = m.credits := rfl
@[simp] theorem setRing_refillAt (m : Chip) (n : Nat) (r : Option Ring) : (setRing m n r).refillAt = m.refillAt := rfl
@[simp] theorem setRing_pts (m : Chip) (n : Nat) (r : Option Ring) : (setRing m n r).pts = m.pts := rfl

/-! ### setLaunch -/

@[simp] theorem setLaunch_csr (m : Chip) (l : Nat) (x : Option Launch) : (setLaunch m l x).csr = m.csr := rfl
@[simp] theorem setLaunch_latch (m : Chip) (l : Nat) (x : Option Launch) : (setLaunch m l x).latch = m.latch := rfl
@[simp] theorem setLaunch_hiHeld (m : Chip) (l : Nat) (x : Option Launch) : (setLaunch m l x).hiHeld = m.hiHeld := rfl
@[simp] theorem setLaunch_out (m : Chip) (l : Nat) (x : Option Launch) : (setLaunch m l x).out = m.out := rfl
@[simp] theorem setLaunch_ns (m : Chip) (l : Nat) (x : Option Launch) : (setLaunch m l x).ns = m.ns := rfl
@[simp] theorem setLaunch_freeCtr (m : Chip) (l : Nat) (x : Option Launch) : (setLaunch m l x).freeCtr = m.freeCtr := rfl
@[simp] theorem setLaunch_mem (m : Chip) (l : Nat) (x : Option Launch) : (setLaunch m l x).mem = m.mem := rfl
@[simp] theorem setLaunch_lmeta (m : Chip) (l : Nat) (x : Option Launch) : (setLaunch m l x).lmeta = m.lmeta := rfl
@[simp] theorem setLaunch_buf (m : Chip) (l : Nat) (x : Option Launch) : (setLaunch m l x).buf = m.buf := rfl
@[simp] theorem setLaunch_stks (m : Chip) (l : Nat) (x : Option Launch) : (setLaunch m l x).stks = m.stks := rfl
@[simp] theorem setLaunch_reqs (m : Chip) (l : Nat) (x : Option Launch) : (setLaunch m l x).reqs = m.reqs := rfl
@[simp] theorem setLaunch_resps (m : Chip) (l : Nat) (x : Option Launch) : (setLaunch m l x).resps = m.resps := rfl
@[simp] theorem setLaunch_reqId (m : Chip) (l : Nat) (x : Option Launch) : (setLaunch m l x).reqId = m.reqId := rfl
@[simp] theorem setLaunch_lt (m : Chip) (l : Nat) (x : Option Launch) : (setLaunch m l x).lt = m.lt := rfl
@[simp] theorem setLaunch_rows (m : Chip) (l : Nat) (x : Option Launch) : (setLaunch m l x).rows = m.rows := rfl
@[simp] theorem setLaunch_mb (m : Chip) (l : Nat) (x : Option Launch) : (setLaunch m l x).mb = m.mb := rfl
@[simp] theorem setLaunch_mbOrder (m : Chip) (l : Nat) (x : Option Launch) : (setLaunch m l x).mbOrder = m.mbOrder := rfl
@[simp] theorem setLaunch_rings (m : Chip) (l : Nat) (x : Option Launch) : (setLaunch m l x).rings = m.rings := rfl
@[simp] theorem setLaunch_err (m : Chip) (l : Nat) (x : Option Launch) : (setLaunch m l x).err = m.err := rfl
@[simp] theorem setLaunch_pwr (m : Chip) (l : Nat) (x : Option Launch) : (setLaunch m l x).pwr = m.pwr := rfl
@[simp] theorem setLaunch_twin (m : Chip) (l : Nat) (x : Option Launch) : (setLaunch m l x).twin = m.twin := rfl
@[simp] theorem setLaunch_start (m : Chip) (l : Nat) (x : Option Launch) : (setLaunch m l x).start = m.start := rfl
@[simp] theorem setLaunch_ports (m : Chip) (l : Nat) (x : Option Launch) : (setLaunch m l x).ports = m.ports := rfl
@[simp] theorem setLaunch_d2d (m : Chip) (l : Nat) (x : Option Launch) : (setLaunch m l x).d2d = m.d2d := rfl
@[simp] theorem setLaunch_host (m : Chip) (l : Nat) (x : Option Launch) : (setLaunch m l x).host = m.host := rfl
@[simp] theorem setLaunch_cores (m : Chip) (l : Nat) (x : Option Launch) : (setLaunch m l x).cores = m.cores := rfl
@[simp] theorem setLaunch_code (m : Chip) (l : Nat) (x : Option Launch) : (setLaunch m l x).code = m.code := rfl
@[simp] theorem setLaunch_launchId (m : Chip) (l : Nat) (x : Option Launch) : (setLaunch m l x).launchId = m.launchId := rfl
@[simp] theorem setLaunch_launchOrder (m : Chip) (l : Nat) (x : Option Launch) : (setLaunch m l x).launchOrder = m.launchOrder := rfl
@[simp] theorem setLaunch_placeRing (m : Chip) (l : Nat) (x : Option Launch) : (setLaunch m l x).placeRing = m.placeRing := rfl
@[simp] theorem setLaunch_con (m : Chip) (l : Nat) (x : Option Launch) : (setLaunch m l x).con = m.con := rfl
@[simp] theorem setLaunch_credits (m : Chip) (l : Nat) (x : Option Launch) : (setLaunch m l x).credits = m.credits := rfl
@[simp] theorem setLaunch_refillAt (m : Chip) (l : Nat) (x : Option Launch) : (setLaunch m l x).refillAt = m.refillAt := rfl
@[simp] theorem setLaunch_pts (m : Chip) (l : Nat) (x : Option Launch) : (setLaunch m l x).pts = m.pts := rfl

/-! ### modLaunch -/

@[simp] theorem modLaunch_csr (m : Chip) (l : Nat) (f : Launch → Launch) : (modLaunch m l f).csr = m.csr := rfl
@[simp] theorem modLaunch_latch (m : Chip) (l : Nat) (f : Launch → Launch) : (modLaunch m l f).latch = m.latch := rfl
@[simp] theorem modLaunch_hiHeld (m : Chip) (l : Nat) (f : Launch → Launch) : (modLaunch m l f).hiHeld = m.hiHeld := rfl
@[simp] theorem modLaunch_out (m : Chip) (l : Nat) (f : Launch → Launch) : (modLaunch m l f).out = m.out := rfl
@[simp] theorem modLaunch_ns (m : Chip) (l : Nat) (f : Launch → Launch) : (modLaunch m l f).ns = m.ns := rfl
@[simp] theorem modLaunch_freeCtr (m : Chip) (l : Nat) (f : Launch → Launch) : (modLaunch m l f).freeCtr = m.freeCtr := rfl
@[simp] theorem modLaunch_mem (m : Chip) (l : Nat) (f : Launch → Launch) : (modLaunch m l f).mem = m.mem := rfl
@[simp] theorem modLaunch_lmeta (m : Chip) (l : Nat) (f : Launch → Launch) : (modLaunch m l f).lmeta = m.lmeta := rfl
@[simp] theorem modLaunch_buf (m : Chip) (l : Nat) (f : Launch → Launch) : (modLaunch m l f).buf = m.buf := rfl
@[simp] theorem modLaunch_stks (m : Chip) (l : Nat) (f : Launch → Launch) : (modLaunch m l f).stks = m.stks := rfl
@[simp] theorem modLaunch_reqs (m : Chip) (l : Nat) (f : Launch → Launch) : (modLaunch m l f).reqs = m.reqs := rfl
@[simp] theorem modLaunch_resps (m : Chip) (l : Nat) (f : Launch → Launch) : (modLaunch m l f).resps = m.resps := rfl
@[simp] theorem modLaunch_reqId (m : Chip) (l : Nat) (f : Launch → Launch) : (modLaunch m l f).reqId = m.reqId := rfl
@[simp] theorem modLaunch_lt (m : Chip) (l : Nat) (f : Launch → Launch) : (modLaunch m l f).lt = m.lt := rfl
@[simp] theorem modLaunch_rows (m : Chip) (l : Nat) (f : Launch → Launch) : (modLaunch m l f).rows = m.rows := rfl
@[simp] theorem modLaunch_mb (m : Chip) (l : Nat) (f : Launch → Launch) : (modLaunch m l f).mb = m.mb := rfl
@[simp] theorem modLaunch_mbOrder (m : Chip) (l : Nat) (f : Launch → Launch) : (modLaunch m l f).mbOrder = m.mbOrder := rfl
@[simp] theorem modLaunch_rings (m : Chip) (l : Nat) (f : Launch → Launch) : (modLaunch m l f).rings = m.rings := rfl
@[simp] theorem modLaunch_err (m : Chip) (l : Nat) (f : Launch → Launch) : (modLaunch m l f).err = m.err := rfl
@[simp] theorem modLaunch_pwr (m : Chip) (l : Nat) (f : Launch → Launch) : (modLaunch m l f).pwr = m.pwr := rfl
@[simp] theorem modLaunch_twin (m : Chip) (l : Nat) (f : Launch → Launch) : (modLaunch m l f).twin = m.twin := rfl
@[simp] theorem modLaunch_start (m : Chip) (l : Nat) (f : Launch → Launch) : (modLaunch m l f).start = m.start := rfl
@[simp] theorem modLaunch_ports (m : Chip) (l : Nat) (f : Launch → Launch) : (modLaunch m l f).ports = m.ports := rfl
@[simp] theorem modLaunch_d2d (m : Chip) (l : Nat) (f : Launch → Launch) : (modLaunch m l f).d2d = m.d2d := rfl
@[simp] theorem modLaunch_host (m : Chip) (l : Nat) (f : Launch → Launch) : (modLaunch m l f).host = m.host := rfl
@[simp] theorem modLaunch_cores (m : Chip) (l : Nat) (f : Launch → Launch) : (modLaunch m l f).cores = m.cores := rfl
@[simp] theorem modLaunch_code (m : Chip) (l : Nat) (f : Launch → Launch) : (modLaunch m l f).code = m.code := rfl
@[simp] theorem modLaunch_launchId (m : Chip) (l : Nat) (f : Launch → Launch) : (modLaunch m l f).launchId = m.launchId := rfl
@[simp] theorem modLaunch_launchOrder (m : Chip) (l : Nat) (f : Launch → Launch) : (modLaunch m l f).launchOrder = m.launchOrder := rfl
@[simp] theorem modLaunch_placeRing (m : Chip) (l : Nat) (f : Launch → Launch) : (modLaunch m l f).placeRing = m.placeRing := rfl
@[simp] theorem modLaunch_con (m : Chip) (l : Nat) (f : Launch → Launch) : (modLaunch m l f).con = m.con := rfl
@[simp] theorem modLaunch_credits (m : Chip) (l : Nat) (f : Launch → Launch) : (modLaunch m l f).credits = m.credits := rfl
@[simp] theorem modLaunch_refillAt (m : Chip) (l : Nat) (f : Launch → Launch) : (modLaunch m l f).refillAt = m.refillAt := rfl
@[simp] theorem modLaunch_pts (m : Chip) (l : Nat) (f : Launch → Launch) : (modLaunch m l f).pts = m.pts := rfl

/-! ### modCore -/

@[simp] theorem modCore_csr (m : Chip) (c : Nat) (f : Core → Core) : (modCore m c f).csr = m.csr := rfl
@[simp] theorem modCore_latch (m : Chip) (c : Nat) (f : Core → Core) : (modCore m c f).latch = m.latch := rfl
@[simp] theorem modCore_hiHeld (m : Chip) (c : Nat) (f : Core → Core) : (modCore m c f).hiHeld = m.hiHeld := rfl
@[simp] theorem modCore_out (m : Chip) (c : Nat) (f : Core → Core) : (modCore m c f).out = m.out := rfl
@[simp] theorem modCore_ns (m : Chip) (c : Nat) (f : Core → Core) : (modCore m c f).ns = m.ns := rfl
@[simp] theorem modCore_freeCtr (m : Chip) (c : Nat) (f : Core → Core) : (modCore m c f).freeCtr = m.freeCtr := rfl
@[simp] theorem modCore_mem (m : Chip) (c : Nat) (f : Core → Core) : (modCore m c f).mem = m.mem := rfl
@[simp] theorem modCore_lmeta (m : Chip) (c : Nat) (f : Core → Core) : (modCore m c f).lmeta = m.lmeta := rfl
@[simp] theorem modCore_buf (m : Chip) (c : Nat) (f : Core → Core) : (modCore m c f).buf = m.buf := rfl
@[simp] theorem modCore_stks (m : Chip) (c : Nat) (f : Core → Core) : (modCore m c f).stks = m.stks := rfl
@[simp] theorem modCore_reqs (m : Chip) (c : Nat) (f : Core → Core) : (modCore m c f).reqs = m.reqs := rfl
@[simp] theorem modCore_resps (m : Chip) (c : Nat) (f : Core → Core) : (modCore m c f).resps = m.resps := rfl
@[simp] theorem modCore_reqId (m : Chip) (c : Nat) (f : Core → Core) : (modCore m c f).reqId = m.reqId := rfl
@[simp] theorem modCore_lt (m : Chip) (c : Nat) (f : Core → Core) : (modCore m c f).lt = m.lt := rfl
@[simp] theorem modCore_rows (m : Chip) (c : Nat) (f : Core → Core) : (modCore m c f).rows = m.rows := rfl
@[simp] theorem modCore_mb (m : Chip) (c : Nat) (f : Core → Core) : (modCore m c f).mb = m.mb := rfl
@[simp] theorem modCore_mbOrder (m : Chip) (c : Nat) (f : Core → Core) : (modCore m c f).mbOrder = m.mbOrder := rfl
@[simp] theorem modCore_rings (m : Chip) (c : Nat) (f : Core → Core) : (modCore m c f).rings = m.rings := rfl
@[simp] theorem modCore_err (m : Chip) (c : Nat) (f : Core → Core) : (modCore m c f).err = m.err := rfl
@[simp] theorem modCore_pwr (m : Chip) (c : Nat) (f : Core → Core) : (modCore m c f).pwr = m.pwr := rfl
@[simp] theorem modCore_twin (m : Chip) (c : Nat) (f : Core → Core) : (modCore m c f).twin = m.twin := rfl
@[simp] theorem modCore_start (m : Chip) (c : Nat) (f : Core → Core) : (modCore m c f).start = m.start := rfl
@[simp] theorem modCore_ports (m : Chip) (c : Nat) (f : Core → Core) : (modCore m c f).ports = m.ports := rfl
@[simp] theorem modCore_d2d (m : Chip) (c : Nat) (f : Core → Core) : (modCore m c f).d2d = m.d2d := rfl
@[simp] theorem modCore_host (m : Chip) (c : Nat) (f : Core → Core) : (modCore m c f).host = m.host := rfl
@[simp] theorem modCore_code (m : Chip) (c : Nat) (f : Core → Core) : (modCore m c f).code = m.code := rfl
@[simp] theorem modCore_launches (m : Chip) (c : Nat) (f : Core → Core) : (modCore m c f).launches = m.launches := rfl
@[simp] theorem modCore_launchId (m : Chip) (c : Nat) (f : Core → Core) : (modCore m c f).launchId = m.launchId := rfl
@[simp] theorem modCore_launchOrder (m : Chip) (c : Nat) (f : Core → Core) : (modCore m c f).launchOrder = m.launchOrder := rfl
@[simp] theorem modCore_placeRing (m : Chip) (c : Nat) (f : Core → Core) : (modCore m c f).placeRing = m.placeRing := rfl
@[simp] theorem modCore_con (m : Chip) (c : Nat) (f : Core → Core) : (modCore m c f).con = m.con := rfl
@[simp] theorem modCore_credits (m : Chip) (c : Nat) (f : Core → Core) : (modCore m c f).credits = m.credits := rfl
@[simp] theorem modCore_refillAt (m : Chip) (c : Nat) (f : Core → Core) : (modCore m c f).refillAt = m.refillAt := rfl
@[simp] theorem modCore_pts (m : Chip) (c : Nat) (f : Core → Core) : (modCore m c f).pts = m.pts := rfl

/-! ### setGrp -/

@[simp] theorem setGrp_csr (m : Chip) (c i : Nat) (g : Option Grp) : (setGrp m c i g).csr = m.csr := rfl
@[simp] theorem setGrp_latch (m : Chip) (c i : Nat) (g : Option Grp) : (setGrp m c i g).latch = m.latch := rfl
@[simp] theorem setGrp_hiHeld (m : Chip) (c i : Nat) (g : Option Grp) : (setGrp m c i g).hiHeld = m.hiHeld := rfl
@[simp] theorem setGrp_out (m : Chip) (c i : Nat) (g : Option Grp) : (setGrp m c i g).out = m.out := rfl
@[simp] theorem setGrp_ns (m : Chip) (c i : Nat) (g : Option Grp) : (setGrp m c i g).ns = m.ns := rfl
@[simp] theorem setGrp_freeCtr (m : Chip) (c i : Nat) (g : Option Grp) : (setGrp m c i g).freeCtr = m.freeCtr := rfl
@[simp] theorem setGrp_mem (m : Chip) (c i : Nat) (g : Option Grp) : (setGrp m c i g).mem = m.mem := rfl
@[simp] theorem setGrp_lmeta (m : Chip) (c i : Nat) (g : Option Grp) : (setGrp m c i g).lmeta = m.lmeta := rfl
@[simp] theorem setGrp_buf (m : Chip) (c i : Nat) (g : Option Grp) : (setGrp m c i g).buf = m.buf := rfl
@[simp] theorem setGrp_stks (m : Chip) (c i : Nat) (g : Option Grp) : (setGrp m c i g).stks = m.stks := rfl
@[simp] theorem setGrp_reqs (m : Chip) (c i : Nat) (g : Option Grp) : (setGrp m c i g).reqs = m.reqs := rfl
@[simp] theorem setGrp_resps (m : Chip) (c i : Nat) (g : Option Grp) : (setGrp m c i g).resps = m.resps := rfl
@[simp] theorem setGrp_reqId (m : Chip) (c i : Nat) (g : Option Grp) : (setGrp m c i g).reqId = m.reqId := rfl
@[simp] theorem setGrp_lt (m : Chip) (c i : Nat) (g : Option Grp) : (setGrp m c i g).lt = m.lt := rfl
@[simp] theorem setGrp_rows (m : Chip) (c i : Nat) (g : Option Grp) : (setGrp m c i g).rows = m.rows := rfl
@[simp] theorem setGrp_mb (m : Chip) (c i : Nat) (g : Option Grp) : (setGrp m c i g).mb = m.mb := rfl
@[simp] theorem setGrp_mbOrder (m : Chip) (c i : Nat) (g : Option Grp) : (setGrp m c i g).mbOrder = m.mbOrder := rfl
@[simp] theorem setGrp_rings (m : Chip) (c i : Nat) (g : Option Grp) : (setGrp m c i g).rings = m.rings := rfl
@[simp] theorem setGrp_err (m : Chip) (c i : Nat) (g : Option Grp) : (setGrp m c i g).err = m.err := rfl
@[simp] theorem setGrp_pwr (m : Chip) (c i : Nat) (g : Option Grp) : (setGrp m c i g).pwr = m.pwr := rfl
@[simp] theorem setGrp_twin (m : Chip) (c i : Nat) (g : Option Grp) : (setGrp m c i g).twin = m.twin := rfl
@[simp] theorem setGrp_start (m : Chip) (c i : Nat) (g : Option Grp) : (setGrp m c i g).start = m.start := rfl
@[simp] theorem setGrp_ports (m : Chip) (c i : Nat) (g : Option Grp) : (setGrp m c i g).ports = m.ports := rfl
@[simp] theorem setGrp_d2d (m : Chip) (c i : Nat) (g : Option Grp) : (setGrp m c i g).d2d = m.d2d := rfl
@[simp] theorem setGrp_host (m : Chip) (c i : Nat) (g : Option Grp) : (setGrp m c i g).host = m.host := rfl
@[simp] theorem setGrp_code (m : Chip) (c i : Nat) (g : Option Grp) : (setGrp m c i g).code = m.code := rfl
@[simp] theorem setGrp_launches (m : Chip) (c i : Nat) (g : Option Grp) : (setGrp m c i g).launches = m.launches := rfl
@[simp] theorem setGrp_launchId (m : Chip) (c i : Nat) (g : Option Grp) : (setGrp m c i g).launchId = m.launchId := rfl
@[simp] theorem setGrp_launchOrder (m : Chip) (c i : Nat) (g : Option Grp) : (setGrp m c i g).launchOrder = m.launchOrder := rfl
@[simp] theorem setGrp_placeRing (m : Chip) (c i : Nat) (g : Option Grp) : (setGrp m c i g).placeRing = m.placeRing := rfl
@[simp] theorem setGrp_con (m : Chip) (c i : Nat) (g : Option Grp) : (setGrp m c i g).con = m.con := rfl
@[simp] theorem setGrp_credits (m : Chip) (c i : Nat) (g : Option Grp) : (setGrp m c i g).credits = m.credits := rfl
@[simp] theorem setGrp_refillAt (m : Chip) (c i : Nat) (g : Option Grp) : (setGrp m c i g).refillAt = m.refillAt := rfl
@[simp] theorem setGrp_pts (m : Chip) (c i : Nat) (g : Option Grp) : (setGrp m c i g).pts = m.pts := rfl

/-! ### modGrp -/

@[simp] theorem modGrp_csr (m : Chip) (c i : Nat) (f : Grp → Grp) : (modGrp m c i f).csr = m.csr := rfl
@[simp] theorem modGrp_latch (m : Chip) (c i : Nat) (f : Grp → Grp) : (modGrp m c i f).latch = m.latch := rfl
@[simp] theorem modGrp_hiHeld (m : Chip) (c i : Nat) (f : Grp → Grp) : (modGrp m c i f).hiHeld = m.hiHeld := rfl
@[simp] theorem modGrp_out (m : Chip) (c i : Nat) (f : Grp → Grp) : (modGrp m c i f).out = m.out := rfl
@[simp] theorem modGrp_ns (m : Chip) (c i : Nat) (f : Grp → Grp) : (modGrp m c i f).ns = m.ns := rfl
@[simp] theorem modGrp_freeCtr (m : Chip) (c i : Nat) (f : Grp → Grp) : (modGrp m c i f).freeCtr = m.freeCtr := rfl
@[simp] theorem modGrp_mem (m : Chip) (c i : Nat) (f : Grp → Grp) : (modGrp m c i f).mem = m.mem := rfl
@[simp] theorem modGrp_lmeta (m : Chip) (c i : Nat) (f : Grp → Grp) : (modGrp m c i f).lmeta = m.lmeta := rfl
@[simp] theorem modGrp_buf (m : Chip) (c i : Nat) (f : Grp → Grp) : (modGrp m c i f).buf = m.buf := rfl
@[simp] theorem modGrp_stks (m : Chip) (c i : Nat) (f : Grp → Grp) : (modGrp m c i f).stks = m.stks := rfl
@[simp] theorem modGrp_reqs (m : Chip) (c i : Nat) (f : Grp → Grp) : (modGrp m c i f).reqs = m.reqs := rfl
@[simp] theorem modGrp_resps (m : Chip) (c i : Nat) (f : Grp → Grp) : (modGrp m c i f).resps = m.resps := rfl
@[simp] theorem modGrp_reqId (m : Chip) (c i : Nat) (f : Grp → Grp) : (modGrp m c i f).reqId = m.reqId := rfl
@[simp] theorem modGrp_lt (m : Chip) (c i : Nat) (f : Grp → Grp) : (modGrp m c i f).lt = m.lt := rfl
@[simp] theorem modGrp_rows (m : Chip) (c i : Nat) (f : Grp → Grp) : (modGrp m c i f).rows = m.rows := rfl
@[simp] theorem modGrp_mb (m : Chip) (c i : Nat) (f : Grp → Grp) : (modGrp m c i f).mb = m.mb := rfl
@[simp] theorem modGrp_mbOrder (m : Chip) (c i : Nat) (f : Grp → Grp) : (modGrp m c i f).mbOrder = m.mbOrder := rfl
@[simp] theorem modGrp_rings (m : Chip) (c i : Nat) (f : Grp → Grp) : (modGrp m c i f).rings = m.rings := rfl
@[simp] theorem modGrp_err (m : Chip) (c i : Nat) (f : Grp → Grp) : (modGrp m c i f).err = m.err := rfl
@[simp] theorem modGrp_pwr (m : Chip) (c i : Nat) (f : Grp → Grp) : (modGrp m c i f).pwr = m.pwr := rfl
@[simp] theorem modGrp_twin (m : Chip) (c i : Nat) (f : Grp → Grp) : (modGrp m c i f).twin = m.twin := rfl
@[simp] theorem modGrp_start (m : Chip) (c i : Nat) (f : Grp → Grp) : (modGrp m c i f).start = m.start := rfl
@[simp] theorem modGrp_ports (m : Chip) (c i : Nat) (f : Grp → Grp) : (modGrp m c i f).ports = m.ports := rfl
@[simp] theorem modGrp_d2d (m : Chip) (c i : Nat) (f : Grp → Grp) : (modGrp m c i f).d2d = m.d2d := rfl
@[simp] theorem modGrp_host (m : Chip) (c i : Nat) (f : Grp → Grp) : (modGrp m c i f).host = m.host := rfl
@[simp] theorem modGrp_code (m : Chip) (c i : Nat) (f : Grp → Grp) : (modGrp m c i f).code = m.code := rfl
@[simp] theorem modGrp_launches (m : Chip) (c i : Nat) (f : Grp → Grp) : (modGrp m c i f).launches = m.launches := rfl
@[simp] theorem modGrp_launchId (m : Chip) (c i : Nat) (f : Grp → Grp) : (modGrp m c i f).launchId = m.launchId := rfl
@[simp] theorem modGrp_launchOrder (m : Chip) (c i : Nat) (f : Grp → Grp) : (modGrp m c i f).launchOrder = m.launchOrder := rfl
@[simp] theorem modGrp_placeRing (m : Chip) (c i : Nat) (f : Grp → Grp) : (modGrp m c i f).placeRing = m.placeRing := rfl
@[simp] theorem modGrp_con (m : Chip) (c i : Nat) (f : Grp → Grp) : (modGrp m c i f).con = m.con := rfl
@[simp] theorem modGrp_credits (m : Chip) (c i : Nat) (f : Grp → Grp) : (modGrp m c i f).credits = m.credits := rfl
@[simp] theorem modGrp_refillAt (m : Chip) (c i : Nat) (f : Grp → Grp) : (modGrp m c i f).refillAt = m.refillAt := rfl
@[simp] theorem modGrp_pts (m : Chip) (c i : Nat) (f : Grp → Grp) : (modGrp m c i f).pts = m.pts := rfl

/-! ### modBlk -/

@[simp] theorem modBlk_csr (m : Chip) (c b : Nat) (f : Blk → Blk) : (modBlk m c b f).csr = m.csr := rfl
@[simp] theorem modBlk_latch (m : Chip) (c b : Nat) (f : Blk → Blk) : (modBlk m c b f).latch = m.latch := rfl
@[simp] theorem modBlk_hiHeld (m : Chip) (c b : Nat) (f : Blk → Blk) : (modBlk m c b f).hiHeld = m.hiHeld := rfl
@[simp] theorem modBlk_out (m : Chip) (c b : Nat) (f : Blk → Blk) : (modBlk m c b f).out = m.out := rfl
@[simp] theorem modBlk_ns (m : Chip) (c b : Nat) (f : Blk → Blk) : (modBlk m c b f).ns = m.ns := rfl
@[simp] theorem modBlk_freeCtr (m : Chip) (c b : Nat) (f : Blk → Blk) : (modBlk m c b f).freeCtr = m.freeCtr := rfl
@[simp] theorem modBlk_mem (m : Chip) (c b : Nat) (f : Blk → Blk) : (modBlk m c b f).mem = m.mem := rfl
@[simp] theorem modBlk_lmeta (m : Chip) (c b : Nat) (f : Blk → Blk) : (modBlk m c b f).lmeta = m.lmeta := rfl
@[simp] theorem modBlk_buf (m : Chip) (c b : Nat) (f : Blk → Blk) : (modBlk m c b f).buf = m.buf := rfl
@[simp] theorem modBlk_stks (m : Chip) (c b : Nat) (f : Blk → Blk) : (modBlk m c b f).stks = m.stks := rfl
@[simp] theorem modBlk_reqs (m : Chip) (c b : Nat) (f : Blk → Blk) : (modBlk m c b f).reqs = m.reqs := rfl
@[simp] theorem modBlk_resps (m : Chip) (c b : Nat) (f : Blk → Blk) : (modBlk m c b f).resps = m.resps := rfl
@[simp] theorem modBlk_reqId (m : Chip) (c b : Nat) (f : Blk → Blk) : (modBlk m c b f).reqId = m.reqId := rfl
@[simp] theorem modBlk_lt (m : Chip) (c b : Nat) (f : Blk → Blk) : (modBlk m c b f).lt = m.lt := rfl
@[simp] theorem modBlk_rows (m : Chip) (c b : Nat) (f : Blk → Blk) : (modBlk m c b f).rows = m.rows := rfl
@[simp] theorem modBlk_mb (m : Chip) (c b : Nat) (f : Blk → Blk) : (modBlk m c b f).mb = m.mb := rfl
@[simp] theorem modBlk_mbOrder (m : Chip) (c b : Nat) (f : Blk → Blk) : (modBlk m c b f).mbOrder = m.mbOrder := rfl
@[simp] theorem modBlk_rings (m : Chip) (c b : Nat) (f : Blk → Blk) : (modBlk m c b f).rings = m.rings := rfl
@[simp] theorem modBlk_err (m : Chip) (c b : Nat) (f : Blk → Blk) : (modBlk m c b f).err = m.err := rfl
@[simp] theorem modBlk_pwr (m : Chip) (c b : Nat) (f : Blk → Blk) : (modBlk m c b f).pwr = m.pwr := rfl
@[simp] theorem modBlk_twin (m : Chip) (c b : Nat) (f : Blk → Blk) : (modBlk m c b f).twin = m.twin := rfl
@[simp] theorem modBlk_start (m : Chip) (c b : Nat) (f : Blk → Blk) : (modBlk m c b f).start = m.start := rfl
@[simp] theorem modBlk_ports (m : Chip) (c b : Nat) (f : Blk → Blk) : (modBlk m c b f).ports = m.ports := rfl
@[simp] theorem modBlk_d2d (m : Chip) (c b : Nat) (f : Blk → Blk) : (modBlk m c b f).d2d = m.d2d := rfl
@[simp] theorem modBlk_host (m : Chip) (c b : Nat) (f : Blk → Blk) : (modBlk m c b f).host = m.host := rfl
@[simp] theorem modBlk_code (m : Chip) (c b : Nat) (f : Blk → Blk) : (modBlk m c b f).code = m.code := rfl
@[simp] theorem modBlk_launches (m : Chip) (c b : Nat) (f : Blk → Blk) : (modBlk m c b f).launches = m.launches := rfl
@[simp] theorem modBlk_launchId (m : Chip) (c b : Nat) (f : Blk → Blk) : (modBlk m c b f).launchId = m.launchId := rfl
@[simp] theorem modBlk_launchOrder (m : Chip) (c b : Nat) (f : Blk → Blk) : (modBlk m c b f).launchOrder = m.launchOrder := rfl
@[simp] theorem modBlk_placeRing (m : Chip) (c b : Nat) (f : Blk → Blk) : (modBlk m c b f).placeRing = m.placeRing := rfl
@[simp] theorem modBlk_con (m : Chip) (c b : Nat) (f : Blk → Blk) : (modBlk m c b f).con = m.con := rfl
@[simp] theorem modBlk_credits (m : Chip) (c b : Nat) (f : Blk → Blk) : (modBlk m c b f).credits = m.credits := rfl
@[simp] theorem modBlk_refillAt (m : Chip) (c b : Nat) (f : Blk → Blk) : (modBlk m c b f).refillAt = m.refillAt := rfl
@[simp] theorem modBlk_pts (m : Chip) (c b : Nat) (f : Blk → Blk) : (modBlk m c b f).pts = m.pts := rfl

/-! ### setMb -/

@[simp] theorem setMb_csr (m : Chip) (i : Nat) (r : Option MbRun) : (setMb m i r).csr = m.csr := rfl
@[simp] theorem setMb_latch (m : Chip) (i : Nat) (r : Option MbRun) : (setMb m i r).latch = m.latch := rfl
@[simp] theorem setMb_hiHeld (m : Chip) (i : Nat) (r : Option MbRun) : (setMb m i r).hiHeld = m.hiHeld := rfl
@[simp] theorem setMb_out (m : Chip) (i : Nat) (r : Option MbRun) : (setMb m i r).out = m.out := rfl
@[simp] theorem setMb_ns (m : Chip) (i : Nat) (r : Option MbRun) : (setMb m i r).ns = m.ns := rfl
@[simp] theorem setMb_freeCtr (m : Chip) (i : Nat) (r : Option MbRun) : (setMb m i r).freeCtr = m.freeCtr := rfl
@[simp] theorem setMb_mem (m : Chip) (i : Nat) (r : Option MbRun) : (setMb m i r).mem = m.mem := rfl
@[simp] theorem setMb_lmeta (m : Chip) (i : Nat) (r : Option MbRun) : (setMb m i r).lmeta = m.lmeta := rfl
@[simp] theorem setMb_buf (m : Chip) (i : Nat) (r : Option MbRun) : (setMb m i r).buf = m.buf := rfl
@[simp] theorem setMb_stks (m : Chip) (i : Nat) (r : Option MbRun) : (setMb m i r).stks = m.stks := rfl
@[simp] theorem setMb_reqs (m : Chip) (i : Nat) (r : Option MbRun) : (setMb m i r).reqs = m.reqs := rfl
@[simp] theorem setMb_resps (m : Chip) (i : Nat) (r : Option MbRun) : (setMb m i r).resps = m.resps := rfl
@[simp] theorem setMb_reqId (m : Chip) (i : Nat) (r : Option MbRun) : (setMb m i r).reqId = m.reqId := rfl
@[simp] theorem setMb_lt (m : Chip) (i : Nat) (r : Option MbRun) : (setMb m i r).lt = m.lt := rfl
@[simp] theorem setMb_rows (m : Chip) (i : Nat) (r : Option MbRun) : (setMb m i r).rows = m.rows := rfl
@[simp] theorem setMb_mbOrder (m : Chip) (i : Nat) (r : Option MbRun) : (setMb m i r).mbOrder = m.mbOrder := rfl
@[simp] theorem setMb_rings (m : Chip) (i : Nat) (r : Option MbRun) : (setMb m i r).rings = m.rings := rfl
@[simp] theorem setMb_err (m : Chip) (i : Nat) (r : Option MbRun) : (setMb m i r).err = m.err := rfl
@[simp] theorem setMb_pwr (m : Chip) (i : Nat) (r : Option MbRun) : (setMb m i r).pwr = m.pwr := rfl
@[simp] theorem setMb_twin (m : Chip) (i : Nat) (r : Option MbRun) : (setMb m i r).twin = m.twin := rfl
@[simp] theorem setMb_start (m : Chip) (i : Nat) (r : Option MbRun) : (setMb m i r).start = m.start := rfl
@[simp] theorem setMb_ports (m : Chip) (i : Nat) (r : Option MbRun) : (setMb m i r).ports = m.ports := rfl
@[simp] theorem setMb_d2d (m : Chip) (i : Nat) (r : Option MbRun) : (setMb m i r).d2d = m.d2d := rfl
@[simp] theorem setMb_host (m : Chip) (i : Nat) (r : Option MbRun) : (setMb m i r).host = m.host := rfl
@[simp] theorem setMb_cores (m : Chip) (i : Nat) (r : Option MbRun) : (setMb m i r).cores = m.cores := rfl
@[simp] theorem setMb_code (m : Chip) (i : Nat) (r : Option MbRun) : (setMb m i r).code = m.code := rfl
@[simp] theorem setMb_launches (m : Chip) (i : Nat) (r : Option MbRun) : (setMb m i r).launches = m.launches := rfl
@[simp] theorem setMb_launchId (m : Chip) (i : Nat) (r : Option MbRun) : (setMb m i r).launchId = m.launchId := rfl
@[simp] theorem setMb_launchOrder (m : Chip) (i : Nat) (r : Option MbRun) : (setMb m i r).launchOrder = m.launchOrder := rfl
@[simp] theorem setMb_placeRing (m : Chip) (i : Nat) (r : Option MbRun) : (setMb m i r).placeRing = m.placeRing := rfl
@[simp] theorem setMb_con (m : Chip) (i : Nat) (r : Option MbRun) : (setMb m i r).con = m.con := rfl
@[simp] theorem setMb_credits (m : Chip) (i : Nat) (r : Option MbRun) : (setMb m i r).credits = m.credits := rfl
@[simp] theorem setMb_refillAt (m : Chip) (i : Nat) (r : Option MbRun) : (setMb m i r).refillAt = m.refillAt := rfl
@[simp] theorem setMb_pts (m : Chip) (i : Nat) (r : Option MbRun) : (setMb m i r).pts = m.pts := rfl

/-! ### modMb -/

@[simp] theorem modMb_csr (m : Chip) (i : Nat) (f : MbRun → MbRun) : (modMb m i f).csr = m.csr := rfl
@[simp] theorem modMb_latch (m : Chip) (i : Nat) (f : MbRun → MbRun) : (modMb m i f).latch = m.latch := rfl
@[simp] theorem modMb_hiHeld (m : Chip) (i : Nat) (f : MbRun → MbRun) : (modMb m i f).hiHeld = m.hiHeld := rfl
@[simp] theorem modMb_out (m : Chip) (i : Nat) (f : MbRun → MbRun) : (modMb m i f).out = m.out := rfl
@[simp] theorem modMb_ns (m : Chip) (i : Nat) (f : MbRun → MbRun) : (modMb m i f).ns = m.ns := rfl
@[simp] theorem modMb_freeCtr (m : Chip) (i : Nat) (f : MbRun → MbRun) : (modMb m i f).freeCtr = m.freeCtr := rfl
@[simp] theorem modMb_mem (m : Chip) (i : Nat) (f : MbRun → MbRun) : (modMb m i f).mem = m.mem := rfl
@[simp] theorem modMb_lmeta (m : Chip) (i : Nat) (f : MbRun → MbRun) : (modMb m i f).lmeta = m.lmeta := rfl
@[simp] theorem modMb_buf (m : Chip) (i : Nat) (f : MbRun → MbRun) : (modMb m i f).buf = m.buf := rfl
@[simp] theorem modMb_stks (m : Chip) (i : Nat) (f : MbRun → MbRun) : (modMb m i f).stks = m.stks := rfl
@[simp] theorem modMb_reqs (m : Chip) (i : Nat) (f : MbRun → MbRun) : (modMb m i f).reqs = m.reqs := rfl
@[simp] theorem modMb_resps (m : Chip) (i : Nat) (f : MbRun → MbRun) : (modMb m i f).resps = m.resps := rfl
@[simp] theorem modMb_reqId (m : Chip) (i : Nat) (f : MbRun → MbRun) : (modMb m i f).reqId = m.reqId := rfl
@[simp] theorem modMb_lt (m : Chip) (i : Nat) (f : MbRun → MbRun) : (modMb m i f).lt = m.lt := rfl
@[simp] theorem modMb_rows (m : Chip) (i : Nat) (f : MbRun → MbRun) : (modMb m i f).rows = m.rows := rfl
@[simp] theorem modMb_mbOrder (m : Chip) (i : Nat) (f : MbRun → MbRun) : (modMb m i f).mbOrder = m.mbOrder := rfl
@[simp] theorem modMb_rings (m : Chip) (i : Nat) (f : MbRun → MbRun) : (modMb m i f).rings = m.rings := rfl
@[simp] theorem modMb_err (m : Chip) (i : Nat) (f : MbRun → MbRun) : (modMb m i f).err = m.err := rfl
@[simp] theorem modMb_pwr (m : Chip) (i : Nat) (f : MbRun → MbRun) : (modMb m i f).pwr = m.pwr := rfl
@[simp] theorem modMb_twin (m : Chip) (i : Nat) (f : MbRun → MbRun) : (modMb m i f).twin = m.twin := rfl
@[simp] theorem modMb_start (m : Chip) (i : Nat) (f : MbRun → MbRun) : (modMb m i f).start = m.start := rfl
@[simp] theorem modMb_ports (m : Chip) (i : Nat) (f : MbRun → MbRun) : (modMb m i f).ports = m.ports := rfl
@[simp] theorem modMb_d2d (m : Chip) (i : Nat) (f : MbRun → MbRun) : (modMb m i f).d2d = m.d2d := rfl
@[simp] theorem modMb_host (m : Chip) (i : Nat) (f : MbRun → MbRun) : (modMb m i f).host = m.host := rfl
@[simp] theorem modMb_cores (m : Chip) (i : Nat) (f : MbRun → MbRun) : (modMb m i f).cores = m.cores := rfl
@[simp] theorem modMb_code (m : Chip) (i : Nat) (f : MbRun → MbRun) : (modMb m i f).code = m.code := rfl
@[simp] theorem modMb_launches (m : Chip) (i : Nat) (f : MbRun → MbRun) : (modMb m i f).launches = m.launches := rfl
@[simp] theorem modMb_launchId (m : Chip) (i : Nat) (f : MbRun → MbRun) : (modMb m i f).launchId = m.launchId := rfl
@[simp] theorem modMb_launchOrder (m : Chip) (i : Nat) (f : MbRun → MbRun) : (modMb m i f).launchOrder = m.launchOrder := rfl
@[simp] theorem modMb_placeRing (m : Chip) (i : Nat) (f : MbRun → MbRun) : (modMb m i f).placeRing = m.placeRing := rfl
@[simp] theorem modMb_con (m : Chip) (i : Nat) (f : MbRun → MbRun) : (modMb m i f).con = m.con := rfl
@[simp] theorem modMb_credits (m : Chip) (i : Nat) (f : MbRun → MbRun) : (modMb m i f).credits = m.credits := rfl
@[simp] theorem modMb_refillAt (m : Chip) (i : Nat) (f : MbRun → MbRun) : (modMb m i f).refillAt = m.refillAt := rfl
@[simp] theorem modMb_pts (m : Chip) (i : Nat) (f : MbRun → MbRun) : (modMb m i f).pts = m.pts := rfl

/-! ### setSiding -/

@[simp] theorem setSiding_csr (m : Chip) (h : Nat) (l : List Parked) : (setSiding m h l).csr = m.csr := rfl
@[simp] theorem setSiding_latch (m : Chip) (h : Nat) (l : List Parked) : (setSiding m h l).latch = m.latch := rfl
@[simp] theorem setSiding_hiHeld (m : Chip) (h : Nat) (l : List Parked) : (setSiding m h l).hiHeld = m.hiHeld := rfl
@[simp] theorem setSiding_out (m : Chip) (h : Nat) (l : List Parked) : (setSiding m h l).out = m.out := rfl
@[simp] theorem setSiding_ns (m : Chip) (h : Nat) (l : List Parked) : (setSiding m h l).ns = m.ns := rfl
@[simp] theorem setSiding_freeCtr (m : Chip) (h : Nat) (l : List Parked) : (setSiding m h l).freeCtr = m.freeCtr := rfl
@[simp] theorem setSiding_mem (m : Chip) (h : Nat) (l : List Parked) : (setSiding m h l).mem = m.mem := rfl
@[simp] theorem setSiding_lmeta (m : Chip) (h : Nat) (l : List Parked) : (setSiding m h l).lmeta = m.lmeta := rfl
@[simp] theorem setSiding_stks (m : Chip) (h : Nat) (l : List Parked) : (setSiding m h l).stks = m.stks := rfl
@[simp] theorem setSiding_reqs (m : Chip) (h : Nat) (l : List Parked) : (setSiding m h l).reqs = m.reqs := rfl
@[simp] theorem setSiding_resps (m : Chip) (h : Nat) (l : List Parked) : (setSiding m h l).resps = m.resps := rfl
@[simp] theorem setSiding_reqId (m : Chip) (h : Nat) (l : List Parked) : (setSiding m h l).reqId = m.reqId := rfl
@[simp] theorem setSiding_lt (m : Chip) (h : Nat) (l : List Parked) : (setSiding m h l).lt = m.lt := rfl
@[simp] theorem setSiding_rows (m : Chip) (h : Nat) (l : List Parked) : (setSiding m h l).rows = m.rows := rfl
@[simp] theorem setSiding_mb (m : Chip) (h : Nat) (l : List Parked) : (setSiding m h l).mb = m.mb := rfl
@[simp] theorem setSiding_mbOrder (m : Chip) (h : Nat) (l : List Parked) : (setSiding m h l).mbOrder = m.mbOrder := rfl
@[simp] theorem setSiding_rings (m : Chip) (h : Nat) (l : List Parked) : (setSiding m h l).rings = m.rings := rfl
@[simp] theorem setSiding_err (m : Chip) (h : Nat) (l : List Parked) : (setSiding m h l).err = m.err := rfl
@[simp] theorem setSiding_pwr (m : Chip) (h : Nat) (l : List Parked) : (setSiding m h l).pwr = m.pwr := rfl
@[simp] theorem setSiding_twin (m : Chip) (h : Nat) (l : List Parked) : (setSiding m h l).twin = m.twin := rfl
@[simp] theorem setSiding_start (m : Chip) (h : Nat) (l : List Parked) : (setSiding m h l).start = m.start := rfl
@[simp] theorem setSiding_ports (m : Chip) (h : Nat) (l : List Parked) : (setSiding m h l).ports = m.ports := rfl
@[simp] theorem setSiding_d2d (m : Chip) (h : Nat) (l : List Parked) : (setSiding m h l).d2d = m.d2d := rfl
@[simp] theorem setSiding_host (m : Chip) (h : Nat) (l : List Parked) : (setSiding m h l).host = m.host := rfl
@[simp] theorem setSiding_cores (m : Chip) (h : Nat) (l : List Parked) : (setSiding m h l).cores = m.cores := rfl
@[simp] theorem setSiding_code (m : Chip) (h : Nat) (l : List Parked) : (setSiding m h l).code = m.code := rfl
@[simp] theorem setSiding_launches (m : Chip) (h : Nat) (l : List Parked) : (setSiding m h l).launches = m.launches := rfl
@[simp] theorem setSiding_launchId (m : Chip) (h : Nat) (l : List Parked) : (setSiding m h l).launchId = m.launchId := rfl
@[simp] theorem setSiding_launchOrder (m : Chip) (h : Nat) (l : List Parked) : (setSiding m h l).launchOrder = m.launchOrder := rfl
@[simp] theorem setSiding_placeRing (m : Chip) (h : Nat) (l : List Parked) : (setSiding m h l).placeRing = m.placeRing := rfl
@[simp] theorem setSiding_con (m : Chip) (h : Nat) (l : List Parked) : (setSiding m h l).con = m.con := rfl
@[simp] theorem setSiding_credits (m : Chip) (h : Nat) (l : List Parked) : (setSiding m h l).credits = m.credits := rfl
@[simp] theorem setSiding_refillAt (m : Chip) (h : Nat) (l : List Parked) : (setSiding m h l).refillAt = m.refillAt := rfl
@[simp] theorem setSiding_pts (m : Chip) (h : Nat) (l : List Parked) : (setSiding m h l).pts = m.pts := rfl

/-! ### setEv -/

@[simp] theorem setEv_csr (m : Chip) (h : Nat) (l : List Parked) : (setEv m h l).csr = m.csr := rfl
@[simp] theorem setEv_latch (m : Chip) (h : Nat) (l : List Parked) : (setEv m h l).latch = m.latch := rfl
@[simp] theorem setEv_hiHeld (m : Chip) (h : Nat) (l : List Parked) : (setEv m h l).hiHeld = m.hiHeld := rfl
@[simp] theorem setEv_out (m : Chip) (h : Nat) (l : List Parked) : (setEv m h l).out = m.out := rfl
@[simp] theorem setEv_ns (m : Chip) (h : Nat) (l : List Parked) : (setEv m h l).ns = m.ns := rfl
@[simp] theorem setEv_freeCtr (m : Chip) (h : Nat) (l : List Parked) : (setEv m h l).freeCtr = m.freeCtr := rfl
@[simp] theorem setEv_mem (m : Chip) (h : Nat) (l : List Parked) : (setEv m h l).mem = m.mem := rfl
@[simp] theorem setEv_lmeta (m : Chip) (h : Nat) (l : List Parked) : (setEv m h l).lmeta = m.lmeta := rfl
@[simp] theorem setEv_stks (m : Chip) (h : Nat) (l : List Parked) : (setEv m h l).stks = m.stks := rfl
@[simp] theorem setEv_reqs (m : Chip) (h : Nat) (l : List Parked) : (setEv m h l).reqs = m.reqs := rfl
@[simp] theorem setEv_resps (m : Chip) (h : Nat) (l : List Parked) : (setEv m h l).resps = m.resps := rfl
@[simp] theorem setEv_reqId (m : Chip) (h : Nat) (l : List Parked) : (setEv m h l).reqId = m.reqId := rfl
@[simp] theorem setEv_lt (m : Chip) (h : Nat) (l : List Parked) : (setEv m h l).lt = m.lt := rfl
@[simp] theorem setEv_rows (m : Chip) (h : Nat) (l : List Parked) : (setEv m h l).rows = m.rows := rfl
@[simp] theorem setEv_mb (m : Chip) (h : Nat) (l : List Parked) : (setEv m h l).mb = m.mb := rfl
@[simp] theorem setEv_mbOrder (m : Chip) (h : Nat) (l : List Parked) : (setEv m h l).mbOrder = m.mbOrder := rfl
@[simp] theorem setEv_rings (m : Chip) (h : Nat) (l : List Parked) : (setEv m h l).rings = m.rings := rfl
@[simp] theorem setEv_err (m : Chip) (h : Nat) (l : List Parked) : (setEv m h l).err = m.err := rfl
@[simp] theorem setEv_pwr (m : Chip) (h : Nat) (l : List Parked) : (setEv m h l).pwr = m.pwr := rfl
@[simp] theorem setEv_twin (m : Chip) (h : Nat) (l : List Parked) : (setEv m h l).twin = m.twin := rfl
@[simp] theorem setEv_start (m : Chip) (h : Nat) (l : List Parked) : (setEv m h l).start = m.start := rfl
@[simp] theorem setEv_ports (m : Chip) (h : Nat) (l : List Parked) : (setEv m h l).ports = m.ports := rfl
@[simp] theorem setEv_d2d (m : Chip) (h : Nat) (l : List Parked) : (setEv m h l).d2d = m.d2d := rfl
@[simp] theorem setEv_host (m : Chip) (h : Nat) (l : List Parked) : (setEv m h l).host = m.host := rfl
@[simp] theorem setEv_cores (m : Chip) (h : Nat) (l : List Parked) : (setEv m h l).cores = m.cores := rfl
@[simp] theorem setEv_code (m : Chip) (h : Nat) (l : List Parked) : (setEv m h l).code = m.code := rfl
@[simp] theorem setEv_launches (m : Chip) (h : Nat) (l : List Parked) : (setEv m h l).launches = m.launches := rfl
@[simp] theorem setEv_launchId (m : Chip) (h : Nat) (l : List Parked) : (setEv m h l).launchId = m.launchId := rfl
@[simp] theorem setEv_launchOrder (m : Chip) (h : Nat) (l : List Parked) : (setEv m h l).launchOrder = m.launchOrder := rfl
@[simp] theorem setEv_placeRing (m : Chip) (h : Nat) (l : List Parked) : (setEv m h l).placeRing = m.placeRing := rfl
@[simp] theorem setEv_con (m : Chip) (h : Nat) (l : List Parked) : (setEv m h l).con = m.con := rfl
@[simp] theorem setEv_credits (m : Chip) (h : Nat) (l : List Parked) : (setEv m h l).credits = m.credits := rfl
@[simp] theorem setEv_refillAt (m : Chip) (h : Nat) (l : List Parked) : (setEv m h l).refillAt = m.refillAt := rfl
@[simp] theorem setEv_pts (m : Chip) (h : Nat) (l : List Parked) : (setEv m h l).pts = m.pts := rfl

/-! ### ltStep -/

@[simp] theorem ltStep_csr (m : Chip) (n : Nat) : (ltStep m n).csr = m.csr := rfl
@[simp] theorem ltStep_latch (m : Chip) (n : Nat) : (ltStep m n).latch = m.latch := rfl
@[simp] theorem ltStep_hiHeld (m : Chip) (n : Nat) : (ltStep m n).hiHeld = m.hiHeld := rfl
@[simp] theorem ltStep_out (m : Chip) (n : Nat) : (ltStep m n).out = m.out := rfl
@[simp] theorem ltStep_ns (m : Chip) (n : Nat) : (ltStep m n).ns = m.ns := rfl
@[simp] theorem ltStep_freeCtr (m : Chip) (n : Nat) : (ltStep m n).freeCtr = m.freeCtr := rfl
@[simp] theorem ltStep_mem (m : Chip) (n : Nat) : (ltStep m n).mem = m.mem := rfl
@[simp] theorem ltStep_lmeta (m : Chip) (n : Nat) : (ltStep m n).lmeta = m.lmeta := rfl
@[simp] theorem ltStep_buf (m : Chip) (n : Nat) : (ltStep m n).buf = m.buf := rfl
@[simp] theorem ltStep_stks (m : Chip) (n : Nat) : (ltStep m n).stks = m.stks := rfl
@[simp] theorem ltStep_reqs (m : Chip) (n : Nat) : (ltStep m n).reqs = m.reqs := rfl
@[simp] theorem ltStep_resps (m : Chip) (n : Nat) : (ltStep m n).resps = m.resps := rfl
@[simp] theorem ltStep_reqId (m : Chip) (n : Nat) : (ltStep m n).reqId = m.reqId := rfl
@[simp] theorem ltStep_rows (m : Chip) (n : Nat) : (ltStep m n).rows = m.rows := rfl
@[simp] theorem ltStep_mb (m : Chip) (n : Nat) : (ltStep m n).mb = m.mb := rfl
@[simp] theorem ltStep_mbOrder (m : Chip) (n : Nat) : (ltStep m n).mbOrder = m.mbOrder := rfl
@[simp] theorem ltStep_rings (m : Chip) (n : Nat) : (ltStep m n).rings = m.rings := rfl
@[simp] theorem ltStep_err (m : Chip) (n : Nat) : (ltStep m n).err = m.err := rfl
@[simp] theorem ltStep_pwr (m : Chip) (n : Nat) : (ltStep m n).pwr = m.pwr := rfl
@[simp] theorem ltStep_twin (m : Chip) (n : Nat) : (ltStep m n).twin = m.twin := rfl
@[simp] theorem ltStep_start (m : Chip) (n : Nat) : (ltStep m n).start = m.start := rfl
@[simp] theorem ltStep_ports (m : Chip) (n : Nat) : (ltStep m n).ports = m.ports := rfl
@[simp] theorem ltStep_d2d (m : Chip) (n : Nat) : (ltStep m n).d2d = m.d2d := rfl
@[simp] theorem ltStep_host (m : Chip) (n : Nat) : (ltStep m n).host = m.host := rfl
@[simp] theorem ltStep_cores (m : Chip) (n : Nat) : (ltStep m n).cores = m.cores := rfl
@[simp] theorem ltStep_code (m : Chip) (n : Nat) : (ltStep m n).code = m.code := rfl
@[simp] theorem ltStep_launches (m : Chip) (n : Nat) : (ltStep m n).launches = m.launches := rfl
@[simp] theorem ltStep_launchId (m : Chip) (n : Nat) : (ltStep m n).launchId = m.launchId := rfl
@[simp] theorem ltStep_launchOrder (m : Chip) (n : Nat) : (ltStep m n).launchOrder = m.launchOrder := rfl
@[simp] theorem ltStep_placeRing (m : Chip) (n : Nat) : (ltStep m n).placeRing = m.placeRing := rfl
@[simp] theorem ltStep_con (m : Chip) (n : Nat) : (ltStep m n).con = m.con := rfl
@[simp] theorem ltStep_credits (m : Chip) (n : Nat) : (ltStep m n).credits = m.credits := rfl
@[simp] theorem ltStep_refillAt (m : Chip) (n : Nat) : (ltStep m n).refillAt = m.refillAt := rfl
@[simp] theorem ltStep_pts (m : Chip) (n : Nat) : (ltStep m n).pts = m.pts := rfl

/-! ### ltPause -/

@[simp] theorem ltPause_csr (m : Chip) (n : Nat) : (ltPause m n).csr = m.csr := rfl
@[simp] theorem ltPause_latch (m : Chip) (n : Nat) : (ltPause m n).latch = m.latch := rfl
@[simp] theorem ltPause_hiHeld (m : Chip) (n : Nat) : (ltPause m n).hiHeld = m.hiHeld := rfl
@[simp] theorem ltPause_out (m : Chip) (n : Nat) : (ltPause m n).out = m.out := rfl
@[simp] theorem ltPause_ns (m : Chip) (n : Nat) : (ltPause m n).ns = m.ns := rfl
@[simp] theorem ltPause_freeCtr (m : Chip) (n : Nat) : (ltPause m n).freeCtr = m.freeCtr := rfl
@[simp] theorem ltPause_mem (m : Chip) (n : Nat) : (ltPause m n).mem = m.mem := rfl
@[simp] theorem ltPause_lmeta (m : Chip) (n : Nat) : (ltPause m n).lmeta = m.lmeta := rfl
@[simp] theorem ltPause_buf (m : Chip) (n : Nat) : (ltPause m n).buf = m.buf := rfl
@[simp] theorem ltPause_stks (m : Chip) (n : Nat) : (ltPause m n).stks = m.stks := rfl
@[simp] theorem ltPause_reqs (m : Chip) (n : Nat) : (ltPause m n).reqs = m.reqs := rfl
@[simp] theorem ltPause_resps (m : Chip) (n : Nat) : (ltPause m n).resps = m.resps := rfl
@[simp] theorem ltPause_reqId (m : Chip) (n : Nat) : (ltPause m n).reqId = m.reqId := rfl
@[simp] theorem ltPause_rows (m : Chip) (n : Nat) : (ltPause m n).rows = m.rows := rfl
@[simp] theorem ltPause_mb (m : Chip) (n : Nat) : (ltPause m n).mb = m.mb := rfl
@[simp] theorem ltPause_mbOrder (m : Chip) (n : Nat) : (ltPause m n).mbOrder = m.mbOrder := rfl
@[simp] theorem ltPause_rings (m : Chip) (n : Nat) : (ltPause m n).rings = m.rings := rfl
@[simp] theorem ltPause_err (m : Chip) (n : Nat) : (ltPause m n).err = m.err := rfl
@[simp] theorem ltPause_pwr (m : Chip) (n : Nat) : (ltPause m n).pwr = m.pwr := rfl
@[simp] theorem ltPause_twin (m : Chip) (n : Nat) : (ltPause m n).twin = m.twin := rfl
@[simp] theorem ltPause_start (m : Chip) (n : Nat) : (ltPause m n).start = m.start := rfl
@[simp] theorem ltPause_ports (m : Chip) (n : Nat) : (ltPause m n).ports = m.ports := rfl
@[simp] theorem ltPause_d2d (m : Chip) (n : Nat) : (ltPause m n).d2d = m.d2d := rfl
@[simp] theorem ltPause_host (m : Chip) (n : Nat) : (ltPause m n).host = m.host := rfl
@[simp] theorem ltPause_cores (m : Chip) (n : Nat) : (ltPause m n).cores = m.cores := rfl
@[simp] theorem ltPause_code (m : Chip) (n : Nat) : (ltPause m n).code = m.code := rfl
@[simp] theorem ltPause_launches (m : Chip) (n : Nat) : (ltPause m n).launches = m.launches := rfl
@[simp] theorem ltPause_launchId (m : Chip) (n : Nat) : (ltPause m n).launchId = m.launchId := rfl
@[simp] theorem ltPause_launchOrder (m : Chip) (n : Nat) : (ltPause m n).launchOrder = m.launchOrder := rfl
@[simp] theorem ltPause_placeRing (m : Chip) (n : Nat) : (ltPause m n).placeRing = m.placeRing := rfl
@[simp] theorem ltPause_con (m : Chip) (n : Nat) : (ltPause m n).con = m.con := rfl
@[simp] theorem ltPause_credits (m : Chip) (n : Nat) : (ltPause m n).credits = m.credits := rfl
@[simp] theorem ltPause_refillAt (m : Chip) (n : Nat) : (ltPause m n).refillAt = m.refillAt := rfl
@[simp] theorem ltPause_pts (m : Chip) (n : Nat) : (ltPause m n).pts = m.pts := rfl

/-! ### setRawLine -/

@[simp] theorem setRawLine_csr (m : Chip) (n : Nat) (l : Line) : (setRawLine m n l).csr = m.csr := rfl
@[simp] theorem setRawLine_latch (m : Chip) (n : Nat) (l : Line) : (setRawLine m n l).latch = m.latch := rfl
@[simp] theorem setRawLine_hiHeld (m : Chip) (n : Nat) (l : Line) : (setRawLine m n l).hiHeld = m.hiHeld := rfl
@[simp] theorem setRawLine_out (m : Chip) (n : Nat) (l : Line) : (setRawLine m n l).out = m.out := rfl
@[simp] theorem setRawLine_ns (m : Chip) (n : Nat) (l : Line) : (setRawLine m n l).ns = m.ns := rfl
@[simp] theorem setRawLine_freeCtr (m : Chip) (n : Nat) (l : Line) : (setRawLine m n l).freeCtr = m.freeCtr := rfl
@[simp] theorem setRawLine_buf (m : Chip) (n : Nat) (l : Line) : (setRawLine m n l).buf = m.buf := rfl
@[simp] theorem setRawLine_stks (m : Chip) (n : Nat) (l : Line) : (setRawLine m n l).stks = m.stks := rfl
@[simp] theorem setRawLine_reqs (m : Chip) (n : Nat) (l : Line) : (setRawLine m n l).reqs = m.reqs := rfl
@[simp] theorem setRawLine_resps (m : Chip) (n : Nat) (l : Line) : (setRawLine m n l).resps = m.resps := rfl
@[simp] theorem setRawLine_reqId (m : Chip) (n : Nat) (l : Line) : (setRawLine m n l).reqId = m.reqId := rfl
@[simp] theorem setRawLine_lt (m : Chip) (n : Nat) (l : Line) : (setRawLine m n l).lt = m.lt := rfl
@[simp] theorem setRawLine_rows (m : Chip) (n : Nat) (l : Line) : (setRawLine m n l).rows = m.rows := rfl
@[simp] theorem setRawLine_mb (m : Chip) (n : Nat) (l : Line) : (setRawLine m n l).mb = m.mb := rfl
@[simp] theorem setRawLine_mbOrder (m : Chip) (n : Nat) (l : Line) : (setRawLine m n l).mbOrder = m.mbOrder := rfl
@[simp] theorem setRawLine_rings (m : Chip) (n : Nat) (l : Line) : (setRawLine m n l).rings = m.rings := rfl
@[simp] theorem setRawLine_err (m : Chip) (n : Nat) (l : Line) : (setRawLine m n l).err = m.err := rfl
@[simp] theorem setRawLine_pwr (m : Chip) (n : Nat) (l : Line) : (setRawLine m n l).pwr = m.pwr := rfl
@[simp] theorem setRawLine_twin (m : Chip) (n : Nat) (l : Line) : (setRawLine m n l).twin = m.twin := rfl
@[simp] theorem setRawLine_start (m : Chip) (n : Nat) (l : Line) : (setRawLine m n l).start = m.start := rfl
@[simp] theorem setRawLine_ports (m : Chip) (n : Nat) (l : Line) : (setRawLine m n l).ports = m.ports := rfl
@[simp] theorem setRawLine_d2d (m : Chip) (n : Nat) (l : Line) : (setRawLine m n l).d2d = m.d2d := rfl
@[simp] theorem setRawLine_host (m : Chip) (n : Nat) (l : Line) : (setRawLine m n l).host = m.host := rfl
@[simp] theorem setRawLine_cores (m : Chip) (n : Nat) (l : Line) : (setRawLine m n l).cores = m.cores := rfl
@[simp] theorem setRawLine_code (m : Chip) (n : Nat) (l : Line) : (setRawLine m n l).code = m.code := rfl
@[simp] theorem setRawLine_launches (m : Chip) (n : Nat) (l : Line) : (setRawLine m n l).launches = m.launches := rfl
@[simp] theorem setRawLine_launchId (m : Chip) (n : Nat) (l : Line) : (setRawLine m n l).launchId = m.launchId := rfl
@[simp] theorem setRawLine_launchOrder (m : Chip) (n : Nat) (l : Line) : (setRawLine m n l).launchOrder = m.launchOrder := rfl
@[simp] theorem setRawLine_placeRing (m : Chip) (n : Nat) (l : Line) : (setRawLine m n l).placeRing = m.placeRing := rfl
@[simp] theorem setRawLine_con (m : Chip) (n : Nat) (l : Line) : (setRawLine m n l).con = m.con := rfl
@[simp] theorem setRawLine_credits (m : Chip) (n : Nat) (l : Line) : (setRawLine m n l).credits = m.credits := rfl
@[simp] theorem setRawLine_refillAt (m : Chip) (n : Nat) (l : Line) : (setRawLine m n l).refillAt = m.refillAt := rfl
@[simp] theorem setRawLine_pts (m : Chip) (n : Nat) (l : Line) : (setRawLine m n l).pts = m.pts := rfl

/-! ### bump -/

@[simp] theorem bump_latch (m : Chip) (o n : Nat) : (bump m o n).latch = m.latch := by
  unfold bump; dsimp only; split
  · rfl
  · split <;> rfl
@[simp] theorem bump_hiHeld (m : Chip) (o n : Nat) : (bump m o n).hiHeld = m.hiHeld := by
  unfold bump; dsimp only; split
  · rfl
  · split <;> rfl
@[simp] theorem bump_out (m : Chip) (o n : Nat) : (bump m o n).out = m.out := by
  unfold bump; dsimp only; split
  · rfl
  · split <;> rfl
@[simp] theorem bump_ns (m : Chip) (o n : Nat) : (bump m o n).ns = m.ns := by
  unfold bump; dsimp only; split
  · rfl
  · split <;> rfl
@[simp] theorem bump_freeCtr (m : Chip) (o n : Nat) : (bump m o n).freeCtr = m.freeCtr := by
  unfold bump; dsimp only; split
  · rfl
  · split <;> rfl
@[simp] theorem bump_mem (m : Chip) (o n : Nat) : (bump m o n).mem = m.mem := by
  unfold bump; dsimp only; split
  · rfl
  · split <;> rfl
@[simp] theorem bump_lmeta (m : Chip) (o n : Nat) : (bump m o n).lmeta = m.lmeta := by
  unfold bump; dsimp only; split
  · rfl
  · split <;> rfl
@[simp] theorem bump_buf (m : Chip) (o n : Nat) : (bump m o n).buf = m.buf := by
  unfold bump; dsimp only; split
  · rfl
  · split <;> rfl
@[simp] theorem bump_stks (m : Chip) (o n : Nat) : (bump m o n).stks = m.stks := by
  unfold bump; dsimp only; split
  · rfl
  · split <;> rfl
@[simp] theorem bump_reqs (m : Chip) (o n : Nat) : (bump m o n).reqs = m.reqs := by
  unfold bump; dsimp only; split
  · rfl
  · split <;> rfl
@[simp] theorem bump_resps (m : Chip) (o n : Nat) : (bump m o n).resps = m.resps := by
  unfold bump; dsimp only; split
  · rfl
  · split <;> rfl
@[simp] theorem bump_reqId (m : Chip) (o n : Nat) : (bump m o n).reqId = m.reqId := by
  unfold bump; dsimp only; split
  · rfl
  · split <;> rfl
@[simp] theorem bump_lt (m : Chip) (o n : Nat) : (bump m o n).lt = m.lt := by
  unfold bump; dsimp only; split
  · rfl
  · split <;> rfl
@[simp] theorem bump_rows (m : Chip) (o n : Nat) : (bump m o n).rows = m.rows := by
  unfold bump; dsimp only; split
  · rfl
  · split <;> rfl
@[simp] theorem bump_mb (m : Chip) (o n : Nat) : (bump m o n).mb = m.mb := by
  unfold bump; dsimp only; split
  · rfl
  · split <;> rfl
@[simp] theorem bump_mbOrder (m : Chip) (o n : Nat) : (bump m o n).mbOrder = m.mbOrder := by
  unfold bump; dsimp only; split
  · rfl
  · split <;> rfl
@[simp] theorem bump_rings (m : Chip) (o n : Nat) : (bump m o n).rings = m.rings := by
  unfold bump; dsimp only; split
  · rfl
  · split <;> rfl
@[simp] theorem bump_pwr (m : Chip) (o n : Nat) : (bump m o n).pwr = m.pwr := by
  unfold bump; dsimp only; split
  · rfl
  · split <;> rfl
@[simp] theorem bump_twin (m : Chip) (o n : Nat) : (bump m o n).twin = m.twin := by
  unfold bump; dsimp only; split
  · rfl
  · split <;> rfl
@[simp] theorem bump_start (m : Chip) (o n : Nat) : (bump m o n).start = m.start := by
  unfold bump; dsimp only; split
  · rfl
  · split <;> rfl
@[simp] theorem bump_ports (m : Chip) (o n : Nat) : (bump m o n).ports = m.ports := by
  unfold bump; dsimp only; split
  · rfl
  · split <;> rfl
@[simp] theorem bump_d2d (m : Chip) (o n : Nat) : (bump m o n).d2d = m.d2d := by
  unfold bump; dsimp only; split
  · rfl
  · split <;> rfl
@[simp] theorem bump_host (m : Chip) (o n : Nat) : (bump m o n).host = m.host := by
  unfold bump; dsimp only; split
  · rfl
  · split <;> rfl
@[simp] theorem bump_cores (m : Chip) (o n : Nat) : (bump m o n).cores = m.cores := by
  unfold bump; dsimp only; split
  · rfl
  · split <;> rfl
@[simp] theorem bump_code (m : Chip) (o n : Nat) : (bump m o n).code = m.code := by
  unfold bump; dsimp only; split
  · rfl
  · split <;> rfl
@[simp] theorem bump_launches (m : Chip) (o n : Nat) : (bump m o n).launches = m.launches := by
  unfold bump; dsimp only; split
  · rfl
  · split <;> rfl
@[simp] theorem bump_launchId (m : Chip) (o n : Nat) : (bump m o n).launchId = m.launchId := by
  unfold bump; dsimp only; split
  · rfl
  · split <;> rfl
@[simp] theorem bump_launchOrder (m : Chip) (o n : Nat) : (bump m o n).launchOrder = m.launchOrder := by
  unfold bump; dsimp only; split
  · rfl
  · split <;> rfl
@[simp] theorem bump_placeRing (m : Chip) (o n : Nat) : (bump m o n).placeRing = m.placeRing := by
  unfold bump; dsimp only; split
  · rfl
  · split <;> rfl
@[simp] theorem bump_con (m : Chip) (o n : Nat) : (bump m o n).con = m.con := by
  unfold bump; dsimp only; split
  · rfl
  · split <;> rfl
@[simp] theorem bump_credits (m : Chip) (o n : Nat) : (bump m o n).credits = m.credits := by
  unfold bump; dsimp only; split
  · rfl
  · split <;> rfl
@[simp] theorem bump_refillAt (m : Chip) (o n : Nat) : (bump m o n).refillAt = m.refillAt := by
  unfold bump; dsimp only; split
  · rfl
  · split <;> rfl
@[simp] theorem bump_pts (m : Chip) (o n : Nat) : (bump m o n).pts = m.pts := by
  unfold bump; dsimp only; split
  · rfl
  · split <;> rfl

end Sys2Proof.Laws
end

