-- ==== Sys2Proof/Laws/Tab.lean ====
section
/-! SUPPORT. The laws of sparse tables: a read after a write, and the canonical form. -/

namespace Sys2Proof.Laws

open Sys2Proof.Machine

variable {α : Type}

theorem tget_nil (d : α) (k : Nat) : tget d k [] = d := rfl

/-! ### Reading after a write -/

/-- The key written reads as the value. -/
@[simp] theorem tget_tput_same [DecidableEq α] (d : α) (k : Nat) (v : α) : ∀ t : Tab α, tget d k (tput d k v t) = v
  | [] => by
    by_cases hv : v = d <;> simp [tput, hv, tget]
  | (j, u) :: r => by
    unfold tput
    split
    · split
      · have hj : j ≠ k := by omega
        simp [tget, hj, tget_tput_same d k v r]
      · simp [tget]
    · split
      · split
        · exact tget_tput_same d k v r
        · simp [tget]
      · rename_i hkj
        simp [tget, Ne.symm hkj, tget_tput_same d k v r]

/-- Another key reads as before, whatever an unlisted key reads as. -/
theorem tget_tput_ne' [DecidableEq α] (c d : α) {k i : Nat} (v : α) (hi : i ≠ k) : ∀ t : Tab α, tget c i (tput d k v t) = tget c i t
  | [] => by
    by_cases hv : v = d <;> simp [tput, hv, tget, Ne.symm hi]
  | (j, u) :: r => by
    unfold tput
    split
    · split
      · simp [tget, tget_tput_ne' c d v hi r]
      · simp [tget, Ne.symm hi]
    · split
      · rename_i hkj
        subst hkj
        split
        · simp [tget, Ne.symm hi, tget_tput_ne' c d v hi r]
        · simp [tget, Ne.symm hi]
      · simp [tget, tget_tput_ne' c d v hi r]

/-- Another key reads as before. -/
theorem tget_tput_ne [DecidableEq α] (d : α) {k i : Nat} (v : α) (h : i ≠ k) (t : Tab α) : tget d i (tput d k v t) = tget d i t :=
  tget_tput_ne' d d v h t

/-! ### The canonical form -/

/-- A canonical table stays canonical from any lower bound. -/
theorem twfFrom_mono [DecidableEq α] (d : α) (t : Tab α) {lo hi : Nat} (h : twfFrom d hi t = true) (hl : lo ≤ hi) : twfFrom d lo t = true := by
  cases t with
  | nil => rfl
  | cons e r =>
    obtain ⟨j, v⟩ := e
    simp only [twfFrom, Bool.and_eq_true, decide_eq_true_eq] at h ⊢
    exact ⟨⟨by omega, h.1.2⟩, h.2⟩

/-- Dropping entries keeps the form. -/
theorem twfFrom_filter [DecidableEq α] (d : α) (p : Nat × α → Bool) : ∀ (t : Tab α) (lo : Nat), twfFrom d lo t = true → twfFrom d lo (t.filter p) = true
  | [], _, _ => rfl
  | (j, v) :: r, lo, h => by
    simp only [twfFrom, Bool.and_eq_true, decide_eq_true_eq] at h
    obtain ⟨⟨h1, h2⟩, h3⟩ := h
    rw [List.filter_cons]
    split
    · simp only [twfFrom, Bool.and_eq_true, decide_eq_true_eq]
      exact ⟨⟨h1, h2⟩, twfFrom_filter d p r (j + 1) h3⟩
    · exact twfFrom_mono d _ (twfFrom_filter d p r (j + 1) h3) (by omega)

/-- A write keeps the canonical form from a bound below its key, or from any where the value is not listed. -/
theorem twfFrom_tput [DecidableEq α] (d : α) (k : Nat) (v : α) : ∀ (t : Tab α) (lo : Nat), lo ≤ k ∨ v = d → twfFrom d lo t = true → twfFrom d lo (tput d k v t) = true
  | [], lo, hk, _ => by
    by_cases hv : v = d
    · simp [tput, hv, twfFrom]
    · simp [tput, hv, twfFrom, hk.resolve_right hv]
  | (j, u) :: r, lo, hk, h => by
    have h' := h
    simp only [twfFrom, Bool.and_eq_true, decide_eq_true_eq] at h'
    obtain ⟨⟨h1, h2⟩, h3⟩ := h'
    unfold tput
    split
    · split
      · rename_i hv
        simp only [twfFrom, Bool.and_eq_true, decide_eq_true_eq]
        exact ⟨⟨h1, h2⟩, twfFrom_tput d k v r (j + 1) (.inr hv) h3⟩
      · rename_i hkj hv
        simp only [twfFrom, Bool.and_eq_true, decide_eq_true_eq]
        exact ⟨⟨hk.resolve_right hv, hv⟩, ⟨by omega, h2⟩, h3⟩
    · split
      · split
        · rename_i hv
          exact twfFrom_mono d _ (twfFrom_tput d k v r (j + 1) (.inr hv) h3) (by omega)
        · rename_i hkj hv
          subst hkj
          simp only [twfFrom, Bool.and_eq_true, decide_eq_true_eq]
          exact ⟨⟨h1, hv⟩, h3⟩
      · simp only [twfFrom, Bool.and_eq_true, decide_eq_true_eq]
        exact ⟨⟨h1, h2⟩, twfFrom_tput d k v r (j + 1) (.inl (by omega)) h3⟩

/-- A write keeps the canonical form. -/
theorem twf_tput [DecidableEq α] (d : α) (k : Nat) (v : α) {t : Tab α} (h : twf d t = true) : twf d (tput d k v t) = true :=
  twfFrom_tput d k v t 0 (.inl (Nat.zero_le _)) h

end Sys2Proof.Laws
end

