-- ==== Sys2Proof/Laws/Mem.lean ====
section
/-! SUPPORT. Device memory: every operation on the cells keeps the canonical form, a line reads back as it was stored, and other lines stay. -/

namespace Sys2Proof.Laws

open Sys2Proof.Machine

/-! ### The canonical form -/

theorem wf_putCells : ∀ (bs : List Byte) (mem : Memory) (a : Nat), mem.wf = true → (putCells mem a bs).wf = true
  | [], _, _, h => h
  | b :: bs, mem, a, h => wf_putCells bs (tput 0#8 a b mem) (a + 1) (twf_tput 0#8 a b h)

theorem wf_setRawLine (m : Chip) (ln : Nat) (l : Line) (h : m.mem.wf = true) : (setRawLine m ln l).mem.wf = true := wf_putCells _ _ _ h

theorem wf_reset : State.reset.chip.mem.wf = true := rfl

theorem wf_cellsOutside (mem : Memory) (a n : Nat) (h : mem.wf = true) : Memory.wf (cellsOutside mem a n) = true := twfFrom_filter 0#8 _ _ _ h

theorem wf_clearRange (m : Chip) (a n : Nat) (h : m.mem.wf = true) : (clearRange m a n).mem.wf = true := wf_cellsOutside _ _ _ h

/-! ### Bytes -/

/-- A store leaves every byte outside it. -/
theorem tget_putCells_out : ∀ (bs : List Byte) (mem : Memory) (a x : Nat), (x < a ∨ a + bs.length ≤ x) → tget 0#8 x (putCells mem a bs) = tget 0#8 x mem
  | [], _, _, _, _ => rfl
  | b :: bs, mem, a, x, h => by
    simp only [List.length_cons] at h
    rw [putCells, tget_putCells_out bs (tput 0#8 a b mem) (a + 1) x (by omega), tget_tput_ne 0#8 b (by omega) mem]

/-- A byte stored reads back. -/
theorem tget_putCells_in : ∀ (bs : List Byte) (mem : Memory) (a i : Nat), i < bs.length → tget 0#8 (a + i) (putCells mem a bs) = bs.getD i 0#8
  | [], _, _, _, h => absurd h (Nat.not_lt_zero _)
  | b :: bs, mem, a, 0, _ => by
    rw [putCells, tget_putCells_out bs _ (a + 1) (a + 0) (by omega)]
    simp
  | b :: bs, mem, a, i + 1, h => by
    rw [putCells, show a + (i + 1) = a + 1 + i by omega, tget_putCells_in bs _ (a + 1) i (by simpa using h)]
    simp

theorem cellBytes_length (mem : Memory) (a n : Nat) : (cellBytes mem a n).length = n := by simp [cellBytes]

/-- Bytes just stored read back as stored. -/
theorem cellBytes_putCells (mem : Memory) (a : Nat) (bs : List Byte) : cellBytes (putCells mem a bs) a bs.length = bs := by
  apply List.ext_getElem
  · simp [cellBytes]
  · intro i h1 h2
    simp only [cellBytes, List.getElem_map, List.getElem_range]
    rw [tget_putCells_in bs mem a i h2]
    simp [List.getD, h2]

/-- Bytes of another range read as before. -/
theorem cellBytes_putCells_out (mem : Memory) (a b n : Nat) (bs : List Byte) (h : b + n ≤ a ∨ a + bs.length ≤ b) :
    cellBytes (putCells mem a bs) b n = cellBytes mem b n := by
  apply List.ext_getElem
  · simp [cellBytes]
  · intro i h1 h2
    simp only [cellBytes, List.length_map, List.length_range] at h1
    simp only [cellBytes, List.getElem_map, List.getElem_range]
    exact tget_putCells_out bs mem a (b + i) (by omega)

/-! ### Lines -/

/-- Another line reads as before. -/
theorem rawLine_setRawLine_ne (m : Chip) (ln k : Nat) (l : Line) (hl : l.data.length = 128) (h : k ≠ ln) : rawLine (setRawLine m ln l) k = rawLine m k := by
  have h1 : cellBytes (putCells m.mem (ln * 128) l.data) (k * 128) 128 = cellBytes m.mem (k * 128) 128 :=
    cellBytes_putCells_out _ _ _ _ _ (by omega)
  unfold rawLine setRawLine
  dsimp only
  rw [h1, tget_tput_ne _ _ h]

/-- A line reads back as it was stored. -/
theorem rawLine_setRawLine (m : Chip) (ln : Nat) (l : Line) (hl : l.data.length = 128) :
    rawLine (setRawLine m ln l) ln = l := by
  have h1 : cellBytes (putCells m.mem (ln * 128) l.data) (ln * 128) 128 = l.data := by
    rw [← hl]; exact hl ▸ cellBytes_putCells m.mem (ln * 128) l.data
  unfold rawLine setRawLine
  dsimp only
  rw [h1, tget_tput_same]
  dsimp only
  rw [Nat.xor_comm, Nat.xor_assoc, Nat.xor_self, Nat.xor_zero]

end Sys2Proof.Laws
end

