-- ==== Sys2Proof/Laws/Plain.lean ====
section
/-! SUPPORT. The plain commands, one lemma each: what acts on the powered module alone leaves the board and the queue as they are. -/

namespace Sys2Proof.Laws

open Sys2Proof.Machine

theorem plain_registerWrite (s : State) off_ val_ : Plain (exec (.registerWrite off_ val_) s) s := by
  change Plain (execRegisterWrite off_ val_ s) s
  unfold execRegisterWrite; exact plain_run _ _
theorem plain_readLoLatch (s : State) off_ : Plain (exec (.readLoLatch off_) s) s := by
  change Plain (execReadLoLatch off_ s) s
  unfold execReadLoLatch; exact plain_run _ _
theorem plain_counterOvfClear (s : State) off_ val_ : Plain (exec (.counterOvfClear off_ val_) s) s := by
  change Plain (execCounterOvfClear off_ val_ s) s
  unfold execCounterOvfClear; exact plain_run _ _
theorem plain_ctrlAccessError (s : State) off_ size_ write_ : Plain (exec (.ctrlAccessError off_ size_ write_) s) s := by
  change Plain (execCtrlAccessError off_ size_ write_ s) s
  unfold execCtrlAccessError; exact plain_run _ _
theorem plain_undefinedRegAccess (s : State) off_ write_ : Plain (exec (.undefinedRegAccess off_ write_) s) s := by
  change Plain (execUndefinedRegAccess off_ write_ s) s
  unfold execUndefinedRegAccess; exact plain_run _ _
theorem plain_ltrefLock (s : State) : Plain (exec (.ltrefLock) s) s := by
  change Plain (execLtrefLock s) s
  unfold execLtrefLock; exact plain_run _ _
theorem plain_ltrefLoss (s : State) : Plain (exec (.ltrefLoss) s) s := by
  change Plain (execLtrefLoss s) s
  unfold execLtrefLoss; exact plain_run _ _
theorem plain_ltepochPulse (s : State) : Plain (exec (.ltepochPulse) s) s := by
  change Plain (execLtepochPulse s) s
  unfold execLtepochPulse; exact plain_run _ _
theorem plain_epochBoundary (s : State) : Plain (exec (.epochBoundary) s) s := by
  change Plain (execEpochBoundary s) s
  unfold execEpochBoundary; exact plain_runIf _ _ _
theorem plain_holdoverExpire (s : State) : Plain (exec (.holdoverExpire) s) s := by
  change Plain (execHoldoverExpire s) s
  unfold execHoldoverExpire; exact plain_runIf _ _ _
theorem plain_ttLockTimeout (s : State) : Plain (exec (.ttLockTimeout) s) s := by
  change Plain (execTtLockTimeout s) s
  unfold execTtLockTimeout; exact plain_runIf _ _ _
theorem plain_markReqRx (s : State) port_ sub_ : Plain (exec (.markReqRx port_ sub_) s) s := by
  change Plain (execMarkReqRx port_ sub_ s) s
  unfold execMarkReqRx; exact plain_runIf _ _ _
theorem plain_markRepRx (s : State) port_ t2_ t3_ hops_ state_ sub_ : Plain (exec (.markRepRx port_ t2_ t3_ hops_ state_ sub_) s) s := by
  change Plain (execMarkRepRx port_ t2_ t3_ hops_ state_ sub_ s) s
  unfold execMarkRepRx; exact plain_runIf _ _ _
theorem plain_rowArm (s : State) row_ : Plain (exec (.rowArm row_) s) s := by
  change Plain (execRowArm row_ s) s
  unfold execRowArm; exact plain_runIf _ _ _
theorem plain_slotWindowOpen (s : State) row_ : Plain (exec (.slotWindowOpen row_) s) s := by
  change Plain (execSlotWindowOpen row_ s) s
  unfold execSlotWindowOpen; exact plain_runIf _ _ _
theorem plain_recvWindowOpen (s : State) row_ : Plain (exec (.recvWindowOpen row_) s) s := by
  change Plain (execRecvWindowOpen row_ s) s
  unfold execRecvWindowOpen; exact plain_runIf _ _ _
theorem plain_exchangeWindowOpen (s : State) row_ : Plain (exec (.exchangeWindowOpen row_) s) s := by
  change Plain (execExchangeWindowOpen row_ s) s
  unfold execExchangeWindowOpen; exact plain_runIf _ _ _
theorem plain_refreshWindowOpen (s : State) row_ : Plain (exec (.refreshWindowOpen row_) s) s := by
  change Plain (execRefreshWindowOpen row_ s) s
  unfold execRefreshWindowOpen; exact plain_runIf _ _ _
theorem plain_possessionWindowOpen (s : State) row_ : Plain (exec (.possessionWindowOpen row_) s) s := by
  change Plain (execPossessionWindowOpen row_ s) s
  unfold execPossessionWindowOpen; exact plain_runIf _ _ _
theorem plain_throttleWindowOpen (s : State) row_ : Plain (exec (.throttleWindowOpen row_) s) s := by
  change Plain (execThrottleWindowOpen row_ s) s
  unfold execThrottleWindowOpen; exact plain_runIf _ _ _
theorem plain_journalWindowOpen (s : State) row_ : Plain (exec (.journalWindowOpen row_) s) s := by
  change Plain (execJournalWindowOpen row_ s) s
  unfold execJournalWindowOpen; exact plain_runIf _ _ _
theorem plain_signalRowFire (s : State) row_ : Plain (exec (.signalRowFire row_) s) s := by
  change Plain (execSignalRowFire row_ s) s
  unfold execSignalRowFire; exact plain_runIf _ _ _
theorem plain_markRowFire (s : State) row_ : Plain (exec (.markRowFire row_) s) s := by
  change Plain (execMarkRowFire row_ s) s
  unfold execMarkRowFire; exact plain_runIf _ _ _
theorem plain_rowWindowEnd (s : State) row_ : Plain (exec (.rowWindowEnd row_) s) s := by
  change Plain (execRowWindowEnd row_ s) s
  unfold execRowWindowEnd; exact plain_runIf _ _ _
theorem plain_recvWindowClose (s : State) row_ : Plain (exec (.recvWindowClose row_) s) s := by
  change Plain (execRecvWindowClose row_ s) s
  unfold execRecvWindowClose; exact plain_runIf _ _ _
theorem plain_lateReadyOmit (s : State) row_ : Plain (exec (.lateReadyOmit row_) s) s := by
  change Plain (execLateReadyOmit row_ s) s
  unfold execLateReadyOmit; exact plain_runIf _ _ _
theorem plain_ttLock (s : State) m_ : Plain (exec (.ttLock m_) s) s := by
  change Plain (execTtLock m_ s) s
  unfold execTtLock; exact plain_runCmd _ _ _ _
theorem plain_ttNow (s : State) m_ : Plain (exec (.ttNow m_) s) s := by
  change Plain (execTtNow m_ s) s
  unfold execTtNow; exact plain_runCmd _ _ _ _
theorem plain_ttSchedule (s : State) m_ : Plain (exec (.ttSchedule m_) s) s := by
  change Plain (execTtSchedule m_ s) s
  unfold execTtSchedule; exact plain_runCmd _ _ _ _
theorem plain_ttPost (s : State) m_ : Plain (exec (.ttPost m_) s) s := by
  change Plain (execTtPost m_ s) s
  unfold execTtPost; exact plain_runCmd _ _ _ _
theorem plain_ttCancel (s : State) m_ : Plain (exec (.ttCancel m_) s) s := by
  change Plain (execTtCancel m_ s) s
  unfold execTtCancel; exact plain_runCmd _ _ _ _
theorem plain_ttList (s : State) m_ : Plain (exec (.ttList m_) s) s := by
  change Plain (execTtList m_ s) s
  unfold execTtList; exact plain_runCmd _ _ _ _
theorem plain_ttArm (s : State) m_ : Plain (exec (.ttArm m_) s) s := by
  change Plain (execTtArm m_ s) s
  unfold execTtArm; exact plain_runCmd _ _ _ _
theorem plain_blockPlace (s : State) : Plain (exec (.blockPlace) s) s := by
  change Plain (execBlockPlace s) s
  unfold execBlockPlace; exact plain_runIf _ _ _
theorem plain_barrierStall (s : State) core_ block_ : Plain (exec (.barrierStall core_ block_) s) s := by
  change Plain (execBarrierStall core_ block_ s) s
  unfold execBarrierStall; exact plain_runIf _ _ _
theorem plain_l0LineFill (s : State) core_ id_ : Plain (exec (.l0LineFill core_ id_) s) s := by
  change Plain (execL0LineFill core_ id_ s) s
  unfold execL0LineFill; exact plain_runIf _ _ _
theorem plain_uwaitPoll (s : State) core_ slot_ : Plain (exec (.uwaitPoll core_ slot_) s) s := by
  change Plain (execUwaitPoll core_ slot_ s) s
  unfold execUwaitPoll; exact plain_runIf _ _ _
theorem plain_uwaitTimeout (s : State) core_ slot_ : Plain (exec (.uwaitTimeout core_ slot_) s) s := by
  change Plain (execUwaitTimeout core_ slot_ s) s
  unfold execUwaitTimeout; exact plain_runIf _ _ _
theorem plain_l0InvAllWrite (s : State) val_ : Plain (exec (.l0InvAllWrite val_) s) s := by
  change Plain (execL0InvAllWrite val_ s) s
  unfold execL0InvAllWrite; exact plain_run _ _
theorem plain_diagCore (s : State) m_ : Plain (exec (.diagCore m_) s) s := by
  change Plain (execDiagCore m_ s) s
  unfold execDiagCore; exact plain_runCmd _ _ _ _
theorem plain_mmaArrayComplete (s : State) core_ : Plain (exec (.mmaArrayComplete core_) s) s := by
  change Plain (execMmaArrayComplete core_ s) s
  unfold execMmaArrayComplete; exact plain_runIf _ _ _
theorem plain_nop (s : State) core_ slot_ w_ : Plain (exec (.nop core_ slot_ w_) s) s := by
  change Plain (execNop core_ slot_ w_ s) s
  unfold execNop; exact plain_issueAlu _ _ _ _ _ _
theorem plain_bra (s : State) core_ slot_ w_ : Plain (exec (.bra core_ slot_ w_) s) s := by
  change Plain (execBra core_ slot_ w_ s) s
  unfold execBra; exact plain_issueOp _ _ _ _ _ _
theorem plain_call (s : State) core_ slot_ w_ : Plain (exec (.call core_ slot_ w_) s) s := by
  change Plain (execCall core_ slot_ w_ s) s
  unfold execCall; exact plain_issueOp _ _ _ _ _ _
theorem plain_jmp (s : State) core_ slot_ w_ : Plain (exec (.jmp core_ slot_ w_) s) s := by
  change Plain (execJmp core_ slot_ w_ s) s
  unfold execJmp; exact plain_issueOp _ _ _ _ _ _
theorem plain_exit (s : State) core_ slot_ w_ : Plain (exec (.exit core_ slot_ w_) s) s := by
  change Plain (execExit core_ slot_ w_ s) s
  unfold execExit; exact plain_issueOp _ _ _ _ _ _
theorem plain_bar (s : State) core_ slot_ w_ : Plain (exec (.bar core_ slot_ w_) s) s := by
  change Plain (execBar core_ slot_ w_ s) s
  unfold execBar; exact plain_issueOp _ _ _ _ _ _
theorem plain_trap (s : State) core_ slot_ w_ : Plain (exec (.trap core_ slot_ w_) s) s := by
  change Plain (execTrap core_ slot_ w_ s) s
  unfold execTrap; exact plain_issueOp _ _ _ _ _ _
theorem plain_iadd (s : State) core_ slot_ w_ : Plain (exec (.iadd core_ slot_ w_) s) s := by
  change Plain (execIadd core_ slot_ w_ s) s
  unfold execIadd; exact plain_issueAlu _ _ _ _ _ _
theorem plain_isub (s : State) core_ slot_ w_ : Plain (exec (.isub core_ slot_ w_) s) s := by
  change Plain (execIsub core_ slot_ w_ s) s
  unfold execIsub; exact plain_issueAlu _ _ _ _ _ _
theorem plain_imul (s : State) core_ slot_ w_ : Plain (exec (.imul core_ slot_ w_) s) s := by
  change Plain (execImul core_ slot_ w_ s) s
  unfold execImul; exact plain_issueAlu _ _ _ _ _ _
theorem plain_imulhi (s : State) core_ slot_ w_ : Plain (exec (.imulhi core_ slot_ w_) s) s := by
  change Plain (execImulhi core_ slot_ w_ s) s
  unfold execImulhi; exact plain_issueAlu _ _ _ _ _ _
theorem plain_imac (s : State) core_ slot_ w_ : Plain (exec (.imac core_ slot_ w_) s) s := by
  change Plain (execImac core_ slot_ w_ s) s
  unfold execImac; exact plain_issueAlu _ _ _ _ _ _
theorem plain_imin (s : State) core_ slot_ w_ : Plain (exec (.imin core_ slot_ w_) s) s := by
  change Plain (execImin core_ slot_ w_ s) s
  unfold execImin; exact plain_issueAlu _ _ _ _ _ _
theorem plain_imax (s : State) core_ slot_ w_ : Plain (exec (.imax core_ slot_ w_) s) s := by
  change Plain (execImax core_ slot_ w_ s) s
  unfold execImax; exact plain_issueAlu _ _ _ _ _ _
theorem plain_shl (s : State) core_ slot_ w_ : Plain (exec (.shl core_ slot_ w_) s) s := by
  change Plain (execShl core_ slot_ w_ s) s
  unfold execShl; exact plain_issueAlu _ _ _ _ _ _
theorem plain_shr (s : State) core_ slot_ w_ : Plain (exec (.shr core_ slot_ w_) s) s := by
  change Plain (execShr core_ slot_ w_ s) s
  unfold execShr; exact plain_issueAlu _ _ _ _ _ _
theorem plain_andI (s : State) core_ slot_ w_ : Plain (exec (.andI core_ slot_ w_) s) s := by
  change Plain (execAndI core_ slot_ w_ s) s
  unfold execAndI; exact plain_issueAlu _ _ _ _ _ _
theorem plain_orI (s : State) core_ slot_ w_ : Plain (exec (.orI core_ slot_ w_) s) s := by
  change Plain (execOrI core_ slot_ w_ s) s
  unfold execOrI; exact plain_issueAlu _ _ _ _ _ _
theorem plain_xorI (s : State) core_ slot_ w_ : Plain (exec (.xorI core_ slot_ w_) s) s := by
  change Plain (execXorI core_ slot_ w_ s) s
  unfold execXorI; exact plain_issueAlu _ _ _ _ _ _
theorem plain_pcnt (s : State) core_ slot_ w_ : Plain (exec (.pcnt core_ slot_ w_) s) s := by
  change Plain (execPcnt core_ slot_ w_ s) s
  unfold execPcnt; exact plain_issueAlu _ _ _ _ _ _
theorem plain_clz (s : State) core_ slot_ w_ : Plain (exec (.clz core_ slot_ w_) s) s := by
  change Plain (execClz core_ slot_ w_ s) s
  unfold execClz; exact plain_issueAlu _ _ _ _ _ _
theorem plain_bext (s : State) core_ slot_ w_ : Plain (exec (.bext core_ slot_ w_) s) s := by
  change Plain (execBext core_ slot_ w_ s) s
  unfold execBext; exact plain_issueAlu _ _ _ _ _ _
theorem plain_bins (s : State) core_ slot_ w_ : Plain (exec (.bins core_ slot_ w_) s) s := by
  change Plain (execBins core_ slot_ w_ s) s
  unfold execBins; exact plain_issueAlu _ _ _ _ _ _
theorem plain_mov (s : State) core_ slot_ w_ : Plain (exec (.mov core_ slot_ w_) s) s := by
  change Plain (execMov core_ slot_ w_ s) s
  unfold execMov; exact plain_issueAlu _ _ _ _ _ _
theorem plain_movi (s : State) core_ slot_ w_ : Plain (exec (.movi core_ slot_ w_) s) s := by
  change Plain (execMovi core_ slot_ w_ s) s
  unfold execMovi; exact plain_issueAlu _ _ _ _ _ _
theorem plain_sel (s : State) core_ slot_ w_ : Plain (exec (.sel core_ slot_ w_) s) s := by
  change Plain (execSel core_ slot_ w_ s) s
  unfold execSel; exact plain_issueAlu _ _ _ _ _ _
theorem plain_bsel (s : State) core_ slot_ w_ : Plain (exec (.bsel core_ slot_ w_) s) s := by
  change Plain (execBsel core_ slot_ w_ s) s
  unfold execBsel; exact plain_issueAlu _ _ _ _ _ _
theorem plain_xlane (s : State) core_ slot_ w_ : Plain (exec (.xlane core_ slot_ w_) s) s := by
  change Plain (execXlane core_ slot_ w_ s) s
  unfold execXlane; exact plain_issueAlu _ _ _ _ _ _
theorem plain_rdsp (s : State) core_ slot_ w_ : Plain (exec (.rdsp core_ slot_ w_) s) s := by
  change Plain (execRdsp core_ slot_ w_ s) s
  unfold execRdsp; exact plain_issueOp _ _ _ _ _ _
theorem plain_iadd64 (s : State) core_ slot_ w_ : Plain (exec (.iadd64 core_ slot_ w_) s) s := by
  change Plain (execIadd64 core_ slot_ w_ s) s
  unfold execIadd64; exact plain_issueAlu _ _ _ _ _ _
theorem plain_fadd (s : State) core_ slot_ w_ : Plain (exec (.fadd core_ slot_ w_) s) s := by
  change Plain (execFadd core_ slot_ w_ s) s
  unfold execFadd; exact plain_issueAlu _ _ _ _ _ _
theorem plain_fmul (s : State) core_ slot_ w_ : Plain (exec (.fmul core_ slot_ w_) s) s := by
  change Plain (execFmul core_ slot_ w_ s) s
  unfold execFmul; exact plain_issueAlu _ _ _ _ _ _
theorem plain_fmac (s : State) core_ slot_ w_ : Plain (exec (.fmac core_ slot_ w_) s) s := by
  change Plain (execFmac core_ slot_ w_ s) s
  unfold execFmac; exact plain_issueAlu _ _ _ _ _ _
theorem plain_fmin (s : State) core_ slot_ w_ : Plain (exec (.fmin core_ slot_ w_) s) s := by
  change Plain (execFmin core_ slot_ w_ s) s
  unfold execFmin; exact plain_issueAlu _ _ _ _ _ _
theorem plain_fmax (s : State) core_ slot_ w_ : Plain (exec (.fmax core_ slot_ w_) s) s := by
  change Plain (execFmax core_ slot_ w_ s) s
  unfold execFmax; exact plain_issueAlu _ _ _ _ _ _
theorem plain_pkadd (s : State) core_ slot_ w_ : Plain (exec (.pkadd core_ slot_ w_) s) s := by
  change Plain (execPkadd core_ slot_ w_ s) s
  unfold execPkadd; exact plain_issueAlu _ _ _ _ _ _
theorem plain_pkmul (s : State) core_ slot_ w_ : Plain (exec (.pkmul core_ slot_ w_) s) s := by
  change Plain (execPkmul core_ slot_ w_ s) s
  unfold execPkmul; exact plain_issueAlu _ _ _ _ _ _
theorem plain_pkmac (s : State) core_ slot_ w_ : Plain (exec (.pkmac core_ slot_ w_) s) s := by
  change Plain (execPkmac core_ slot_ w_ s) s
  unfold execPkmac; exact plain_issueAlu _ _ _ _ _ _
theorem plain_pkmin (s : State) core_ slot_ w_ : Plain (exec (.pkmin core_ slot_ w_) s) s := by
  change Plain (execPkmin core_ slot_ w_ s) s
  unfold execPkmin; exact plain_issueAlu _ _ _ _ _ _
theorem plain_pkmax (s : State) core_ slot_ w_ : Plain (exec (.pkmax core_ slot_ w_) s) s := by
  change Plain (execPkmax core_ slot_ w_ s) s
  unfold execPkmax; exact plain_issueAlu _ _ _ _ _ _
theorem plain_cvt (s : State) core_ slot_ w_ : Plain (exec (.cvt core_ slot_ w_) s) s := by
  change Plain (execCvt core_ slot_ w_ s) s
  unfold execCvt; exact plain_issueAlu _ _ _ _ _ _
theorem plain_rcp (s : State) core_ slot_ w_ : Plain (exec (.rcp core_ slot_ w_) s) s := by
  change Plain (execRcp core_ slot_ w_ s) s
  unfold execRcp; exact plain_issueAlu _ _ _ _ _ _
theorem plain_rsq (s : State) core_ slot_ w_ : Plain (exec (.rsq core_ slot_ w_) s) s := by
  change Plain (execRsq core_ slot_ w_ s) s
  unfold execRsq; exact plain_issueAlu _ _ _ _ _ _
theorem plain_sqrt (s : State) core_ slot_ w_ : Plain (exec (.sqrt core_ slot_ w_) s) s := by
  change Plain (execSqrt core_ slot_ w_ s) s
  unfold execSqrt; exact plain_issueAlu _ _ _ _ _ _
theorem plain_exp2 (s : State) core_ slot_ w_ : Plain (exec (.exp2 core_ slot_ w_) s) s := by
  change Plain (execExp2 core_ slot_ w_ s) s
  unfold execExp2; exact plain_issueAlu _ _ _ _ _ _
theorem plain_log2 (s : State) core_ slot_ w_ : Plain (exec (.log2 core_ slot_ w_) s) s := by
  change Plain (execLog2 core_ slot_ w_ s) s
  unfold execLog2; exact plain_issueAlu _ _ _ _ _ _
theorem plain_tanh (s : State) core_ slot_ w_ : Plain (exec (.tanh core_ slot_ w_) s) s := by
  change Plain (execTanh core_ slot_ w_ s) s
  unfold execTanh; exact plain_issueAlu _ _ _ _ _ _
theorem plain_icmp (s : State) core_ slot_ w_ : Plain (exec (.icmp core_ slot_ w_) s) s := by
  change Plain (execIcmp core_ slot_ w_ s) s
  unfold execIcmp; exact plain_issueAlu _ _ _ _ _ _
theorem plain_fcmp (s : State) core_ slot_ w_ : Plain (exec (.fcmp core_ slot_ w_) s) s := by
  change Plain (execFcmp core_ slot_ w_ s) s
  unfold execFcmp; exact plain_issueAlu _ _ _ _ _ _
theorem plain_pcomb (s : State) core_ slot_ w_ : Plain (exec (.pcomb core_ slot_ w_) s) s := by
  change Plain (execPcomb core_ slot_ w_ s) s
  unfold execPcomb; exact plain_issueAlu _ _ _ _ _ _
theorem plain_pgrp (s : State) core_ slot_ w_ : Plain (exec (.pgrp core_ slot_ w_) s) s := by
  change Plain (execPgrp core_ slot_ w_ s) s
  unfold execPgrp; exact plain_issueAlu _ _ _ _ _ _
theorem plain_p2v (s : State) core_ slot_ w_ : Plain (exec (.p2v core_ slot_ w_) s) s := by
  change Plain (execP2v core_ slot_ w_ s) s
  unfold execP2v; exact plain_issueAlu _ _ _ _ _ _
theorem plain_v2p (s : State) core_ slot_ w_ : Plain (exec (.v2p core_ slot_ w_) s) s := by
  change Plain (execV2p core_ slot_ w_ s) s
  unfold execV2p; exact plain_issueAlu _ _ _ _ _ _
theorem plain_uadd (s : State) core_ slot_ w_ : Plain (exec (.uadd core_ slot_ w_) s) s := by
  change Plain (execUadd core_ slot_ w_ s) s
  unfold execUadd; exact plain_issueAlu _ _ _ _ _ _
theorem plain_usub (s : State) core_ slot_ w_ : Plain (exec (.usub core_ slot_ w_) s) s := by
  change Plain (execUsub core_ slot_ w_ s) s
  unfold execUsub; exact plain_issueAlu _ _ _ _ _ _
theorem plain_umul (s : State) core_ slot_ w_ : Plain (exec (.umul core_ slot_ w_) s) s := by
  change Plain (execUmul core_ slot_ w_ s) s
  unfold execUmul; exact plain_issueAlu _ _ _ _ _ _
theorem plain_uand (s : State) core_ slot_ w_ : Plain (exec (.uand core_ slot_ w_) s) s := by
  change Plain (execUand core_ slot_ w_ s) s
  unfold execUand; exact plain_issueAlu _ _ _ _ _ _
theorem plain_uor (s : State) core_ slot_ w_ : Plain (exec (.uor core_ slot_ w_) s) s := by
  change Plain (execUor core_ slot_ w_ s) s
  unfold execUor; exact plain_issueAlu _ _ _ _ _ _
theorem plain_uxor (s : State) core_ slot_ w_ : Plain (exec (.uxor core_ slot_ w_) s) s := by
  change Plain (execUxor core_ slot_ w_ s) s
  unfold execUxor; exact plain_issueAlu _ _ _ _ _ _
theorem plain_ushl (s : State) core_ slot_ w_ : Plain (exec (.ushl core_ slot_ w_) s) s := by
  change Plain (execUshl core_ slot_ w_ s) s
  unfold execUshl; exact plain_issueAlu _ _ _ _ _ _
theorem plain_ushr (s : State) core_ slot_ w_ : Plain (exec (.ushr core_ slot_ w_) s) s := by
  change Plain (execUshr core_ slot_ w_ s) s
  unfold execUshr; exact plain_issueAlu _ _ _ _ _ _
theorem plain_umov (s : State) core_ slot_ w_ : Plain (exec (.umov core_ slot_ w_) s) s := by
  change Plain (execUmov core_ slot_ w_ s) s
  unfold execUmov; exact plain_issueAlu _ _ _ _ _ _
theorem plain_umovi (s : State) core_ slot_ w_ : Plain (exec (.umovi core_ slot_ w_) s) s := by
  change Plain (execUmovi core_ slot_ w_ s) s
  unfold execUmovi; exact plain_issueAlu _ _ _ _ _ _
theorem plain_uadd64 (s : State) core_ slot_ w_ : Plain (exec (.uadd64 core_ slot_ w_) s) s := by
  change Plain (execUadd64 core_ slot_ w_ s) s
  unfold execUadd64; exact plain_issueAlu _ _ _ _ _ _
theorem plain_ucmp (s : State) core_ slot_ w_ : Plain (exec (.ucmp core_ slot_ w_) s) s := by
  change Plain (execUcmp core_ slot_ w_ s) s
  unfold execUcmp; exact plain_issueAlu _ _ _ _ _ _
theorem plain_urdsp (s : State) core_ slot_ w_ : Plain (exec (.urdsp core_ slot_ w_) s) s := by
  change Plain (execUrdsp core_ slot_ w_ s) s
  unfold execUrdsp; exact plain_issueOp _ _ _ _ _ _
theorem plain_ld (s : State) core_ slot_ w_ : Plain (exec (.ld core_ slot_ w_) s) s := by
  change Plain (execLd core_ slot_ w_ s) s
  unfold execLd; exact plain_issueOp _ _ _ _ _ _
theorem plain_st (s : State) core_ slot_ w_ : Plain (exec (.st core_ slot_ w_) s) s := by
  change Plain (execSt core_ slot_ w_ s) s
  unfold execSt; exact plain_issueOp _ _ _ _ _ _
theorem plain_fence (s : State) core_ slot_ w_ : Plain (exec (.fence core_ slot_ w_) s) s := by
  change Plain (execFence core_ slot_ w_ s) s
  unfold execFence; exact plain_issueOp _ _ _ _ _ _
theorem plain_l0inv (s : State) core_ slot_ w_ : Plain (exec (.l0inv core_ slot_ w_) s) s := by
  change Plain (execL0inv core_ slot_ w_ s) s
  unfold execL0inv; exact plain_issueOp _ _ _ _ _ _
theorem plain_uld (s : State) core_ slot_ w_ : Plain (exec (.uld core_ slot_ w_) s) s := by
  change Plain (execUld core_ slot_ w_ s) s
  unfold execUld; exact plain_issueOp _ _ _ _ _ _
theorem plain_uwait (s : State) core_ slot_ w_ : Plain (exec (.uwait core_ slot_ w_) s) s := by
  change Plain (execUwait core_ slot_ w_ s) s
  unfold execUwait; exact plain_issueOp _ _ _ _ _ _
theorem plain_atomAdd (s : State) core_ slot_ w_ : Plain (exec (.atomAdd core_ slot_ w_) s) s := by
  change Plain (execAtomAdd core_ slot_ w_ s) s
  unfold execAtomAdd; exact plain_issueOp _ _ _ _ _ _
theorem plain_atomFadd (s : State) core_ slot_ w_ : Plain (exec (.atomFadd core_ slot_ w_) s) s := by
  change Plain (execAtomFadd core_ slot_ w_ s) s
  unfold execAtomFadd; exact plain_issueOp _ _ _ _ _ _
theorem plain_atomSmin (s : State) core_ slot_ w_ : Plain (exec (.atomSmin core_ slot_ w_) s) s := by
  change Plain (execAtomSmin core_ slot_ w_ s) s
  unfold execAtomSmin; exact plain_issueOp _ _ _ _ _ _
theorem plain_atomSmax (s : State) core_ slot_ w_ : Plain (exec (.atomSmax core_ slot_ w_) s) s := by
  change Plain (execAtomSmax core_ slot_ w_ s) s
  unfold execAtomSmax; exact plain_issueOp _ _ _ _ _ _
theorem plain_atomUmin (s : State) core_ slot_ w_ : Plain (exec (.atomUmin core_ slot_ w_) s) s := by
  change Plain (execAtomUmin core_ slot_ w_ s) s
  unfold execAtomUmin; exact plain_issueOp _ _ _ _ _ _
theorem plain_atomUmax (s : State) core_ slot_ w_ : Plain (exec (.atomUmax core_ slot_ w_) s) s := by
  change Plain (execAtomUmax core_ slot_ w_ s) s
  unfold execAtomUmax; exact plain_issueOp _ _ _ _ _ _
theorem plain_atomAnd (s : State) core_ slot_ w_ : Plain (exec (.atomAnd core_ slot_ w_) s) s := by
  change Plain (execAtomAnd core_ slot_ w_ s) s
  unfold execAtomAnd; exact plain_issueOp _ _ _ _ _ _
theorem plain_atomOr (s : State) core_ slot_ w_ : Plain (exec (.atomOr core_ slot_ w_) s) s := by
  change Plain (execAtomOr core_ slot_ w_ s) s
  unfold execAtomOr; exact plain_issueOp _ _ _ _ _ _
theorem plain_atomXor (s : State) core_ slot_ w_ : Plain (exec (.atomXor core_ slot_ w_) s) s := by
  change Plain (execAtomXor core_ slot_ w_ s) s
  unfold execAtomXor; exact plain_issueOp _ _ _ _ _ _
theorem plain_atomExch (s : State) core_ slot_ w_ : Plain (exec (.atomExch core_ slot_ w_) s) s := by
  change Plain (execAtomExch core_ slot_ w_ s) s
  unfold execAtomExch; exact plain_issueOp _ _ _ _ _ _
theorem plain_atomCas (s : State) core_ slot_ w_ : Plain (exec (.atomCas core_ slot_ w_) s) s := by
  change Plain (execAtomCas core_ slot_ w_ s) s
  unfold execAtomCas; exact plain_issueOp _ _ _ _ _ _
theorem plain_sig (s : State) core_ slot_ w_ : Plain (exec (.sig core_ slot_ w_) s) s := by
  change Plain (execSig core_ slot_ w_ s) s
  unfold execSig; exact plain_issueOp _ _ _ _ _ _
theorem plain_mma (s : State) core_ slot_ w_ : Plain (exec (.mma core_ slot_ w_) s) s := by
  change Plain (execMma core_ slot_ w_ s) s
  unfold execMma; exact plain_issueOp _ _ _ _ _ _
theorem plain_tzero (s : State) core_ slot_ w_ : Plain (exec (.tzero core_ slot_ w_) s) s := by
  change Plain (execTzero core_ slot_ w_ s) s
  unfold execTzero; exact plain_issueOp _ _ _ _ _ _
theorem plain_trd (s : State) core_ slot_ w_ : Plain (exec (.trd core_ slot_ w_) s) s := by
  change Plain (execTrd core_ slot_ w_ s) s
  unfold execTrd; exact plain_issueOp _ _ _ _ _ _
theorem plain_twr (s : State) core_ slot_ w_ : Plain (exec (.twr core_ slot_ w_) s) s := by
  change Plain (execTwr core_ slot_ w_ s) s
  unfold execTwr; exact plain_issueOp _ _ _ _ _ _
theorem plain_tst (s : State) core_ slot_ w_ : Plain (exec (.tst core_ slot_ w_) s) s := by
  change Plain (execTst core_ slot_ w_ s) s
  unfold execTst; exact plain_issueOp _ _ _ _ _ _
theorem plain_sliceRead (s : State) g_ : Plain (exec (.sliceRead g_) s) s := by
  change Plain (execSliceRead g_ s) s
  unfold execSliceRead; exact plain_run _ _
theorem plain_sliceWrite (s : State) g_ : Plain (exec (.sliceWrite g_) s) s := by
  change Plain (execSliceWrite g_ s) s
  unfold execSliceWrite; exact plain_run _ _
theorem plain_slicePartialWrite (s : State) g_ : Plain (exec (.slicePartialWrite g_) s) s := by
  change Plain (execSlicePartialWrite g_ s) s
  unfold execSlicePartialWrite; exact plain_run _ _
theorem plain_collectAtomic (s : State) g_ : Plain (exec (.collectAtomic g_) s) s := by
  change Plain (execCollectAtomic g_ s) s
  unfold execCollectAtomic; exact plain_run _ _
theorem plain_collectReduce (s : State) g_ : Plain (exec (.collectReduce g_) s) s := by
  change Plain (execCollectReduce g_ s) s
  unfold execCollectReduce; exact plain_run _ _
theorem plain_sliceClassDPromote (s : State) g_ id_ : Plain (exec (.sliceClassDPromote g_ id_) s) s := by
  change Plain (execSliceClassDPromote g_ id_ s) s
  unfold execSliceClassDPromote; exact plain_runIf _ _ _
theorem plain_cacheFillReturn (s : State) id_ : Plain (exec (.cacheFillReturn id_) s) s := by
  change Plain (execCacheFillReturn id_ s) s
  unfold execCacheFillReturn; exact plain_run _ _
theorem plain_evictionWriteback (s : State) half_ : Plain (exec (.evictionWriteback half_) s) s := by
  change Plain (execEvictionWriteback half_ s) s
  unfold execEvictionWriteback; exact plain_run _ _
theorem plain_evictionRoomResume (s : State) half_ : Plain (exec (.evictionRoomResume half_) s) s := by
  change Plain (execEvictionRoomResume half_ s) s
  unfold execEvictionRoomResume; exact plain_run _ _
theorem plain_sidingDrain (s : State) half_ : Plain (exec (.sidingDrain half_) s) s := by
  change Plain (execSidingDrain half_ s) s
  unfold execSidingDrain; exact plain_run _ _
theorem plain_sidingRoomResume (s : State) half_ : Plain (exec (.sidingRoomResume half_) s) s := by
  change Plain (execSidingRoomResume half_ s) s
  unfold execSidingRoomResume; exact plain_run _ _
theorem plain_bufScrubLine (s : State) half_ : Plain (exec (.bufScrubLine half_) s) s := by
  change Plain (execBufScrubLine half_ s) s
  unfold execBufScrubLine; exact plain_run _ _
theorem plain_bufCtrlFlush (s : State) val_ : Plain (exec (.bufCtrlFlush val_) s) s := by
  change Plain (execBufCtrlFlush val_ s) s
  unfold execBufCtrlFlush; exact plain_runIf _ _ _
theorem plain_bufRegion (s : State) m_ : Plain (exec (.bufRegion m_) s) s := by
  change Plain (execBufRegion m_ s) s
  unfold execBufRegion; exact plain_runCmd _ _ _ _
theorem plain_bufFlush (s : State) m_ : Plain (exec (.bufFlush m_) s) s := by
  change Plain (execBufFlush m_ s) s
  unfold execBufFlush; exact plain_runCmd _ _ _ _
theorem plain_bufScrub (s : State) m_ : Plain (exec (.bufScrub m_) s) s := by
  change Plain (execBufScrub m_ s) s
  unfold execBufScrub; exact plain_runCmd _ _ _ _
theorem plain_bufClear (s : State) m_ : Plain (exec (.bufClear m_) s) s := by
  change Plain (execBufClear m_ s) s
  unfold execBufClear; exact plain_runCmd _ _ _ _
theorem plain_bufFlip (s : State) m_ : Plain (exec (.bufFlip m_) s) s := by
  change Plain (execBufFlip m_ s) s
  unfold execBufFlip; exact plain_runCmd _ _ _ _
theorem plain_conDescriptorAccept (s : State) ring_ : Plain (exec (.conDescriptorAccept ring_) s) s := by
  change Plain (execConDescriptorAccept ring_ s) s
  unfold execConDescriptorAccept; exact plain_runIf _ _ _
theorem plain_conWaitPoll (s : State) die_ id_ : Plain (exec (.conWaitPoll die_ id_) s) s := by
  change Plain (execConWaitPoll die_ id_ s) s
  unfold execConWaitPoll; exact plain_runIf _ _ _
theorem plain_conWaitTimeout (s : State) die_ id_ : Plain (exec (.conWaitTimeout die_ id_) s) s := by
  change Plain (execConWaitTimeout die_ id_ s) s
  unfold execConWaitTimeout; exact plain_runIf _ _ _
theorem plain_fetchWagonStart (s : State) die_ : Plain (exec (.fetchWagonStart die_) s) s := by
  change Plain (execFetchWagonStart die_ s) s
  unfold execFetchWagonStart; exact plain_runIf _ _ _
theorem plain_fetchLineReturn (s : State) die_ id_ : Plain (exec (.fetchLineReturn die_ id_) s) s := by
  change Plain (execFetchLineReturn die_ id_ s) s
  unfold execFetchLineReturn; exact plain_run _ _
theorem plain_expandWagon (s : State) die_ engine_ : Plain (exec (.expandWagon die_ engine_) s) s := by
  change Plain (execExpandWagon die_ engine_ s) s
  unfold execExpandWagon; exact plain_runIf _ _ _
theorem plain_expandHand (s : State) die_ engine_ : Plain (exec (.expandHand die_ engine_) s) s := by
  change Plain (execExpandHand die_ engine_ s) s
  unfold execExpandHand; exact plain_run _ _
theorem plain_stageWagonWrite (s : State) die_ wagon_ : Plain (exec (.stageWagonWrite die_ wagon_) s) s := by
  change Plain (execStageWagonWrite die_ wagon_ s) s
  unfold execStageWagonWrite; exact plain_runIf _ _ _
theorem plain_stageWagonRetire (s : State) die_ wagon_ : Plain (exec (.stageWagonRetire die_ wagon_) s) s := by
  change Plain (execStageWagonRetire die_ wagon_ s) s
  unfold execStageWagonRetire; exact plain_run _ _
theorem plain_despatchWagon (s : State) row_ die_ : Plain (exec (.despatchWagon row_ die_) s) s := by
  change Plain (execDespatchWagon row_ die_ s) s
  unfold execDespatchWagon; exact plain_runIf _ _ _
theorem plain_consistReclaimDone (s : State) die_ handoff_ : Plain (exec (.consistReclaimDone die_ handoff_) s) s := by
  change Plain (execConsistReclaimDone die_ handoff_ s) s
  unfold execConsistReclaimDone; exact plain_runIf _ _ _
theorem plain_regulatorRefill (s : State) k_ : Plain (exec (.regulatorRefill k_) s) s := by
  change Plain (execRegulatorRefill k_ s) s
  unfold execRegulatorRefill; exact plain_runIf _ _ _
theorem plain_conResetWrite (s : State) val_ : Plain (exec (.conResetWrite val_) s) s := by
  change Plain (execConResetWrite val_ s) s
  unfold execConResetWrite; exact plain_run _ _
theorem plain_conRun (s : State) m_ : Plain (exec (.conRun m_) s) s := by
  change Plain (execConRun m_ s) s
  unfold execConRun; exact plain_runCmd _ _ _ _
theorem plain_conRegulate (s : State) m_ : Plain (exec (.conRegulate m_) s) s := by
  change Plain (execConRegulate m_ s) s
  unfold execConRegulate; exact plain_runCmd _ _ _ _
theorem plain_conReset (s : State) m_ : Plain (exec (.conReset m_) s) s := by
  change Plain (execConReset m_ s) s
  unfold execConReset; exact plain_runCmd _ _ _ _
theorem plain_ptsJobAccept (s : State) engine_ : Plain (exec (.ptsJobAccept engine_) s) s := by
  change Plain (execPtsJobAccept engine_ s) s
  unfold execPtsJobAccept; exact plain_runIf _ _ _
theorem plain_ptsWaitPoll (s : State) engine_ : Plain (exec (.ptsWaitPoll engine_) s) s := by
  change Plain (execPtsWaitPoll engine_ s) s
  unfold execPtsWaitPoll; exact plain_runIf _ _ _
theorem plain_ptsWaitTimeout (s : State) engine_ : Plain (exec (.ptsWaitTimeout engine_) s) s := by
  change Plain (execPtsWaitTimeout engine_ s) s
  unfold execPtsWaitTimeout; exact plain_runIf _ _ _
theorem plain_routeJobRun (s : State) engine_ : Plain (exec (.routeJobRun engine_) s) s := by
  change Plain (execRouteJobRun engine_ s) s
  unfold execRouteJobRun; exact plain_runIf _ _ _
theorem plain_tallyJobRun (s : State) engine_ : Plain (exec (.tallyJobRun engine_) s) s := by
  change Plain (execTallyJobRun engine_ s) s
  unfold execTallyJobRun; exact plain_runIf _ _ _
theorem plain_ptsJobComplete (s : State) engine_ : Plain (exec (.ptsJobComplete engine_) s) s := by
  change Plain (execPtsJobComplete engine_ s) s
  unfold execPtsJobComplete; exact plain_runIf _ _ _
theorem plain_gatePoll (s : State) id_ : Plain (exec (.gatePoll id_) s) s := by
  change Plain (execGatePoll id_ s) s
  unfold execGatePoll; exact plain_runIf _ _ _
theorem plain_gateTimeout (s : State) id_ : Plain (exec (.gateTimeout id_) s) s := by
  change Plain (execGateTimeout id_ s) s
  unfold execGateTimeout; exact plain_runIf _ _ _
theorem plain_ptsTblDataWrite (s : State) val_ : Plain (exec (.ptsTblDataWrite val_) s) s := by
  change Plain (execPtsTblDataWrite val_ s) s
  unfold execPtsTblDataWrite; exact plain_run _ _
theorem plain_ptsResetWrite (s : State) val_ : Plain (exec (.ptsResetWrite val_) s) s := by
  change Plain (execPtsResetWrite val_ s) s
  unfold execPtsResetWrite; exact plain_run _ _
theorem plain_ptsTable (s : State) m_ : Plain (exec (.ptsTable m_) s) s := by
  change Plain (execPtsTable m_ s) s
  unfold execPtsTable; exact plain_runCmd _ _ _ _
theorem plain_ptsRoute (s : State) m_ : Plain (exec (.ptsRoute m_) s) s := by
  change Plain (execPtsRoute m_ s) s
  unfold execPtsRoute; exact plain_runCmd _ _ _ _
theorem plain_ptsTally (s : State) m_ : Plain (exec (.ptsTally m_) s) s := by
  change Plain (execPtsTally m_ s) s
  unfold execPtsTally; exact plain_runCmd _ _ _ _
theorem plain_ptsReset (s : State) m_ : Plain (exec (.ptsReset m_) s) s := by
  change Plain (execPtsReset m_ s) s
  unfold execPtsReset; exact plain_runCmd _ _ _ _
theorem plain_hbmRead (s : State) stack_ : Plain (exec (.hbmRead stack_) s) s := by
  change Plain (execHbmRead stack_ s) s
  unfold execHbmRead; exact plain_run _ _
theorem plain_hbmWrite (s : State) stack_ : Plain (exec (.hbmWrite stack_) s) s := by
  change Plain (execHbmWrite stack_ s) s
  unfold execHbmWrite; exact plain_run _ _
theorem plain_hbmPartialWrite (s : State) stack_ : Plain (exec (.hbmPartialWrite stack_) s) s := by
  change Plain (execHbmPartialWrite stack_ s) s
  unfold execHbmPartialWrite; exact plain_run _ _
theorem plain_hbmClassDPromote (s : State) stack_ id_ : Plain (exec (.hbmClassDPromote stack_ id_) s) s := by
  change Plain (execHbmClassDPromote stack_ id_ s) s
  unfold execHbmClassDPromote; exact plain_runIf _ _ _
theorem plain_refreshTimer (s : State) stack_ : Plain (exec (.refreshTimer stack_) s) s := by
  change Plain (execRefreshTimer stack_ s) s
  unfold execRefreshTimer; exact plain_runIf _ _ _
theorem plain_hbmTrainingFinish (s : State) stack_ pass_ setting_ : Plain (exec (.hbmTrainingFinish stack_ pass_ setting_) s) s := by
  change Plain (execHbmTrainingFinish stack_ pass_ setting_ s) s
  unfold execHbmTrainingFinish; exact plain_run _ _
theorem plain_hbmTempRead (s : State) stack_ temp_ : Plain (exec (.hbmTempRead stack_ temp_) s) s := by
  change Plain (execHbmTempRead stack_ temp_ s) s
  unfold execHbmTempRead; exact plain_runIf _ _ _
theorem plain_hbmScrubLine (s : State) stack_ : Plain (exec (.hbmScrubLine stack_) s) s := by
  change Plain (execHbmScrubLine stack_ s) s
  unfold execHbmScrubLine; exact plain_run _ _
theorem plain_hbmOosWrite (s : State) stack_ val_ : Plain (exec (.hbmOosWrite stack_ val_) s) s := by
  change Plain (execHbmOosWrite stack_ val_ s) s
  unfold execHbmOosWrite; exact plain_runIf _ _ _
theorem plain_hbmDrainDone (s : State) stack_ : Plain (exec (.hbmDrainDone stack_) s) s := by
  change Plain (execHbmDrainDone stack_ s) s
  unfold execHbmDrainDone; exact plain_runIf _ _ _
theorem plain_hbmService (s : State) m_ : Plain (exec (.hbmService m_) s) s := by
  change Plain (execHbmService m_ s) s
  unfold execHbmService; exact plain_runCmd _ _ _ _
theorem plain_hbmThrottle (s : State) m_ : Plain (exec (.hbmThrottle m_) s) s := by
  change Plain (execHbmThrottle m_ s) s
  unfold execHbmThrottle; exact plain_runCmd _ _ _ _
theorem plain_hbmScrub (s : State) m_ : Plain (exec (.hbmScrub m_) s) s := by
  change Plain (execHbmScrub m_ s) s
  unfold execHbmScrub; exact plain_runCmd _ _ _ _
theorem plain_hbmFlip (s : State) m_ : Plain (exec (.hbmFlip m_) s) s := by
  change Plain (execHbmFlip m_ s) s
  unfold execHbmFlip; exact plain_runCmd _ _ _ _
theorem plain_hbmStatus (s : State) m_ : Plain (exec (.hbmStatus m_) s) s := by
  change Plain (execHbmStatus m_ s) s
  unfold execHbmStatus; exact plain_runCmd _ _ _ _
theorem plain_diagHbm (s : State) m_ : Plain (exec (.diagHbm m_) s) s := by
  change Plain (execDiagHbm m_ s) s
  unfold execDiagHbm; exact plain_runCmd _ _ _ _
theorem plain_laneSignalDetect (s : State) port_ lane_ : Plain (exec (.laneSignalDetect port_ lane_) s) s := by
  change Plain (execLaneSignalDetect port_ lane_ s) s
  unfold execLaneSignalDetect; exact plain_runIf _ _ _
theorem plain_laneCdrLock (s : State) port_ lane_ : Plain (exec (.laneCdrLock port_ lane_) s) s := by
  change Plain (execLaneCdrLock port_ lane_ s) s
  unfold execLaneCdrLock; exact plain_runIf _ _ _
theorem plain_laneFrameLock (s : State) port_ lane_ skew_ field_ : Plain (exec (.laneFrameLock port_ lane_ skew_ field_) s) s := by
  change Plain (execLaneFrameLock port_ lane_ skew_ field_ s) s
  unfold execLaneFrameLock; exact plain_runIf _ _ _
theorem plain_laneAdaptPass (s : State) port_ lane_ corrected_ uncorr_ : Plain (exec (.laneAdaptPass port_ lane_ corrected_ uncorr_) s) s := by
  change Plain (execLaneAdaptPass port_ lane_ corrected_ uncorr_ s) s
  unfold execLaneAdaptPass; exact plain_runIf _ _ _
theorem plain_laneAdaptTimeout (s : State) port_ lane_ : Plain (exec (.laneAdaptTimeout port_ lane_) s) s := by
  change Plain (execLaneAdaptTimeout port_ lane_ s) s
  unfold execLaneAdaptTimeout; exact plain_runIf _ _ _
theorem plain_laneRateStep (s : State) port_ farOk_ farReq_ farMax_ : Plain (exec (.laneRateStep port_ farOk_ farReq_ farMax_) s) s := by
  change Plain (execLaneRateStep port_ farOk_ farReq_ farMax_ s) s
  unfold execLaneRateStep; exact plain_runIf _ _ _
theorem plain_portBringupTimeout (s : State) port_ : Plain (exec (.portBringupTimeout port_) s) s := by
  change Plain (execPortBringupTimeout port_ s) s
  unfold execPortBringupTimeout; exact plain_runIf _ _ _
theorem plain_laneFrameReceive (s : State) port_ lane_ hdr_ errs_ msg_ : Plain (exec (.laneFrameReceive port_ lane_ hdr_ errs_ msg_) s) s := by
  change Plain (execLaneFrameReceive port_ lane_ hdr_ errs_ msg_ s) s
  unfold execLaneFrameReceive; exact plain_runIf _ _ _
theorem plain_laneFail (s : State) port_ lane_ cause_ : Plain (exec (.laneFail port_ lane_ cause_) s) s := by
  change Plain (execLaneFail port_ lane_ cause_ s) s
  unfold execLaneFail; exact plain_runIf _ _ _
theorem plain_eyeStartWrite (s : State) port_ val_ : Plain (exec (.eyeStartWrite port_ val_) s) s := by
  change Plain (execEyeStartWrite port_ val_ s) s
  unfold execEyeStartWrite; exact plain_runIf _ _ _
theorem plain_eyePointDone (s : State) port_ errs_ : Plain (exec (.eyePointDone port_ errs_) s) s := by
  change Plain (execEyePointDone port_ errs_ s) s
  unfold execEyePointDone; exact plain_runIf _ _ _
theorem plain_farLoopExit (s : State) port_ : Plain (exec (.farLoopExit port_) s) s := by
  change Plain (execFarLoopExit port_ s) s
  unfold execFarLoopExit; exact plain_runIf _ _ _
theorem plain_laneEnWrite (s : State) port_ val_ : Plain (exec (.laneEnWrite port_ val_) s) s := by
  change Plain (execLaneEnWrite port_ val_ s) s
  unfold execLaneEnWrite; exact plain_runIf _ _ _
theorem plain_loopSelectWrite (s : State) port_ val_ : Plain (exec (.loopSelectWrite port_ val_) s) s := by
  change Plain (execLoopSelectWrite port_ val_ s) s
  unfold execLoopSelectWrite; exact plain_runIf _ _ _
theorem plain_lnkOosWrite (s : State) port_ val_ : Plain (exec (.lnkOosWrite port_ val_) s) s := by
  change Plain (execLnkOosWrite port_ val_ s) s
  unfold execLnkOosWrite; exact plain_runIf _ _ _
theorem plain_lnkEye (s : State) m_ : Plain (exec (.lnkEye m_) s) s := by
  change Plain (execLnkEye m_ s) s
  unfold execLnkEye; exact plain_runCmd _ _ _ _
theorem plain_lnkLoop (s : State) m_ : Plain (exec (.lnkLoop m_) s) s := by
  change Plain (execLnkLoop m_ s) s
  unfold execLnkLoop; exact plain_runCmd _ _ _ _
theorem plain_lnkLane (s : State) m_ : Plain (exec (.lnkLane m_) s) s := by
  change Plain (execLnkLane m_ s) s
  unfold execLnkLane; exact plain_runCmd _ _ _ _
theorem plain_lnkService (s : State) m_ : Plain (exec (.lnkService m_) s) s := by
  change Plain (execLnkService m_ s) s
  unfold execLnkService; exact plain_runCmd _ _ _ _
theorem plain_lnkStatus (s : State) m_ : Plain (exec (.lnkStatus m_) s) s := by
  change Plain (execLnkStatus m_ s) s
  unfold execLnkStatus; exact plain_runCmd _ _ _ _
theorem plain_lnkTopo (s : State) m_ : Plain (exec (.lnkTopo m_) s) s := by
  change Plain (execLnkTopo m_ s) s
  unfold execLnkTopo; exact plain_runCmd _ _ _ _
theorem plain_flitDataWriteRx (s : State) port_ f_ : Plain (exec (.flitDataWriteRx port_ f_) s) s := by
  change Plain (execFlitDataWriteRx port_ f_ s) s
  unfold execFlitDataWriteRx; exact plain_runIf _ _ _
theorem plain_flitDataReduceRx (s : State) port_ f_ : Plain (exec (.flitDataReduceRx port_ f_) s) s := by
  change Plain (execFlitDataReduceRx port_ f_ s) s
  unfold execFlitDataReduceRx; exact plain_runIf _ _ _
theorem plain_voidMarkerRx (s : State) port_ f_ : Plain (exec (.voidMarkerRx port_ f_) s) s := by
  change Plain (execVoidMarkerRx port_ f_ s) s
  unfold execVoidMarkerRx; exact plain_runIf _ _ _
theorem plain_reqReadRx (s : State) port_ f_ : Plain (exec (.reqReadRx port_ f_) s) s := by
  change Plain (execReqReadRx port_ f_ s) s
  unfold execReqReadRx; exact plain_runIf _ _ _
theorem plain_reqWriteRx (s : State) port_ f_ : Plain (exec (.reqWriteRx port_ f_) s) s := by
  change Plain (execReqWriteRx port_ f_ s) s
  unfold execReqWriteRx; exact plain_runIf _ _ _
theorem plain_reqMaskedWriteRx (s : State) port_ f_ : Plain (exec (.reqMaskedWriteRx port_ f_) s) s := by
  change Plain (execReqMaskedWriteRx port_ f_ s) s
  unfold execReqMaskedWriteRx; exact plain_runIf _ _ _
theorem plain_reqAtomicRx (s : State) port_ f_ : Plain (exec (.reqAtomicRx port_ f_) s) s := by
  change Plain (execReqAtomicRx port_ f_ s) s
  unfold execReqAtomicRx; exact plain_runIf _ _ _
theorem plain_respReadDataRx (s : State) port_ f_ : Plain (exec (.respReadDataRx port_ f_) s) s := by
  change Plain (execRespReadDataRx port_ f_ s) s
  unfold execRespReadDataRx; exact plain_runIf _ _ _
theorem plain_respWriteAckRx (s : State) port_ f_ : Plain (exec (.respWriteAckRx port_ f_) s) s := by
  change Plain (execRespWriteAckRx port_ f_ s) s
  unfold execRespWriteAckRx; exact plain_runIf _ _ _
theorem plain_respAtomicResultRx (s : State) port_ f_ : Plain (exec (.respAtomicResultRx port_ f_) s) s := by
  change Plain (execRespAtomicResultRx port_ f_ s) s
  unfold execRespAtomicResultRx; exact plain_runIf _ _ _
theorem plain_respErrorRx (s : State) port_ f_ : Plain (exec (.respErrorRx port_ f_) s) s := by
  change Plain (execRespErrorRx port_ f_ s) s
  unfold execRespErrorRx; exact plain_runIf _ _ _
theorem plain_idleRx (s : State) port_ f_ : Plain (exec (.idleRx port_ f_) s) s := by
  change Plain (execIdleRx port_ f_ s) s
  unfold execIdleRx; exact plain_runIf _ _ _
theorem plain_nakRx (s : State) port_ f_ : Plain (exec (.nakRx port_ f_) s) s := by
  change Plain (execNakRx port_ f_ s) s
  unfold execNakRx; exact plain_runIf _ _ _
theorem plain_auditRx (s : State) port_ f_ : Plain (exec (.auditRx port_ f_) s) s := by
  change Plain (execAuditRx port_ f_ s) s
  unfold execAuditRx; exact plain_runIf _ _ _
theorem plain_reclaimReqRx (s : State) port_ f_ : Plain (exec (.reclaimReqRx port_ f_) s) s := by
  change Plain (execReclaimReqRx port_ f_ s) s
  unfold execReclaimReqRx; exact plain_runIf _ _ _
theorem plain_reclaimRepRx (s : State) port_ f_ : Plain (exec (.reclaimRepRx port_ f_) s) s := by
  change Plain (execReclaimRepRx port_ f_ s) s
  unfold execReclaimRepRx; exact plain_runIf _ _ _
theorem plain_identRx (s : State) port_ f_ : Plain (exec (.identRx port_ f_) s) s := by
  change Plain (execIdentRx port_ f_ s) s
  unfold execIdentRx; exact plain_runIf _ _ _
theorem plain_departRx (s : State) port_ f_ : Plain (exec (.departRx port_ f_) s) s := by
  change Plain (execDepartRx port_ f_ s) s
  unfold execDepartRx; exact plain_runIf _ _ _
theorem plain_routedRx (s : State) port_ f_ : Plain (exec (.routedRx port_ f_) s) s := by
  change Plain (execRoutedRx port_ f_ s) s
  unfold execRoutedRx; exact plain_runIf _ _ _
theorem plain_replayTimeout (s : State) port_ : Plain (exec (.replayTimeout port_) s) s := by
  change Plain (execReplayTimeout port_ s) s
  unfold execReplayTimeout; exact plain_runIf _ _ _
theorem plain_nakRepeat (s : State) port_ : Plain (exec (.nakRepeat port_) s) s := by
  change Plain (execNakRepeat port_ s) s
  unfold execNakRepeat; exact plain_runIf _ _ _
theorem plain_linkLockTimeout (s : State) port_ : Plain (exec (.linkLockTimeout port_) s) s := by
  change Plain (execLinkLockTimeout port_ s) s
  unfold execLinkLockTimeout; exact plain_runIf _ _ _
theorem plain_linkDrainEnd (s : State) port_ : Plain (exec (.linkDrainEnd port_) s) s := by
  change Plain (execLinkDrainEnd port_ s) s
  unfold execLinkDrainEnd; exact plain_runIf _ _ _
theorem plain_linkReclaimWrite (s : State) port_ val_ : Plain (exec (.linkReclaimWrite port_ val_) s) s := by
  change Plain (execLinkReclaimWrite port_ val_ s) s
  unfold execLinkReclaimWrite; exact plain_runIf _ _ _
theorem plain_linkRetrainWrite (s : State) port_ val_ : Plain (exec (.linkRetrainWrite port_ val_) s) s := by
  change Plain (execLinkRetrainWrite port_ val_ s) s
  unfold execLinkRetrainWrite; exact plain_runIf _ _ _
theorem plain_d2dReclaimDone (s : State) unit_ : Plain (exec (.d2dReclaimDone unit_) s) s := by
  change Plain (execD2dReclaimDone unit_ s) s
  unfold execD2dReclaimDone; exact plain_runIf _ _ _
theorem plain_laneCheckTurn (s : State) unit_ fails_ : Plain (exec (.laneCheckTurn unit_ fails_) s) s := by
  change Plain (execLaneCheckTurn unit_ fails_ s) s
  unfold execLaneCheckTurn; exact plain_runIf _ _ _
theorem plain_clockLoss (s : State) clock_ : Plain (exec (.clockLoss clock_) s) s := by
  change Plain (execClockLoss clock_ s) s
  unfold execClockLoss; exact plain_runIf _ _ _
theorem plain_computeDieLost (s : State) die_ cause_ : Plain (exec (.computeDieLost die_ cause_) s) s := by
  change Plain (execComputeDieLost die_ cause_ s) s
  unfold execComputeDieLost; exact plain_runIf _ _ _
theorem plain_dieFenceComplete (s : State) die_ : Plain (exec (.dieFenceComplete die_) s) s := by
  change Plain (execDieFenceComplete die_ s) s
  unfold execDieFenceComplete; exact plain_runIf _ _ _
theorem plain_roleFatal (s : State) base_ kind_ : Plain (exec (.roleFatal base_ kind_) s) s := by
  change Plain (execRoleFatal base_ kind_ s) s
  unfold execRoleFatal; exact plain_runIf _ _ _
theorem plain_d2dMapDataAccess (s : State) write_ val_ : Plain (exec (.d2dMapDataAccess write_ val_) s) s := by
  change Plain (execD2dMapDataAccess write_ val_ s) s
  unfold execD2dMapDataAccess; exact plain_run _ _
theorem plain_d2dDie (s : State) m_ : Plain (exec (.d2dDie m_) s) s := by
  change Plain (execD2dDie m_ s) s
  unfold execD2dDie; exact plain_runCmd _ _ _ _
theorem plain_d2dCheck (s : State) m_ : Plain (exec (.d2dCheck m_) s) s := by
  change Plain (execD2dCheck m_ s) s
  unfold execD2dCheck; exact plain_runCmd _ _ _ _
theorem plain_d2dMap (s : State) m_ : Plain (exec (.d2dMap m_) s) s := by
  change Plain (execD2dMap m_ s) s
  unfold execD2dMap; exact plain_runCmd _ _ _ _
theorem plain_d2dStatus (s : State) m_ : Plain (exec (.d2dStatus m_) s) s := by
  change Plain (execD2dStatus m_ s) s
  unfold execD2dStatus; exact plain_runCmd _ _ _ _
theorem plain_diagD2d (s : State) m_ : Plain (exec (.diagD2d m_) s) s := by
  change Plain (execDiagD2d m_ s) s
  unfold execDiagD2d; exact plain_runCmd _ _ _ _
theorem plain_hostMemRead (s : State) off_ : Plain (exec (.hostMemRead off_) s) s := by
  change Plain (execHostMemRead off_ s) s
  unfold execHostMemRead; exact plain_runIf _ _ _
theorem plain_hostMemWrite (s : State) off_ data_ mask_ : Plain (exec (.hostMemWrite off_ data_ mask_) s) s := by
  change Plain (execHostMemWrite off_ data_ mask_ s) s
  unfold execHostMemWrite; exact plain_runIf _ _ _
theorem plain_hostIoRead (s : State) path_ off_ len_ : Plain (exec (.hostIoRead path_ off_ len_) s) s := by
  change Plain (execHostIoRead path_ off_ len_ s) s
  unfold execHostIoRead; exact plain_runIf _ _ _
theorem plain_hostIoWrite (s : State) path_ off_ data_ relaxed_ : Plain (exec (.hostIoWrite path_ off_ data_ relaxed_) s) s := by
  change Plain (execHostIoWrite path_ off_ data_ relaxed_ s) s
  unfold execHostIoWrite; exact plain_runIf _ _ _
theorem plain_hostAtomicop (s : State) path_ off_ op_ size_ val_ cmp_ : Plain (exec (.hostAtomicop path_ off_ op_ size_ val_ cmp_) s) s := by
  change Plain (execHostAtomicop path_ off_ op_ size_ val_ cmp_ s) s
  unfold execHostAtomicop; exact plain_runIf _ _ _
theorem plain_biasRecallResponse (s : State) granule_ line_ dirty_ data_ : Plain (exec (.biasRecallResponse granule_ line_ dirty_ data_) s) s := by
  change Plain (execBiasRecallResponse granule_ line_ dirty_ data_ s) s
  unfold execBiasRecallResponse; exact plain_runIf _ _ _
theorem plain_biasFlipHostComplete (s : State) granule_ : Plain (exec (.biasFlipHostComplete granule_) s) s := by
  change Plain (execBiasFlipHostComplete granule_ s) s
  unfold execBiasFlipHostComplete; exact plain_runIf _ _ _
theorem plain_biasDwellExpire (s : State) granule_ : Plain (exec (.biasDwellExpire granule_) s) s := by
  change Plain (execBiasDwellExpire granule_ s) s
  unfold execBiasDwellExpire; exact plain_runIf _ _ _
theorem plain_readaheadExpire (s : State) path_ line_ : Plain (exec (.readaheadExpire path_ line_) s) s := by
  change Plain (execReadaheadExpire path_ line_ s) s
  unfold execReadaheadExpire; exact plain_runIf _ _ _
theorem plain_hostReadaheadWrite (s : State) val_ : Plain (exec (.hostReadaheadWrite val_) s) s := by
  change Plain (execHostReadaheadWrite val_ s) s
  unfold execHostReadaheadWrite; exact plain_runIf _ _ _
theorem plain_hostBiasDataAccess (s : State) write_ val_ : Plain (exec (.hostBiasDataAccess write_ val_) s) s := by
  change Plain (execHostBiasDataAccess write_ val_ s) s
  unfold execHostBiasDataAccess; exact plain_run _ _
theorem plain_hostDoorbellWrite (s : State) n_ val_ : Plain (exec (.hostDoorbellWrite n_ val_) s) s := by
  change Plain (execHostDoorbellWrite n_ val_ s) s
  unfold execHostDoorbellWrite; exact plain_runIf _ _ _
theorem plain_eventRingDoorbell (s : State) n_ val_ : Plain (exec (.eventRingDoorbell n_ val_) s) s := by
  change Plain (execEventRingDoorbell n_ val_ s) s
  unfold execEventRingDoorbell; exact plain_runIf _ _ _
theorem plain_ringEntryReread (s : State) n_ : Plain (exec (.ringEntryReread n_) s) s := by
  change Plain (execRingEntryReread n_ s) s
  unfold execRingEntryReread; exact plain_runIf _ _ _
theorem plain_doorbellAhead (s : State) n_ : Plain (exec (.doorbellAhead n_) s) s := by
  change Plain (execDoorbellAhead n_ s) s
  unfold execDoorbellAhead; exact plain_runIf _ _ _
theorem plain_h0LinkDown (s : State) : Plain (exec (.h0LinkDown) s) s := by
  change Plain (execH0LinkDown s) s
  unfold execH0LinkDown; exact plain_runIf _ _ _
theorem plain_h1LinkLoss (s : State) : Plain (exec (.h1LinkLoss) s) s := by
  change Plain (execH1LinkLoss s) s
  unfold execH1LinkLoss; exact plain_run _ _
theorem plain_h1Perst (s : State) : Plain (exec (.h1Perst) s) s := by
  change Plain (execH1Perst s) s
  unfold execH1Perst; exact plain_run _ _
theorem plain_msixGapExpire (s : State) vector_ : Plain (exec (.msixGapExpire vector_) s) s := by
  change Plain (execMsixGapExpire vector_ s) s
  unfold execMsixGapExpire; exact plain_runIf _ _ _
theorem plain_hostWindow (s : State) m_ : Plain (exec (.hostWindow m_) s) s := by
  change Plain (execHostWindow m_ s) s
  unfold execHostWindow; exact plain_runCmd _ _ _ _
theorem plain_hostBias (s : State) m_ : Plain (exec (.hostBias m_) s) s := by
  change Plain (execHostBias m_ s) s
  unfold execHostBias; exact plain_runCmd _ _ _ _
theorem plain_hostPolicy (s : State) m_ : Plain (exec (.hostPolicy m_) s) s := by
  change Plain (execHostPolicy m_ s) s
  unfold execHostPolicy; exact plain_runCmd _ _ _ _
theorem plain_mailboxGo (s : State) m_ val_ : Plain (exec (.mailboxGo m_ val_) s) s := by
  change Plain (execMailboxGo m_ val_ s) s
  unfold execMailboxGo; exact plain_runIf _ _ _
theorem plain_commandWaitResume (s : State) m_ : Plain (exec (.commandWaitResume m_) s) s := by
  change Plain (execCommandWaitResume m_ s) s
  unfold execCommandWaitResume; exact plain_runIf _ _ _
theorem plain_launchAccept (s : State) ring_ : Plain (exec (.launchAccept ring_) s) s := by
  change Plain (execLaunchAccept ring_ s) s
  unfold execLaunchAccept; exact plain_runIf _ _ _
theorem plain_sysSize (s : State) m_ : Plain (exec (.sysSize m_) s) s := by
  change Plain (execSysSize m_ s) s
  unfold execSysSize; exact plain_runCmd _ _ _ _
theorem plain_sysIdent (s : State) m_ : Plain (exec (.sysIdent m_) s) s := by
  change Plain (execSysIdent m_ s) s
  unfold execSysIdent; exact plain_runCmd _ _ _ _
theorem plain_sysState (s : State) m_ : Plain (exec (.sysState m_) s) s := by
  change Plain (execSysState m_ s) s
  unfold execSysState; exact plain_runCmd _ _ _ _
theorem plain_sysRing (s : State) m_ : Plain (exec (.sysRing m_) s) s := by
  change Plain (execSysRing m_ s) s
  unfold execSysRing; exact plain_runCmd _ _ _ _
theorem plain_sysAbort (s : State) m_ : Plain (exec (.sysAbort m_) s) s := by
  change Plain (execSysAbort m_ s) s
  unfold execSysAbort; exact plain_runCmd _ _ _ _
theorem plain_secMeasure (s : State) m_ : Plain (exec (.secMeasure m_) s) s := by
  change Plain (execSecMeasure m_ s) s
  unfold execSecMeasure; exact plain_runCmd _ _ _ _
theorem plain_secAttest (s : State) m_ : Plain (exec (.secAttest m_) s) s := by
  change Plain (execSecAttest m_ s) s
  unfold execSecAttest; exact plain_runCmd _ _ _ _
theorem plain_heartbeatRx (s : State) port_ f_ : Plain (exec (.heartbeatRx port_ f_) s) s := by
  change Plain (execHeartbeatRx port_ f_ s) s
  unfold execHeartbeatRx; exact plain_runIf _ _ _
theorem plain_jendRx (s : State) port_ f_ : Plain (exec (.jendRx port_ f_) s) s := by
  change Plain (execJendRx port_ f_ s) s
  unfold execJendRx; exact plain_runIf _ _ _
theorem plain_jackRx (s : State) port_ f_ : Plain (exec (.jackRx port_ f_) s) s := by
  change Plain (execJackRx port_ f_ s) s
  unfold execJackRx; exact plain_runIf _ _ _
theorem plain_pairRx (s : State) port_ f_ : Plain (exec (.pairRx port_ f_) s) s := by
  change Plain (execPairRx port_ f_ s) s
  unfold execPairRx; exact plain_runIf _ _ _
theorem plain_unpairRx (s : State) port_ f_ : Plain (exec (.unpairRx port_ f_) s) s := by
  change Plain (execUnpairRx port_ f_ s) s
  unfold execUnpairRx; exact plain_runIf _ _ _
theorem plain_regionRx (s : State) port_ f_ : Plain (exec (.regionRx port_ f_) s) s := by
  change Plain (execRegionRx port_ f_ s) s
  unfold execRegionRx; exact plain_runIf _ _ _
theorem plain_twinHbRx (s : State) port_ f_ : Plain (exec (.twinHbRx port_ f_) s) s := by
  change Plain (execTwinHbRx port_ f_ s) s
  unfold execTwinHbRx; exact plain_runIf _ _ _
theorem plain_twinTakeRx (s : State) port_ f_ : Plain (exec (.twinTakeRx port_ f_) s) s := by
  change Plain (execTwinTakeRx port_ f_ s) s
  unfold execTwinTakeRx; exact plain_runIf _ _ _
theorem plain_twinReleaseRx (s : State) port_ f_ : Plain (exec (.twinReleaseRx port_ f_) s) s := by
  change Plain (execTwinReleaseRx port_ f_ s) s
  unfold execTwinReleaseRx; exact plain_runIf _ _ _
theorem plain_twinHandoverProceed (s : State) : Plain (exec (.twinHandoverProceed) s) s := by
  change Plain (execTwinHandoverProceed s) s
  unfold execTwinHandoverProceed; exact plain_runIf _ _ _
theorem plain_twinAliasDataRead (s : State) : Plain (exec (.twinAliasDataRead) s) s := by
  change Plain (execTwinAliasDataRead s) s
  unfold execTwinAliasDataRead; exact plain_run _ _
theorem plain_twinPair (s : State) m_ : Plain (exec (.twinPair m_) s) s := by
  change Plain (execTwinPair m_ s) s
  unfold execTwinPair; exact plain_runCmd _ _ _ _
theorem plain_twinDetach (s : State) m_ : Plain (exec (.twinDetach m_) s) s := by
  change Plain (execTwinDetach m_ s) s
  unfold execTwinDetach; exact plain_runCmd _ _ _ _
theorem plain_twinProtect (s : State) m_ : Plain (exec (.twinProtect m_) s) s := by
  change Plain (execTwinProtect m_ s) s
  unfold execTwinProtect; exact plain_runCmd _ _ _ _
theorem plain_twinStatus (s : State) m_ : Plain (exec (.twinStatus m_) s) s := by
  change Plain (execTwinStatus m_ s) s
  unfold execTwinStatus; exact plain_runCmd _ _ _ _
theorem plain_twinPolicy (s : State) m_ : Plain (exec (.twinPolicy m_) s) s := by
  change Plain (execTwinPolicy m_ s) s
  unfold execTwinPolicy; exact plain_runCmd _ _ _ _
theorem plain_throttleTimer (s : State) : Plain (exec (.throttleTimer) s) s := by
  change Plain (execThrottleTimer s) s
  unfold execThrottleTimer; exact plain_runIf _ _ _
theorem plain_railFault (s : State) rail_ : Plain (exec (.railFault rail_) s) s := by
  change Plain (execRailFault rail_ s) s
  unfold execRailFault; exact plain_run _ _
theorem plain_converterFail (s : State) n_ : Plain (exec (.converterFail n_) s) s := by
  change Plain (execConverterFail n_ s) s
  unfold execConverterFail; exact plain_run _ _
theorem plain_pwrLimit (s : State) m_ : Plain (exec (.pwrLimit m_) s) s := by
  change Plain (execPwrLimit m_ s) s
  unfold execPwrLimit; exact plain_runCmd _ _ _ _
theorem plain_pwrStatus (s : State) m_ : Plain (exec (.pwrStatus m_) s) s := by
  change Plain (execPwrStatus m_ s) s
  unfold execPwrStatus; exact plain_runCmd _ _ _ _
theorem plain_h0LinkUp (s : State) speed_ width_ : Plain (exec (.h0LinkUp speed_ width_) s) s := by
  change Plain (execH0LinkUp speed_ width_ s) s
  unfold execH0LinkUp; exact plain_runIf _ _ _
theorem plain_ltepochLoss (s : State) : Plain (exec (.ltepochLoss) s) s := by
  change Plain (execLtepochLoss s) s
  unfold execLtepochLoss; exact plain_run _ _
theorem plain_portFrameSend (s : State) port_ : Plain (exec (.portFrameSend port_) s) s := by
  change Plain (execPortFrameSend port_ s) s
  unfold execPortFrameSend; exact plain_runIf _ _ _
theorem plain_cxlCacheSnoop (s : State) line_ : Plain (exec (.cxlCacheSnoop line_) s) s := by
  change Plain (execCxlCacheSnoop line_ s) s
  unfold execCxlCacheSnoop; exact plain_runIf _ _ _
theorem plain_twinPairTimeout (s : State) : Plain (exec (.twinPairTimeout) s) s := by
  change Plain (execTwinPairTimeout s) s
  unfold execTwinPairTimeout; exact plain_runIf _ _ _
theorem plain_loopTestEnd (s : State) port_ locked_ errs_ compared_ uncorr_ : Plain (exec (.loopTestEnd port_ locked_ errs_ compared_ uncorr_) s) s := by
  change Plain (execLoopTestEnd port_ locked_ errs_ compared_ uncorr_ s) s
  unfold execLoopTestEnd; exact plain_runIf _ _ _
theorem plain_codeCacheFill (s : State) core_ slot_ : Plain (exec (.codeCacheFill core_ slot_) s) s := by
  change Plain (execCodeCacheFill core_ slot_ s) s
  unfold execCodeCacheFill; exact plain_runIf _ _ _
theorem plain_hbmArrayTestEnd (s : State) stack_ banks_ pcs_ first_ : Plain (exec (.hbmArrayTestEnd stack_ banks_ pcs_ first_) s) s := by
  change Plain (execHbmArrayTestEnd stack_ banks_ pcs_ first_ s) s
  unfold execHbmArrayTestEnd; exact plain_run _ _
theorem plain_coreTestEnd (s : State) die_ units_ failed_ first_ : Plain (exec (.coreTestEnd die_ units_ failed_ first_) s) s := by
  change Plain (execCoreTestEnd die_ units_ failed_ first_ s) s
  unfold execCoreTestEnd; exact plain_runIf _ _ _
theorem plain_d2dTestEnd (s : State) die_ fails_ : Plain (exec (.d2dTestEnd die_ fails_) s) s := by
  change Plain (execD2dTestEnd die_ fails_ s) s
  unfold execD2dTestEnd; exact plain_runIf _ _ _
theorem plain_hbmReturnDone (s : State) stack_ pass_ : Plain (exec (.hbmReturnDone stack_ pass_) s) s := by
  change Plain (execHbmReturnDone stack_ pass_ s) s
  unfold execHbmReturnDone; exact plain_runIf _ _ _
theorem plain_bufClearDone (s : State) half_ : Plain (exec (.bufClearDone half_) s) s := by
  change Plain (execBufClearDone half_ s) s
  unfold execBufClearDone; exact plain_run _ _

end Sys2Proof.Laws
end

