-- ==== Sys2Proof/Laws/Regs.lean ====
section
/-! SUPPORT. Registers and their fields: a read after a write. -/

namespace Sys2Proof.Laws

open Sys2Proof.Machine

/-- The register written reads as the value, cut to 32 bits. -/
@[simp] theorem csr_setCsr (m : Chip) (o v : Nat) : csr (setCsr m o v) o = v % 2 ^ 32 := tget_tput_same _ _ _ _

/-- Another register reads as before. -/
theorem csr_setCsr_ne (m : Chip) {o p : Nat} (v : Nat) (h : p ≠ o) : csr (setCsr m o v) p = csr m p := tget_tput_ne' _ _ _ h _

/-- A field of another register reads as before. -/
theorem fget_setCsr_ne (m : Chip) {o : Nat} (v : Nat) {f : Fld} (h : f.off ≠ o) : fget (setCsr m o v) f = fget m f := by
  unfold fget; rw [csr_setCsr_ne m v h]

/-- Bit i of a field is bit lo + i of the word. -/
theorem testBit_bitsN (w hi lo i : Nat) : (bitsN w hi lo).testBit i = (decide (i < hi + 1 - lo) && w.testBit (lo + i)) := by
  unfold bitsN
  rw [Nat.testBit_mod_two_pow, Nat.testBit_shiftRight]

/-- A word with a field replaced, as its three parts. -/
theorem setBitsN_eq (w hi lo v : Nat) (h : lo ≤ hi + 1) :
    setBitsN w hi lo v = (w / 2 ^ (hi + 1) * 2 ^ (hi + 1 - lo) + v % 2 ^ (hi + 1 - lo)) * 2 ^ lo + w % 2 ^ lo := by
  unfold setBitsN bitsN
  rw [Nat.shiftRight_eq_div_pow]
  have h1 : 2 ^ (hi + 1) = 2 ^ lo * 2 ^ (hi + 1 - lo) := by rw [← Nat.pow_add]; congr 1; omega
  have h2 : w / 2 ^ (hi + 1) = w / 2 ^ lo / 2 ^ (hi + 1 - lo) := by rw [h1, Nat.div_div_eq_div_mul]
  have h3 := Nat.div_add_mod w (2 ^ lo)
  have h4 := Nat.div_add_mod (w / 2 ^ lo) (2 ^ (hi + 1 - lo))
  rw [h2]
  generalize hq : w / 2 ^ lo = q at *
  generalize hp : 2 ^ (hi + 1 - lo) = p at *
  generalize q / p = a at *
  generalize hb : q % p = b at *
  generalize w % 2 ^ lo = c at *
  generalize v % p = d
  have h5 : w = (a * p + b) * 2 ^ lo + c := by rw [← h3, ← h4, Nat.mul_comm (2 ^ lo), Nat.mul_comm a p]
  rw [h5, Nat.add_mul, Nat.add_mul]
  omega

/-- Bit i of a word with a field replaced. -/
theorem testBit_setBitsN (w hi lo v i : Nat) (h : lo ≤ hi + 1) :
    (setBitsN w hi lo v).testBit i = if lo ≤ i ∧ i ≤ hi then v.testBit (i - lo) else w.testBit i := by
  rw [setBitsN_eq w hi lo v h, Nat.mul_comm, Nat.testBit_two_pow_mul_add _ (Nat.mod_lt _ (Nat.two_pow_pos _))]
  have hd : ∀ j, (w / 2 ^ (hi + 1) * 2 ^ (hi + 1 - lo) + v % 2 ^ (hi + 1 - lo)).testBit j =
      if j < hi + 1 - lo then v.testBit j else w.testBit (j - (hi + 1 - lo) + (hi + 1)) := by
    intro j
    rw [Nat.mul_comm, Nat.testBit_two_pow_mul_add _ (Nat.mod_lt _ (Nat.two_pow_pos _))]
    split
    · rename_i hj
      simp [Nat.testBit_mod_two_pow, hj]
    · rw [Nat.testBit_div_two_pow]
  split
  · rename_i hi1
    simp [Nat.testBit_mod_two_pow, hi1]
  · rename_i hi1
    rw [hd]
    split
    · rename_i h2
      rw [if_pos (by omega)]
    · rename_i h2
      rw [if_neg (by omega)]
      congr 1
      omega

/-- The field written reads as the value, cut to its width. -/
theorem fget_fset (m : Chip) (f : Fld) (v : Nat) (h : f.lo ≤ f.hi) (h32 : f.hi < 32) : fget (fset m f v) f = v % 2 ^ (f.hi + 1 - f.lo) := by
  unfold fget fset
  rw [csr_setCsr]
  apply Nat.eq_of_testBit_eq
  intro i
  rw [testBit_bitsN, Nat.testBit_mod_two_pow, testBit_setBitsN _ _ _ _ _ (by omega), Nat.testBit_mod_two_pow]
  by_cases hi : i < f.hi + 1 - f.lo
  · have h1 : f.lo + i < 32 := by omega
    have h2 : f.lo ≤ f.lo + i ∧ f.lo + i ≤ f.hi := by omega
    simp [hi, h1, h2]
  · simp [hi]

/-- A field of the same register that shares no bit with the one written reads as before. -/
theorem fget_fset_apart (m : Chip) (f g : Fld) (v : Nat) (hf : f.lo ≤ f.hi) (ho : g.off = f.off) (h32 : g.hi < 32) (h : g.hi < f.lo ∨ f.hi < g.lo) :
    fget (fset m f v) g = fget m g := by
  unfold fget fset
  rw [ho, csr_setCsr]
  apply Nat.eq_of_testBit_eq
  intro i
  rw [testBit_bitsN, Nat.testBit_mod_two_pow, testBit_setBitsN _ _ _ _ _ (by omega), testBit_bitsN]
  by_cases hi : i < g.hi + 1 - g.lo
  · have h1 : g.lo + i < 32 := by omega
    have h2 : ¬ (f.lo ≤ g.lo + i ∧ g.lo + i ≤ f.hi) := by omega
    simp [hi, h1, h2]
  · simp [hi]

/-- A field of another register reads as before. -/
theorem fget_fset_ne (m : Chip) (f g : Fld) (v : Nat) (h : g.off ≠ f.off) : fget (fset m f v) g = fget m g := fget_setCsr_ne m _ h

end Sys2Proof.Laws
end

