-- ==== Sys2Proof/Laws/Settle.lean ====
section
/-! SUPPORT. What the end of a step leaves alone: every operation it runs keeps the fields of Kept. -/

namespace Sys2Proof

open Sys2Proof.Machine

theorem Kept.refl (a : Chip) : Kept a a := by constructor <;> rfl

theorem Kept.trans {a b c : Chip} (h : Kept a b) (k : Kept b c) : Kept a c := by
  constructor
  all_goals first
    | exact k.latch.trans h.latch | exact k.hiHeld.trans h.hiHeld | exact k.out.trans h.out | exact k.ns.trans h.ns | exact k.stks.trans h.stks
    | exact k.resps.trans h.resps | exact k.lt.trans h.lt | exact k.rows.trans h.rows | exact k.mb.trans h.mb | exact k.mbOrder.trans h.mbOrder
    | exact k.pwr.trans h.pwr | exact k.ports.trans h.ports | exact k.cores.trans h.cores | exact k.code.trans h.code | exact k.launches.trans h.launches
    | exact k.launchId.trans h.launchId | exact k.launchOrder.trans h.launchOrder | exact k.placeRing.trans h.placeRing | exact k.con.trans h.con
    | exact k.refillAt.trans h.refillAt | exact k.pts.trans h.pts | exact k.start.trans h.start | exact k.twin.trans h.twin

/-- A fold of steps that each keep keeps. -/
theorem Kept.foldl {α : Type} (f : Chip → α → Chip) (h : ∀ m x, Kept m (f m x)) : ∀ (l : List α) (m : Chip), Kept m (l.foldl f m)
  | [], m => Kept.refl m
  | x :: r, m => (h m x).trans (Kept.foldl f h r (f m x))

/-- The same for a fold that carries a machine beside something else. -/
theorem Kept.foldl_snd {α β : Type} (f : β × Chip → α → β × Chip) (h : ∀ p x, Kept p.2 (f p x).2) : ∀ (l : List α) (p : β × Chip), Kept p.2 (l.foldl f p).2
  | [], p => Kept.refl p.2
  | x :: r, p => (h p x).trans (Kept.foldl_snd f h r (f p x))

theorem Kept.ite {a b c : Chip} {p : Prop} [Decidable p] (h : Kept a b) (k : Kept a c) : Kept a (if p then b else c) := by
  split <;> assumption

end Sys2Proof

namespace Sys2Proof.Laws

open Sys2Proof.Machine

theorem kept_setCsr (m : Chip) (o v : Nat) : Kept m (setCsr m o v) := by constructor <;> rfl
theorem kept_fset (m : Chip) (f : Fld) (v : Nat) : Kept m (fset m f v) := by constructor <;> rfl
theorem kept_setCtr (m : Chip) (o v : Nat) : Kept m (setCtr m o v) := by constructor <;> rfl
theorem kept_err (m : Chip) (e : ErrState) : Kept m { m with err := e } := by constructor <;> rfl
theorem kept_buf (m : Chip) (e : BufState) : Kept m { m with buf := e } := by constructor <;> rfl
theorem kept_host (m : Chip) (e : HostState) : Kept m { m with host := e } := by constructor <;> rfl
theorem kept_setRing (m : Chip) (n : Nat) (r : Option Ring) : Kept m (setRing m n r) := by constructor <;> rfl
theorem kept_setEv (m : Chip) (h : Nat) (l : List Parked) : Kept m (setEv m h l) := by constructor <;> rfl
theorem kept_setSiding (m : Chip) (h : Nat) (l : List Parked) : Kept m (setSiding m h l) := by constructor <;> rfl
theorem kept_setRawLine (m : Chip) (n : Nat) (l : Line) : Kept m (setRawLine m n l) := by constructor <;> rfl
theorem kept_cacheDrop (m : Chip) (k n : Nat) : Kept m (cacheDrop m k n) := by constructor <;> rfl
theorem kept_cachePut (m : Chip) (k n : Nat) (c : CLine) : Kept m (cachePut m k n c) := by constructor <;> rfl
theorem kept_recErr (m : Chip) (a b c d : Nat) (o : Owner) (e f g h i : Nat) : Kept m (recErr m a b c d o e f g h i) := by constructor <;> rfl

theorem kept_bump (m : Chip) (o n : Nat) : Kept m (bump m o n) := by
  unfold bump
  dsimp only
  split
  · exact kept_setCtr m o _
  · split
    · exact kept_setCtr m o _
    · exact (kept_setCtr m o _).trans ((kept_setCsr _ _ _).trans (kept_err _ _))

theorem kept_modUnit (m : Chip) (u : Nat) (f : D2dUnit → D2dUnit) : Kept m (modUnit m u f) := by constructor <;> rfl

theorem kept_linkMove (m : Chip) (ks : List (Nat × Nat)) (f : Nat → Nat) : Kept m (linkMove m ks f) := by
  unfold linkMove
  exact Kept.foldl _ (fun c k => kept_modUnit c _ _) ks m

theorem kept_spendCredit (m : Chip) (k : Nat) (r : Req) : Kept m (spendCredit m k r).2 := by
  unfold spendCredit
  dsimp only
  repeat' split
  all_goals first
    | exact kept_bump _ _ _
    | (constructor <;> rfl)

theorem kept_regulate (m : Chip) (r : Req) : Kept m (regulate m r).2 := by
  unfold regulate
  repeat' split
  all_goals first
    | exact kept_spendCredit _ _ _
    | exact Kept.refl _

theorem kept_pushReq (m : Chip) (r : Req) : Kept m (pushReq m r) := by
  unfold pushReq
  exact ((kept_regulate m _).trans (by constructor <;> rfl)).trans (kept_linkMove _ _ _)

theorem kept_queueFix (m : Chip) (ln : Nat) : Kept m (queueFix m ln) := by
  unfold queueFix
  exact Kept.ite (Kept.refl _) (kept_pushReq _ _)

theorem kept_noteBuf (m : Chip) (ln : Nat) (g : Got) : Kept m (noteBuf m ln g) := by
  unfold noteBuf
  dsimp only
  refine Kept.trans ?_ (Kept.ite (kept_bump _ _ _) (Kept.refl _))
  refine Kept.trans ?_ (Kept.ite (kept_queueFix _ _) (Kept.refl _))
  refine Kept.trans (kept_bump m _ _) (Kept.ite (Kept.refl _) (kept_recErr _ _ _ _ _ _ _ _ _ _ _))

theorem kept_readBufLine (m : Chip) (ln : Nat) : Kept m (readBufLine m ln).2 := by
  unfold readBufLine
  dsimp only
  exact Kept.ite (Kept.refl _) (Kept.trans (by constructor <;> rfl) (kept_noteBuf _ _ _))

theorem kept_hbmLog (m : Chip) (s k y ln : Nat) : Kept m (hbmLog m s k y ln) := by
  unfold hbmLog
  dsimp only
  exact Kept.ite ((kept_setCsr _ _ _).trans ((kept_setCsr _ _ _).trans (kept_setCsr _ _ _))) (Kept.refl _)

theorem kept_noteHbmCe (m : Chip) (own : Owner) (fix : Bool) (ln : Nat) (g : Got) : Kept m (noteHbmCe m own fix ln g) := by
  unfold noteHbmCe
  refine Kept.ite (Kept.refl _) ?_
  dsimp only
  refine Kept.trans ?_ (Kept.ite (kept_queueFix _ _) (Kept.refl _))
  refine Kept.trans ?_ (kept_hbmLog _ _ _ _ _)
  exact Kept.trans (kept_bump m _ _) (Kept.ite (kept_recErr _ _ _ _ _ _ _ _ _ _ _) (Kept.refl _))

theorem kept_hbmRead (m : Chip) (own : Owner) (fix : Bool) (ln : Nat) : Kept m (hbmRead m own fix ln).2 := by
  unfold hbmRead
  dsimp only
  generalize hbmGot m ln = g
  have h := kept_noteHbmCe m own fix ln g
  split
  · exact h.trans ((kept_bump _ _ _).trans (kept_hbmLog _ _ _ _ _))
  · exact h.trans ((kept_bump _ _ _).trans (kept_hbmLog _ _ _ _ _))
  · exact h

theorem kept_readHbmLine (m : Chip) (ln : Nat) : Kept m (readHbmLine m ln).2 := kept_hbmRead m _ _ ln

theorem kept_noteWrite (m : Chip) (ln : Nat) : Kept m (noteWrite m ln) := by
  unfold noteWrite
  dsimp only
  split
  · exact Kept.refl _
  · constructor <;> rfl

theorem kept_flipBuf (m : Chip) (g : Nat) (l : Line) : Kept m (flipBuf m g l).2 := by
  unfold flipBuf
  dsimp only
  split
  · exact kept_fset _ _ _
  · exact Kept.refl _

theorem kept_flipHbm (m : Chip) (g : Nat) (l : Line) : Kept m (flipHbm m g l).2 := by
  unfold flipHbm
  dsimp only
  split
  · exact kept_fset _ _ _
  · exact Kept.refl _

theorem kept_storeCell (m : Chip) (ln : Nat) (l : Line) : Kept m (storeCell m ln l) := by
  unfold storeCell
  dsimp only
  have h : Kept m (if isHbm (ln * 128) then flipHbm m (stackOf (ln * 128)) l else flipBuf m (gSlice (halfOf (ln * 128)) (ln * 128)) l).2 := by
    split
    · exact kept_flipHbm _ _ _
    · exact kept_flipBuf _ _ _
  refine Kept.trans ?_ (kept_noteWrite _ _)
  refine Kept.trans ?_ (kept_setRawLine _ _ _)
  exact Kept.ite (h.trans (kept_bump _ _ _)) h

theorem kept_writeCell (m : Chip) (ln : Nat) (l : Line) : Kept m (writeCell m ln l) := by
  unfold writeCell
  dsimp only
  exact Kept.ite ((kept_setSiding _ _ _).trans (kept_bump _ _ _)) (kept_storeCell _ _ _)

theorem kept_evDrain (m : Chip) (h : Nat) : Kept m (evDrain m h) := by
  unfold evDrain
  split
  · exact Kept.refl _
  · exact ((kept_setEv _ _ _).trans (kept_writeCell _ _ _)).trans (kept_bump _ _ _)

theorem kept_evUntil : ∀ (n : Nat) (m : Chip) (h ln : Nat), Kept m (evUntil n m h ln)
  | 0, m, _, _ => Kept.refl m
  | n + 1, m, h, ln => by
    unfold evUntil
    exact Kept.ite ((kept_evDrain m h).trans (kept_evUntil n _ h ln)) (Kept.refl _)

theorem kept_cacheRoom (m : Chip) (k ln : Nat) (r : Nat × Chip) (h : cacheRoom m k ln = some r) : Kept m r.2 := by
  unfold cacheRoom at h
  dsimp only at h
  split at h
  · injection h with h; rw [← h]; exact Kept.refl _
  · split at h
    · injection h with h; rw [← h]; exact Kept.refl _
    · split at h
      · injection h with h; rw [← h]; exact kept_cacheDrop _ _ _
      · split at h
        · injection h with h; rw [← h]; exact (kept_cacheDrop _ _ _).trans (kept_setEv _ _ _)
        · cases h

theorem kept_cacheMake (m : Chip) (k ln : Nat) : Kept m (cacheMake m k ln).2 := by
  unfold cacheMake
  split
  · rename_i r h; exact kept_cacheRoom m k ln r h
  · split
    · rename_i r h; exact (kept_evDrain m _).trans (kept_cacheRoom _ k ln r h)
    · exact Kept.refl _

theorem kept_readCacheLine (m : Chip) (k ln : Nat) : Kept m (readCacheLine m k ln).2 := by
  unfold readCacheLine
  split
  · rename_i c hc
    dsimp only
    have h : Kept m (bump (cachePut m k ln c) BUF_HIT_CTR 1) := (kept_cachePut _ _ _ _).trans (kept_bump _ _ _)
    refine h.trans ?_
    generalize bump (cachePut m k ln c) BUF_HIT_CTR 1 = m1
    split
    · exact Kept.refl _
    · exact Kept.trans (by constructor <;> rfl) (kept_noteBuf _ _ _)
  · dsimp only
    have h : Kept m (readHbmLine (evUntil 513 (bump m BUF_MISS_CTR 1) (k / 4) ln) ln).2 :=
      ((kept_bump _ _ _).trans (kept_evUntil _ _ _ _)).trans (kept_readHbmLine _ _)
    split
    · exact h
    · split
      · exact h
      · exact (h.trans (kept_cacheMake _ _ _)).trans (kept_cachePut _ _ _ _)

theorem kept_readLine (m : Chip) (ln : Nat) (b : Bool) : Kept m (readLine m ln b).2 := by
  unfold readLine
  dsimp only
  split
  · exact Kept.refl _
  · split
    · exact kept_readBufLine _ _
    · split
      · exact kept_readCacheLine _ _ _
      · exact kept_readHbmLine _ _

theorem kept_readExit (m : Chip) (ln : Nat) (b : Bool) : Kept m (readExit m ln b).2 := by
  unfold readExit
  dsimp only
  split <;> exact kept_readLine _ _ _

theorem kept_putLine (m : Chip) (ln : Nat) (l : Line) : Kept m (putLine m ln l) := by
  unfold putLine
  split
  · split
    · dsimp only
      refine Kept.trans ?_ (kept_noteWrite _ _)
      refine Kept.trans ?_ (kept_cachePut _ _ _ _)
      exact Kept.ite ((kept_flipBuf _ _ _).trans (kept_bump _ _ _)) (kept_flipBuf _ _ _)
    · dsimp only
      have h := ((kept_bump m BUF_MISS_CTR 1).trans (kept_evUntil 513 _ (by assumption) ln))
      refine Kept.trans ?_ (kept_noteWrite _ _)
      refine Kept.trans ?_ (kept_cachePut _ _ _ _)
      refine Kept.trans ?_ (Kept.ite ((kept_flipBuf _ _ _).trans (kept_bump _ _ _)) (kept_flipBuf _ _ _))
      exact ((kept_bump m _ _).trans (kept_evUntil _ _ _ _)).trans (kept_cacheMake _ _ _)
  · exact kept_writeCell _ _ _

theorem kept_writeLine (m : Chip) (ln : Nat) (l : Line) (b : Bool) : Kept m (writeLine m ln l b).2 := by
  unfold writeLine
  split
  · exact Kept.refl _
  · exact Kept.trans (Kept.ite (kept_bump _ _ _) (Kept.refl _)) (kept_putLine _ _ _)

theorem kept_noteWb (m : Chip) (ln : Nat) (f : Fate) : Kept m (noteWb m ln f) := by
  unfold noteWb
  exact Kept.ite (Kept.refl _) (Kept.ite (kept_bump _ _ _) ((kept_bump _ _ _).trans (kept_hbmLog _ _ _ _ _)))

theorem kept_partialWrite (m : Chip) (ln : Nat) (d : List Byte) (k : Nat) (a b : Bool) : Kept m (partialWrite m ln d k a b).2 := by
  unfold partialWrite
  split
  · exact Kept.refl _
  · dsimp only
    have h : Kept m (noteWb (noteRmw (readLine m ln b).2 ln) ln (storedFate (readLine m ln b).1)) :=
      ((kept_readLine _ _ _).trans (kept_bump _ _ _)).trans (kept_noteWb _ _ _)
    split
    · exact h
    · split
      · exact h.trans (kept_putLine _ _ _)
      · exact h
      · exact h.trans (kept_putLine _ _ _)

theorem kept_storeLoop : ∀ (n : Nat) (m : Chip) (a : Nat) (bs : List Byte) (b : Bool) (f : Fate), Kept m (storeLoop n m a bs b f).2
  | 0, m, _, _, _, _ => Kept.refl m
  | n + 1, m, a, bs, b, f => by
    unfold storeLoop
    split
    · exact Kept.refl _
    · dsimp only
      refine Kept.trans ?_ (kept_storeLoop n _ _ _ _ _)
      split
      · exact kept_writeLine _ _ _ _
      · exact kept_partialWrite _ _ _ _ _ _

theorem kept_storeBytes (m : Chip) (da : Nat) (bs : List Byte) (b : Bool) : Kept m (storeBytes m da bs b).2 := kept_storeLoop _ _ _ _ _ _

theorem kept_setBias (m : Chip) (g : Nat) (t : Bool) : Kept m (setBias m g t) := by
  unfold setBias
  exact (kept_host _ _).trans (kept_bump _ _ _)

theorem kept_recallLost (m : Chip) (g : Nat) (l : List Nat) : Kept m (recallLost m g l) := by
  unfold recallLost
  refine Kept.foldl _ (fun m i => ?_) l m
  dsimp only
  split
  · exact Kept.refl _
  · refine Kept.trans ?_ (kept_recErr _ _ _ _ _ _ _ _ _ _ _)
    refine Kept.trans ?_ (kept_bump _ _ _)
    exact Kept.ite (kept_readLine _ _ _) ((kept_readLine _ _ _).trans (kept_putLine _ _ _))

theorem kept_startFlip (m : Chip) (g : Nat) (t : Bool) : Kept m (startFlip m g t) := by
  unfold startFlip
  refine Kept.ite (Kept.refl _) (Kept.ite ((kept_recallLost _ _ _).trans (kept_setBias _ _ _)) (Kept.ite ?_ (kept_host _ _)))
  exact (kept_host _ _).trans (kept_fset _ _ _)

theorem kept_autoFlip (m : Chip) (g : Nat) (t : Bool) : Kept m (autoFlip m g t) := by
  unfold autoFlip
  exact Kept.ite (kept_startFlip _ _ _) (Kept.ite (Kept.refl _) (kept_host _ _))

theorem kept_recFate (m : Chip) (src unit : Nat) (own : Owner) (detail ln : Nat) (g : Got) : Kept m (recFate m src unit own detail ln g) :=
  kept_recErr _ _ _ _ _ _ _ _ _ _ _

theorem kept_noteFail (m m0 : Chip) (own : Owner) (atom : Bool) (da : Nat) (f : Fate) : Kept m (noteFail m m0 own atom da f) := by
  unfold noteFail
  refine Kept.ite (Kept.refl _) ?_
  dsimp only
  split <;> exact kept_recFate _ _ _ _ _ _ _

theorem kept_storeFor (m : Chip) (own : Option Owner) (da : Nat) (bs : List Byte) : Kept m (storeFor m own da bs) := by
  unfold storeFor
  dsimp only
  split
  · exact (kept_storeBytes _ _ _ _).trans (kept_noteFail _ _ _ _ _ _)
  · exact kept_storeBytes _ _ _ _

theorem kept_mioStore (m : Chip) (own : Option Owner) (da : Nat) (bs : List Byte) : Kept m (mioStore m own da bs) := by
  unfold mioStore
  refine Kept.ite (kept_storeFor _ _ _ _) ?_
  exact Kept.trans (Kept.foldl _ (fun c g => kept_autoFlip c g true) _ _) (kept_host _ _)

theorem kept_msix (m : Chip) (v : Nat) : Kept m (msix m v) := by
  unfold msix
  dsimp only
  repeat' (first | exact Kept.refl _ | exact kept_host _ _ | split)

theorem kept_putEvent (m : Chip) (k : Nat) (ws : List Nat) : Kept m (putEvent m k ws) := by
  unfold putEvent
  split
  · exact kept_bump _ _ _
  · split
    · exact kept_bump _ _ _
    · dsimp only
      refine Kept.ite ((kept_setRing _ _ _).trans (kept_bump _ _ _)) ?_
      exact ((kept_mioStore _ _ _ _).trans (kept_setRing _ _ _)).trans (kept_msix _ _)

theorem kept_putRecord (m : Chip) (p : List Nat) : Kept m (putRecord m p) := by
  unfold putRecord
  dsimp only
  refine Kept.ite (Kept.refl _) (Kept.ite ((kept_err _ _).trans (kept_bump _ _ _)) ?_)
  have hl : ∀ (c : Chip) (f : Nat → Nat) (g : Nat → Nat), Kept c ((List.range 12).foldl (fun c i => setCsr c (f i) (g i)) c) :=
    fun c f g => Kept.foldl _ (fun m i => kept_setCsr m _ _) _ c
  have h1 : Kept m (bump (fset (if (nth p 0 == 0 && nth p 2 != 10) = true then
      { m with err := { m.err with ce := tput 0 ((nth p 1 * 256 + nth p 3) * 256 + nth p 2) 1 m.err.ce } } else m) ERR_SEQ_SEQ
      ((csr (if (nth p 0 == 0 && nth p 2 != 10) = true then
      { m with err := { m.err with ce := tput 0 ((nth p 1 * 256 + nth p 3) * 256 + nth p 2) 1 m.err.ce } } else m) ERR_SEQ_SEQ.off + 1) % 2 ^ 32)) ERR_REC_CTR 1) := by
    refine Kept.trans ?_ (kept_bump _ _ _)
    refine Kept.trans ?_ (kept_fset _ _ _)
    exact Kept.ite (kept_err _ _) (Kept.refl _)
  refine Kept.trans h1 ?_
  generalize bump _ ERR_REC_CTR 1 = m1
  refine Kept.ite ?_ ?_
  · refine Kept.trans ?_ (kept_fset _ _ _)
    refine Kept.trans ?_ (hl _ _ _)
    exact Kept.ite (((hl _ _ _).trans (kept_bump _ _ _)).trans (kept_fset _ _ _)) (Kept.refl _)
  · refine Kept.trans ?_ (kept_putEvent _ _ _)
    exact Kept.ite (((hl _ _ _).trans (kept_bump _ _ _)).trans (kept_fset _ _ _)) (Kept.refl _)

theorem kept_emit (m : Chip) (d : Nat × List Nat) : Kept m (emit m d) := by
  unfold emit
  exact Kept.ite (kept_putRecord _ _) (Kept.ite (kept_putEvent _ _ _) (kept_putEvent _ _ _))

theorem kept_emitAll : ∀ (n : Nat) (m : Chip), Kept m (emitAll n m)
  | 0, m => Kept.refl m
  | n + 1, m => by
    unfold emitAll
    dsimp only
    have h : Kept m (m.err.ovf.foldl (fun c off => recErr c 0 15 10 0 (0, 0, 0) 0 0 off 0 0) { m with err := { m.err with ovf := [] } }) :=
      (kept_err _ _).trans (Kept.foldl _ (fun c o => kept_recErr c _ _ _ _ _ _ _ _ _ _) _ _)
    refine Kept.ite h (h.trans ?_)
    exact Kept.trans ((kept_err _ _).trans (Kept.foldl _ kept_emit _ _)) (kept_emitAll n _)

theorem kept_sizeRefresh (m : Chip) : Kept m (sizeRefresh m) := by
  unfold sizeRefresh
  dsimp only
  refine Kept.ite (Kept.refl _) (Kept.trans ?_ (kept_setCsr _ _ _))
  exact Kept.foldl _ (fun c i => kept_setCsr c _ _) _ _

theorem kept_twinBits (m : Chip) : Kept m (twinBits m) := by
  unfold twinBits
  exact (kept_fset _ _ _).trans ((kept_fset _ _ _).trans (kept_fset _ _ _))

theorem kept_recKeep (m : Chip) : Kept m (recKeep m) := by
  unfold recKeep
  refine Kept.ite ?_ (Kept.refl _)
  unfold writeRecord
  dsimp only
  refine Kept.trans (b := { m with start := { m.start with recDue := false } }) (by constructor <;> rfl) ?_
  refine Kept.foldl _ (fun c i => ?_) _ _
  exact Kept.ite (Kept.refl _) (kept_writeLine _ _ _ _)

/-- The end of a step keeps every field of Kept. -/
theorem kept_settle (m : Chip) : Kept m (settle m) := by
  unfold settle
  exact (((kept_recKeep _).trans (kept_twinBits _)).trans (kept_sizeRefresh _)).trans (kept_emitAll _ _)

@[simp] theorem settle_lt (m : Chip) : (settle m).lt = m.lt := (kept_settle m).lt
@[simp] theorem settle_rows (m : Chip) : (settle m).rows = m.rows := (kept_settle m).rows
@[simp] theorem settle_cores (m : Chip) : (settle m).cores = m.cores := (kept_settle m).cores
@[simp] theorem settle_ports (m : Chip) : (settle m).ports = m.ports := (kept_settle m).ports
@[simp] theorem settle_stks (m : Chip) : (settle m).stks = m.stks := (kept_settle m).stks
@[simp] theorem settle_mb (m : Chip) : (settle m).mb = m.mb := (kept_settle m).mb
@[simp] theorem settle_launches (m : Chip) : (settle m).launches = m.launches := (kept_settle m).launches
@[simp] theorem settle_con (m : Chip) : (settle m).con = m.con := (kept_settle m).con
@[simp] theorem settle_pts (m : Chip) : (settle m).pts = m.pts := (kept_settle m).pts
@[simp] theorem settle_pwr (m : Chip) : (settle m).pwr = m.pwr := (kept_settle m).pwr
@[simp] theorem settle_ns (m : Chip) : (settle m).ns = m.ns := (kept_settle m).ns
@[simp] theorem settle_resps (m : Chip) : (settle m).resps = m.resps := (kept_settle m).resps
@[simp] theorem settle_out (m : Chip) : (settle m).out = m.out := (kept_settle m).out
@[simp] theorem settle_code (m : Chip) : (settle m).code = m.code := (kept_settle m).code

end Sys2Proof.Laws
end

