-- ==== Sys2Proof/WellFormed.lean ====
section
/-! DEFINITION. Which commands are well formed: each operand in the range that the spec gives it. The machine's meanings stand for every term; a
command out of range names nothing of the machine and changes nothing. -/

namespace Sys2Proof

/-- A number below a bound. -/
def below (n k : Nat) : Bool := decide (k < n)

/-- An aligned control-space offset (R25). -/
def wordOffset (o : Nat) : Bool := decide (o < 2 ^ 40) && o % 4 == 0

/-- A byte list of a length. -/
def bytesOf (n : Nat) (bs : List Byte) : Bool := bs.length == n

/-- A list of flags of a length. -/
def flagsOf (n : Nat) (bs : List Bool) : Bool := bs.length == n

/-- A value for each temperature sensor of the module (R777). -/
def sensorsOf (l : List Nat) : Bool := l.length == 192

/-- A flit whose header fields fit (R517). -/
def flitShape (f : Flit) : Bool :=
  below 8 f.typ && below 64 f.lines && below 8 f.op && below 4 f.dtype && below 64 f.retCount && below 4096 f.seq && below 2048 f.dest &&
  below 2048 f.src && below 4 f.retVc && below 256 f.hchk && below (2 ^ 41) f.addr && below 4096 f.ack && below 2048 f.tag

/-- The command is well formed. -/
def wellFormed : Instr → Bool
  | .registerWrite off _ => wordOffset off
  | .readLoLatch off => wordOffset off
  | .counterOvfClear off _ => wordOffset off
  | .ctrlAccessError off _ _ => below (2 ^ 40) off
  | .undefinedRegAccess off _ => below (2 ^ 40) off
  | .ltrefLock => true
  | .ltrefLoss => true
  | .ltepochPulse => true
  | .epochBoundary => true
  | .holdoverExpire => true
  | .ttLockTimeout => true
  | .markReqRx port sub => below 36 port && below 16 sub
  | .markRepRx port _ _ hops state sub => below 36 port && below 64 hops && below 5 state && below 16 sub
  | .rowArm row => below 4096 row
  | .slotWindowOpen row => below 4096 row
  | .recvWindowOpen row => below 4096 row
  | .exchangeWindowOpen row => below 4096 row
  | .refreshWindowOpen row => below 4096 row
  | .possessionWindowOpen row => below 4096 row
  | .throttleWindowOpen row => below 4096 row
  | .journalWindowOpen row => below 4096 row
  | .signalRowFire row => below 4096 row
  | .markRowFire row => below 4096 row
  | .rowWindowEnd row => below 4096 row
  | .recvWindowClose row => below 4096 row
  | .lateReadyOmit row => below 4096 row
  | .ttLock m => below 4 m
  | .ttNow m => below 4 m
  | .ttSchedule m => below 4 m
  | .ttPost m => below 4 m
  | .ttCancel m => below 4 m
  | .ttList m => below 4 m
  | .ttArm m => below 4 m
  | .blockPlace => true
  | .barrierStall core _ => below 2560 core
  | .l0LineFill core _ => below 2560 core
  | .uwaitPoll core slot => below 2560 core && below 16 slot
  | .uwaitTimeout core slot => below 2560 core && below 16 slot
  | .l0InvAllWrite _ => true
  | .diagCore m => below 4 m
  | .mmaArrayComplete core => below 2560 core
  | .nop core slot _ => below 2560 core && below 16 slot
  | .bra core slot _ => below 2560 core && below 16 slot
  | .call core slot _ => below 2560 core && below 16 slot
  | .jmp core slot _ => below 2560 core && below 16 slot
  | .exit core slot _ => below 2560 core && below 16 slot
  | .bar core slot _ => below 2560 core && below 16 slot
  | .trap core slot _ => below 2560 core && below 16 slot
  | .iadd core slot _ => below 2560 core && below 16 slot
  | .isub core slot _ => below 2560 core && below 16 slot
  | .imul core slot _ => below 2560 core && below 16 slot
  | .imulhi core slot _ => below 2560 core && below 16 slot
  | .imac core slot _ => below 2560 core && below 16 slot
  | .imin core slot _ => below 2560 core && below 16 slot
  | .imax core slot _ => below 2560 core && below 16 slot
  | .shl core slot _ => below 2560 core && below 16 slot
  | .shr core slot _ => below 2560 core && below 16 slot
  | .andI core slot _ => below 2560 core && below 16 slot
  | .orI core slot _ => below 2560 core && below 16 slot
  | .xorI core slot _ => below 2560 core && below 16 slot
  | .pcnt core slot _ => below 2560 core && below 16 slot
  | .clz core slot _ => below 2560 core && below 16 slot
  | .bext core slot _ => below 2560 core && below 16 slot
  | .bins core slot _ => below 2560 core && below 16 slot
  | .mov core slot _ => below 2560 core && below 16 slot
  | .movi core slot _ => below 2560 core && below 16 slot
  | .sel core slot _ => below 2560 core && below 16 slot
  | .bsel core slot _ => below 2560 core && below 16 slot
  | .xlane core slot _ => below 2560 core && below 16 slot
  | .rdsp core slot _ => below 2560 core && below 16 slot
  | .iadd64 core slot _ => below 2560 core && below 16 slot
  | .fadd core slot _ => below 2560 core && below 16 slot
  | .fmul core slot _ => below 2560 core && below 16 slot
  | .fmac core slot _ => below 2560 core && below 16 slot
  | .fmin core slot _ => below 2560 core && below 16 slot
  | .fmax core slot _ => below 2560 core && below 16 slot
  | .pkadd core slot _ => below 2560 core && below 16 slot
  | .pkmul core slot _ => below 2560 core && below 16 slot
  | .pkmac core slot _ => below 2560 core && below 16 slot
  | .pkmin core slot _ => below 2560 core && below 16 slot
  | .pkmax core slot _ => below 2560 core && below 16 slot
  | .cvt core slot _ => below 2560 core && below 16 slot
  | .rcp core slot _ => below 2560 core && below 16 slot
  | .rsq core slot _ => below 2560 core && below 16 slot
  | .sqrt core slot _ => below 2560 core && below 16 slot
  | .exp2 core slot _ => below 2560 core && below 16 slot
  | .log2 core slot _ => below 2560 core && below 16 slot
  | .tanh core slot _ => below 2560 core && below 16 slot
  | .icmp core slot _ => below 2560 core && below 16 slot
  | .fcmp core slot _ => below 2560 core && below 16 slot
  | .pcomb core slot _ => below 2560 core && below 16 slot
  | .pgrp core slot _ => below 2560 core && below 16 slot
  | .p2v core slot _ => below 2560 core && below 16 slot
  | .v2p core slot _ => below 2560 core && below 16 slot
  | .uadd core slot _ => below 2560 core && below 16 slot
  | .usub core slot _ => below 2560 core && below 16 slot
  | .umul core slot _ => below 2560 core && below 16 slot
  | .uand core slot _ => below 2560 core && below 16 slot
  | .uor core slot _ => below 2560 core && below 16 slot
  | .uxor core slot _ => below 2560 core && below 16 slot
  | .ushl core slot _ => below 2560 core && below 16 slot
  | .ushr core slot _ => below 2560 core && below 16 slot
  | .umov core slot _ => below 2560 core && below 16 slot
  | .umovi core slot _ => below 2560 core && below 16 slot
  | .uadd64 core slot _ => below 2560 core && below 16 slot
  | .ucmp core slot _ => below 2560 core && below 16 slot
  | .urdsp core slot _ => below 2560 core && below 16 slot
  | .ld core slot _ => below 2560 core && below 16 slot
  | .st core slot _ => below 2560 core && below 16 slot
  | .fence core slot _ => below 2560 core && below 16 slot
  | .l0inv core slot _ => below 2560 core && below 16 slot
  | .uld core slot _ => below 2560 core && below 16 slot
  | .uwait core slot _ => below 2560 core && below 16 slot
  | .atomAdd core slot _ => below 2560 core && below 16 slot
  | .atomFadd core slot _ => below 2560 core && below 16 slot
  | .atomSmin core slot _ => below 2560 core && below 16 slot
  | .atomSmax core slot _ => below 2560 core && below 16 slot
  | .atomUmin core slot _ => below 2560 core && below 16 slot
  | .atomUmax core slot _ => below 2560 core && below 16 slot
  | .atomAnd core slot _ => below 2560 core && below 16 slot
  | .atomOr core slot _ => below 2560 core && below 16 slot
  | .atomXor core slot _ => below 2560 core && below 16 slot
  | .atomExch core slot _ => below 2560 core && below 16 slot
  | .atomCas core slot _ => below 2560 core && below 16 slot
  | .sig core slot _ => below 2560 core && below 16 slot
  | .mma core slot _ => below 2560 core && below 16 slot
  | .tzero core slot _ => below 2560 core && below 16 slot
  | .trd core slot _ => below 2560 core && below 16 slot
  | .twr core slot _ => below 2560 core && below 16 slot
  | .tst core slot _ => below 2560 core && below 16 slot
  | .sliceRead g => below 128 g
  | .sliceWrite g => below 128 g
  | .slicePartialWrite g => below 128 g
  | .collectAtomic g => below 128 g
  | .collectReduce g => below 128 g
  | .sliceClassDPromote g _ => below 128 g
  | .cacheFillReturn _ => true
  | .evictionWriteback half => below 2 half
  | .evictionRoomResume half => below 2 half
  | .sidingDrain half => below 2 half
  | .sidingRoomResume half => below 2 half
  | .bufScrubLine half => below 2 half
  | .bufCtrlFlush _ => true
  | .bufRegion m => below 4 m
  | .bufFlush m => below 4 m
  | .bufScrub m => below 4 m
  | .bufClear m => below 4 m
  | .bufFlip m => below 4 m
  | .conDescriptorAccept ring => below 64 ring
  | .conWaitPoll die _ => below 2 die
  | .conWaitTimeout die _ => below 2 die
  | .fetchWagonStart die => below 2 die
  | .fetchLineReturn die _ => below 2 die
  | .expandWagon die engine => below 2 die && below 64 engine
  | .expandHand die engine => below 2 die && below 64 engine
  | .stageWagonWrite die _ => below 2 die
  | .stageWagonRetire die _ => below 2 die
  | .despatchWagon row die => below 4096 row && below 2 die
  | .consistReclaimDone die handoff => below 2 die && below 5 handoff
  | .regulatorRefill k => below 64 k
  | .conResetWrite _ => true
  | .conRun m => below 4 m
  | .conRegulate m => below 4 m
  | .conReset m => below 4 m
  | .ptsJobAccept engine => below 2 engine
  | .ptsWaitPoll engine => below 2 engine
  | .ptsWaitTimeout engine => below 2 engine
  | .routeJobRun engine => below 2 engine
  | .tallyJobRun engine => below 2 engine
  | .ptsJobComplete engine => below 2 engine
  | .gatePoll _ => true
  | .gateTimeout _ => true
  | .ptsTblDataWrite _ => true
  | .ptsResetWrite _ => true
  | .ptsTable m => below 4 m
  | .ptsRoute m => below 4 m
  | .ptsTally m => below 4 m
  | .ptsReset m => below 4 m
  | .hbmRead stack => below 24 stack
  | .hbmWrite stack => below 24 stack
  | .hbmPartialWrite stack => below 24 stack
  | .hbmClassDPromote stack _ => below 24 stack
  | .refreshTimer stack => below 24 stack
  | .hbmTrainingFinish stack _ setting => below 24 stack && below 256 setting
  | .hbmTempRead stack _ => below 24 stack
  | .hbmScrubLine stack => below 24 stack
  | .hbmOosWrite stack _ => below 24 stack
  | .hbmDrainDone stack => below 24 stack
  | .hbmService m => below 4 m
  | .hbmThrottle m => below 4 m
  | .hbmScrub m => below 4 m
  | .hbmFlip m => below 4 m
  | .hbmStatus m => below 4 m
  | .diagHbm m => below 4 m
  | .laneSignalDetect port lane => below 36 port && below 4 lane
  | .laneCdrLock port lane => below 36 port && below 4 lane
  | .laneFrameLock port lane _ field => below 36 port && below 4 lane && below 32 field
  | .laneAdaptPass port lane _ _ => below 36 port && below 4 lane
  | .laneAdaptTimeout port lane => below 36 port && below 4 lane
  | .laneRateStep port _ _ _ => below 36 port
  | .portBringupTimeout port => below 36 port
  | .laneFrameReceive port lane _ _ _ => below 36 port && below 4 lane
  | .laneFail port lane _ => below 36 port && below 4 lane
  | .eyeStartWrite port _ => below 36 port
  | .eyePointDone port _ => below 36 port
  | .farLoopExit port => below 36 port
  | .laneEnWrite port _ => below 36 port
  | .loopSelectWrite port _ => below 36 port
  | .lnkOosWrite port _ => below 36 port
  | .lnkEye m => below 4 m
  | .lnkLoop m => below 4 m
  | .lnkLane m => below 4 m
  | .lnkService m => below 4 m
  | .lnkStatus m => below 4 m
  | .lnkTopo m => below 4 m
  | .flitDataWriteRx port f => below 36 port && flitShape f
  | .flitDataReduceRx port f => below 36 port && flitShape f
  | .voidMarkerRx port f => below 36 port && flitShape f
  | .reqReadRx port f => below 36 port && flitShape f
  | .reqWriteRx port f => below 36 port && flitShape f
  | .reqMaskedWriteRx port f => below 36 port && flitShape f
  | .reqAtomicRx port f => below 36 port && flitShape f
  | .respReadDataRx port f => below 36 port && flitShape f
  | .respWriteAckRx port f => below 36 port && flitShape f
  | .respAtomicResultRx port f => below 36 port && flitShape f
  | .respErrorRx port f => below 36 port && flitShape f
  | .idleRx port f => below 36 port && flitShape f
  | .nakRx port f => below 36 port && flitShape f
  | .auditRx port f => below 36 port && flitShape f
  | .reclaimReqRx port f => below 36 port && flitShape f
  | .reclaimRepRx port f => below 36 port && flitShape f
  | .identRx port f => below 36 port && flitShape f
  | .departRx port f => below 36 port && flitShape f
  | .routedRx port f => below 36 port && flitShape f
  | .replayTimeout port => below 36 port
  | .nakRepeat port => below 36 port
  | .linkLockTimeout port => below 36 port
  | .linkDrainEnd port => below 36 port
  | .linkReclaimWrite port _ => below 36 port
  | .linkRetrainWrite port _ => below 36 port
  | .d2dReclaimDone unit => below 9 unit
  | .laneCheckTurn unit _ => below 9 unit
  | .clockLoss clock => below 13 clock
  | .computeDieLost die _ => below 8 die
  | .dieFenceComplete die => below 8 die
  | .roleFatal base kind => below 2 base && below 16 kind
  | .d2dMapDataAccess _ _ => true
  | .d2dDie m => below 4 m
  | .d2dCheck m => below 4 m
  | .d2dMap m => below 4 m
  | .d2dStatus m => below 4 m
  | .diagD2d m => below 4 m
  | .hostMemRead off => below (2 ^ 36) off
  | .hostMemWrite off data mask => below (2 ^ 36) off && bytesOf 64 data && flagsOf 64 mask
  | .hostIoRead path off _ => below 2 path && below (2 ^ 36) off
  | .hostIoWrite path off _ _ => below 2 path && below (2 ^ 36) off
  | .hostAtomicop path off op _ _ _ => below 2 path && below (2 ^ 36) off && below 3 op
  | .biasRecallResponse granule _ _ data => below (2 ^ 20) granule && bytesOf 128 data
  | .biasFlipHostComplete granule => below (2 ^ 20) granule
  | .biasDwellExpire granule => below (2 ^ 20) granule
  | .readaheadExpire path _ => below 2 path
  | .hostReadaheadWrite _ => true
  | .hostBiasDataAccess _ _ => true
  | .hostDoorbellWrite n _ => below 64 n
  | .eventRingDoorbell n _ => below 64 n
  | .ringEntryReread n => below 64 n
  | .doorbellAhead n => below 64 n
  | .h0LinkDown => true
  | .h0HoldoffExpire => true
  | .h0HotReset => true
  | .h1LinkLoss => true
  | .h0PerstRelease => true
  | .h1Perst => true
  | .msixGapExpire vector => below 64 vector
  | .hostWindow m => below 4 m
  | .hostBias m => below 4 m
  | .hostPolicy m => below 4 m
  | .mailboxGo m _ => below 4 m
  | .commandWaitResume m => below 4 m
  | .launchAccept ring => below 64 ring
  | .sysSize m => below 4 m
  | .sysIdent m => below 4 m
  | .sysState m => below 4 m
  | .sysRing m => below 4 m
  | .sysAbort m => below 4 m
  | .sysReset m => below 4 m
  | .vin48Rise _ => true
  | .modRstRelease => true
  | .miotoWatchdogExpire => true
  | .startReady _ _ _ => true
  | .bootThermalRecheck temps powers => sensorsOf temps && sensorsOf powers
  | .secMeasure m => below 4 m
  | .secAttest m => below 4 m
  | .secUpdate m => below 4 m
  | .heartbeatRx port f => below 36 port && flitShape f
  | .jendRx port f => below 36 port && flitShape f
  | .jackRx port f => below 36 port && flitShape f
  | .pairRx port f => below 36 port && flitShape f
  | .unpairRx port f => below 36 port && flitShape f
  | .regionRx port f => below 36 port && flitShape f
  | .twinHbRx port f => below 36 port && flitShape f
  | .twinTakeRx port f => below 36 port && flitShape f
  | .twinReleaseRx port f => below 36 port && flitShape f
  | .twinHandoverProceed => true
  | .twinAliasDataRead => true
  | .twinPair m => below 4 m
  | .twinDetach m => below 4 m
  | .twinProtect m => below 4 m
  | .twinStatus m => below 4 m
  | .twinPolicy m => below 4 m
  | .powerSample _ _ => true
  | .thermalSample temps powers => sensorsOf temps && sensorsOf powers
  | .throttleTimer => true
  | .railFault rail => below 27 rail
  | .converterFail n => below 4 n
  | .vin48Undervolt => true
  | .vin48Overvolt => true
  | .pwrLimit m => below 4 m
  | .pwrStatus m => below 4 m
  | .smbRead _ off _ => below (2 ^ 40) off
  | .smbWrite _ off _ => below (2 ^ 40) off
  | .smbAlertResponse => true
  | .jtagBypass _ => true
  | .jtagIdcode => true
  | .jtagSample _ => true
  | .jtagExtest _ => true
  | .jtagFlashProg bank off _ => below 2 bank && below (2 ^ 40) off
  | .h0LinkUp _ _ => true
  | .h0PerstAssert => true
  | .modRstAssert _ => true
  | .ltepochLoss => true
  | .portFrameSend port => below 36 port
  | .cxlCacheSnoop _ => true
  | .twinPairTimeout => true
  | .loopTestEnd port _ _ _ _ => below 36 port
  | .codeCacheFill core slot => below 2560 core && below 16 slot
  | .hbmArrayTestEnd stack _ _ _ => below 24 stack
  | .coreTestEnd die _ _ _ => below 8 die
  | .d2dTestEnd die _ => below 8 die
  | .hbmReturnDone stack _ => below 24 stack
  | .bufClearDone half => below 2 half
  | .flashProgramDone _ => true

end Sys2Proof
end

