-- ==== Sys2Proof/Tests/Slice0.lean ====
section
/-! SUPPORT. Tests of the model: ill-formed commands that the checks refuse, single steps whose results the spec states, and for every statement with hypotheses a state and operands
that meet them, clause by clause. -/

namespace Sys2Proof.Tests

open Sys2Proof Sys2Proof.Machine

set_option Elab.async false

/-! ### Small states -/

/-- A module at READY. -/
def ready : Chip := { start := { phase := 5, completed := true } }

/-- A state with its rails on and the module m. -/
def st (m : Chip) : State := { board := { vin := true, vsb := true, rails := true }, chip := m }

/-- The module with register fields set. -/
def fields (m : Chip) (l : List (Fld × Nat)) : Chip := l.foldl (fun c p => fset c p.1 p.2) m

/-- A module at READY with mailbox 0 about to run a command. -/
def cmd (code : Nat) (pay : List Nat) (m : Chip := ready) : Chip := { m with mb := [some { code := code, pay := pay, phase := 1 }, none, none, none] }

/-- The module at READY in a lock state. -/
def locked (n : Nat) : Chip := fields ready [(TT_LT_STAT_STATE, n)]

/-- The state that a command answers, or the one that it was run in. -/
def after (o : Host.Outcome State Fault Refusal) (s : State) : State :=
  match o with
  | .next t => t
  | _ => s

/-- The words of a row: kind, tag, start, length, period, count, class, index. -/
def rowW (kind tag start len period count cls idx : Nat) : List Nat :=
  [kind * 2 ^ 28 + tag, start, 0, len * 2 ^ 16, period, count * 2 ^ 16, 0, cls * 2 ^ 24 + idx * 2 ^ 16]

/-- A module with a row at index 0. -/
def withRow (m : Chip) (r : TtRow) : Chip := { m with rows := [(0, some r)] }

/-! ### What meets the hypotheses of the statements -/

theorem meets_StepRunsFrontCommand : ({ st ready with pending := [.ttNow 0, .jtagIdcode] } : State).pending = .ttNow 0 :: [.jtagIdcode] := by decide +kernel

theorem meets_EmptyQueueLetsTimePass :
    (State.reset.pending = [] ∧ State.reset.board.rails = false) ∧ ((st {}).pending = [] ∧ (st {}).board.rails = true ∧ (st {}).chip.start.phase = 0) ∧
    ((st ready).pending = [] ∧ (st ready).board.rails = true ∧ (st ready).chip.start.phase ≠ 0 ∧ (st ready).chip.lt.pause = 0) ∧
    (let s := st { ready with lt := { pause := 1 } }; s.pending = [] ∧ s.board.rails = true ∧ s.chip.start.phase ≠ 0 ∧ 0 < s.chip.lt.pause) := by decide +kernel

theorem meets_PowerOrderKept : PowerInv (st ready) ∧ ∃ t, step (st ready) = .next t := ⟨⟨by decide, by decide⟩, _, rfl⟩

theorem meets_CommandsLeaveQueueAndStillModule :
    (∃ t, exec .jtagIdcode (st ready) = .next t) ∧ acts State.reset = false ∧ boardRow (.ttNow 0) = false := ⟨⟨_, rfl⟩, by decide, by decide⟩

/-- The fields of a register, or none. -/
def fieldsAt (off : Nat) : List FDef := (regFields off).getD []

theorem meets_RegisterFieldsObeyTheirTypes :
    ((regFields TT_HOLDOVER_LIMIT.off).isSome = true ∧ TT_HOLDOVER_LIMIT.off ≠ D2D_MAP_SEL_UNIT.off ∧
      (fieldsAt TT_HOLDOVER_LIMIT.off).any (fun f => f.ty == .rw && f.ok (bitsN 16 f.hi f.lo)) = true ∧
      (fieldsAt TT_HOLDOVER_LIMIT.off).any (fun f => f.ty == .rw && !f.ok (bitsN 17 f.hi f.lo)) = true) ∧
    (TT_LT_STAT_LOCK_LOST.off ≠ D2D_MAP_SEL_UNIT.off ∧ (fieldsAt TT_LT_STAT_LOCK_LOST.off).any (fun f => f.ty == .w1c) = true ∧
      (fieldsAt TT_LT_STAT_LOCK_LOST.off).any (fun f => f.ty == .ro) = true) ∧
    (fieldsAt 0xA0010).any (fun f => f.ty == .wo) = true := by decide +kernel

theorem meets_ControlSpaceAccesses :
    acts (st ready) = true ∧
    (0x10014 % 4 = 0 ∧ regDefined 0x10014 = true ∧ isCtrLo 0x10014 = false ∧ isCtrHi 0x10014 = false ∧ ownRow ready 0x10014 16 = false ∧ (0x10014 : Nat) ≠ TT_CTRL_ARM.off ∧
      runIndex 0x40100 4 64 0x10014 = none ∧ runIndex 0x60100 0x100 24 0x10014 = none) ∧
    (regDefined 0x10008 = true ∧ isPairLo 0x10008 = true) ∧
    (let m : Chip := { ready with latch := [(0x1000C, 8)] }
     regDefined 0x1000C = true ∧ isPairLo 0x1000C = false ∧ isPairHi 0x1000C = true ∧ tget 0 0x1000C m.latch = 7 + 1) ∧
    (regDefined 0x10004 = true ∧ isPairLo 0x10004 = false ∧ isPairHi 0x10004 = false) ∧
    (isCtrHi 0x10024 = true ∧ tb 0x80000000 31 = true) ∧ ((2 : Nat) ≠ 4 ∨ 2 % 4 ≠ 0) ∧ (0x2 % 4 ≠ 0) ∧ (0xFFF00 % 4 = 0 ∧ regDefined 0xFFF00 = false) := by decide +kernel

theorem meets_CountersSaturate :
    cget (setCtr ready TT_VOID_CTR (2 ^ 48 - 1)) TT_VOID_CTR < 2 ^ 48 ∧ cget (setCtr ready TT_VOID_CTR (2 ^ 48 - 1)) TT_VOID_CTR = 2 ^ 48 - 1 ∧ cget ready TT_VOID_CTR < 2 ^ 48 := by decide +kernel

theorem meets_QuietStepEnd :
    (ready.err.due = [] ∧ ready.err.ovf = [] ∧ ready.start.recDue = false) ∧ (0x400 ≠ 0x404 ∧ 0x400 < 0x43C) ∧ 0x454 ≤ 0x454 ∧
    (TWIN_STAT_STATE.lo ≤ TWIN_STAT_STATE.hi ∧ TWIN_STAT_STATE.hi < 32 ∧
      [TWIN_STAT_P17_UP, TWIN_STAT_P34_UP, TWIN_STAT_QUORUM_OK].all (fun g => decide (TWIN_STAT_STATE.hi < g.lo ∨ g.hi < TWIN_STAT_STATE.lo)) = true) := by decide +kernel

theorem meets_LockStateFollowsClockInputs :
    (ltState (locked 3) = 3 ∧ ltState (locked 3) ≠ 2) ∧
    (let s := st { locked 0 with lt := { wanted := true } }; acts s = true ∧ ltState s.chip = 0 ∧ s.chip.lt.wanted = true) ∧
    (let s := st (locked 2); acts s = true ∧ ltState s.chip ≠ 0) ∧ (ltState (locked 1) = 1 ∧ ltState (locked 2) = 2) ∧
    (let s := st { fields (locked 4) [(TT_HOLDOVER_LIMIT, 1)] with lt := { held := 2 } }
     acts s = true ∧ ltState s.chip = 4 ∧ fget s.chip TT_HOLDOVER_LIMIT < s.chip.lt.held ∧ s.chip.lt.extRef = false) := by decide +kernel

theorem meets_EpochPulseAndMarkers :
    (let s := st { locked 3 with lt := { lt := 3 } }; acts s = true ∧ ltState s.chip = 3 ∧ 2 < s.chip.lt.lt % 2 ^ 20 ∧ s.chip.lt.lt % 2 ^ 20 < 2 ^ 20 - 2) ∧
    (let s := st { locked 1 with lt := { lt := 2 ^ 19 - 1 } }; ltState s.chip ≠ 3 ∧ 0 < s.chip.lt.lt % 2 ^ 20 ∧ s.chip.lt.lt % 2 ^ 20 < 2 ^ 19) ∧
    (let s := st { locked 1 with lt := { lt := 2 ^ 19 } }; ltState s.chip ≠ 3 ∧ 2 ^ 19 ≤ s.chip.lt.lt % 2 ^ 20) ∧
    (let s := st (fields (locked 3) [(LNKp_LINK_STATE 0, 3)]); acts s = true ∧ 0 < 36 ∧ 3 ≤ linkSt s.chip 0) ∧
    (let s := st (fields (locked 3) [(LNKp_LINK_STATE 0, 5)]); 3 < linkSt s.chip 0 ∧ parentPort 0 = true ∧ fon s.chip TT_CTRL_ROOT = false ∧ s.chip.lt.parent ≠ some 0) ∧
    (let s := st { fields (locked 3) [(LNKp_LINK_STATE 0, 5)] with lt := { parent := some 0 } }
     3 < linkSt s.chip 0 ∧ parentPort 0 = true ∧ fon s.chip TT_CTRL_ROOT = false ∧ s.chip.lt.parent = some 0 ∧ 2 ≤ ltState s.chip) := by decide +kernel

theorem meets_EpochBoundaryTaken :
    (let s := st { lt := { lt := 2 ^ 20 }, start := { phase := 3 } }; acts s = true ∧ epochDue s.chip = true ∧ s.chip.start.phase < 4) ∧
    (let s := st { ready with lt := { lt := 2 ^ 20 } }; acts s = true ∧ epochDue s.chip = true ∧ 4 ≤ s.chip.start.phase) ∧
    (let s := st { ready with lt := { lock := some ⟨0, 0, 64, 0⟩ } }; s.chip.lt.lock = some ⟨0, 0, 64, 0⟩ ∧ (⟨0, 0, 64, 0⟩ : LockReq).left = 0) := by decide +kernel

/-- A software MARK row, and a row of Mioto for stack 0's refresh. -/
def markRow : TtRow := newRow (rowW 9 7 64 1 0 1 0 0) [] false
def mioRow : TtRow := newRow (rowW 4 0 64 8 256 0 2 0) [] true

/-- A software row that claims stack 0 at the same time as mioRow. -/
def blockRow : TtRow := newRow (rowW 5 8 64 8 0 1 2 0) [] false

theorem meets_RowArmsBeforeItsStart :
    (let s := st (withRow (fields (locked 3) [(TT_CTRL_ARM, 1)]) markRow)
     acts s = true ∧ rowAt s.chip 0 = some markRow ∧ markRow.st = .pending ∧ markRow.start ≤ now s.chip + 4096 ∧ markRow.start = 4096 ∧ markRow.mioto = false ∧ fon s.chip TT_CTRL_ARM = true) ∧
    fon (withRow (locked 3) markRow) TT_CTRL_ARM = false ∧
    (let m : Chip := { locked 3 with rows := [(0, some mioRow), (1, some blockRow)] }
     rowAt m 0 = some mioRow ∧ mioRow.mioto = true ∧ mioRow.start ≤ now m + 4096 ∧ miotoBlocked m mioRow mioRow.start = true ∧ rowKind mioRow.w ≠ 7) := by decide +kernel

/-- A row of a kind that is ARMED, or ACTIVE, with its time come. -/
def armedRow (kind : Nat) : TtRow := { newRow (rowW kind 7 0 1 0 1 0 0) [] (kind == 4 || kind == 6 || kind == 7) with st := .armed }
def activeRow (kind : Nat) : TtRow := { armedRow kind with st := .active }

theorem meets_WindowsOpenAtTheirStart :
    acts (st (locked 3)) = true ∧ ltLocked (locked 3) = true ∧ ltLocked (locked 2) = false ∧
    ([1, 2, 3, 4, 5, 6, 7, 8, 9].all (fun k => rowAt (withRow (locked 3) (armedRow k)) 0 == some (armedRow k) && (armedRow k).st == .armed &&
      decide ((armedRow k).start ≤ now (locked 3)) && rowKind (armedRow k).w == k)) = true := by decide +kernel

theorem meets_WindowsCloseAtTheirEnd :
    (let m : Chip := { locked 3 with lt := { lt := 64 } }
     acts (st m) = true ∧ ([1, 2, 3, 4, 5, 6, 8, 9].all (fun k => rowAt (withRow m (activeRow k)) 0 == some (activeRow k) && (activeRow k).st == .active &&
       decide (rowEnd (activeRow k) ≤ now m) && rowEnd (activeRow k) == 64 && rowKind (activeRow k).w == k && !(activeRow k).void)) = true ∧
     ({ activeRow 1 with void := true } : TtRow).void = true ∧ allSent { activeRow 1 with par := [0, 1, 0, 256], sent := [0, 0] } = false ∧
     windowBusy (withRow m (activeRow 2)) 0 = false ∧ ({ activeRow 2 with bad := true } : TtRow).bad = true ∧ (activeRow 2).bad = false ∧
     (recvRecord (withRow m (activeRow 2)) (activeRow 2)).2 = false) := by decide +kernel

/-- A SLOT row under OMIT that is void, and one whose contribution is on its way. -/
def omitRow : TtRow := { activeRow 1 with w := rowW 1 (2 ^ 22 + 7) 0 2 0 1 5 0, par := [1, 1, 0, 128, 0, 0xE000, 0, 0, 0, 0xE000, 0, 0, 0, 0, 0, 0], void := true }

theorem meets_WindowsCloseAtTheirEnd_late :
    (let m := withRow (locked 3) omitRow; acts (st m) = true ∧ rowAt m 0 = some omitRow ∧ omitRow.st = .active ∧ lateWatched m omitRow = true ∧ (readyNow m 0 omitRow).1 = true) ∧
    despatching (withRow (locked 3) (activeRow 1)) 0 = true := by decide +kernel

theorem meets_RowReturnsOrRetires :
    (let r := { activeRow 9 with w := rowW 9 7 0 1 4 2 0 0 }; rowPeriod r.w ≠ 0 ∧ r.cancelled = false ∧ (rowCount r.w = 0 ∨ r.run + r.skipped + 1 < rowCount r.w)) ∧
    (let r := { activeRow 9 with w := rowW 9 7 0 1 4 1 0 0 }; ¬ (rowPeriod r.w ≠ 0 ∧ r.cancelled = false ∧ (rowCount r.w = 0 ∨ r.run + r.skipped + 1 < rowCount r.w))) := by decide +kernel
theorem meets_ResponseWordsAsGiven : 3 < 4 ∧ 2 ^ 16 - 1 < 2 ^ 16 ∧ (List.replicate 509 7).length ≤ 509 := by decide +kernel

/-- A request of TT.SCHEDULE: the mesh all-gather of 1,024 bytes under OMIT, from 65,536 lt on. -/
def schReq : List Nat :=
  [2 * 2 ^ 28 + 2 ^ 19 + 1, 1024, 0, 1024, 0, 0xE000, 0x10000, 0xE000, 0x20000, 0xE000, 1, 0x30000, 0xE000, 0x40000, 0xE000, 0x100000, 0xE000, 0, 0, 0]

/-- A request of TT.POST: one MARK row at a start. -/
def postReq (start : Nat) : List Nat := 1 :: rowW 9 7 start 1 0 1 0 0

/-- The module that acts on a TT.SCHEDULE request: what it builds, and the checks. -/
def schBuilt (m : Chip) (p : List Nat) : Layout × Nat := buildAll p (schSteps m p)

theorem meets_TimetableCommands :
    (let m := cmd 0x0201 [5, 64, 0]; acts (st m) = true ∧ cmdReady m 0 0x0201 = true ∧ fon m TT_CTRL_ARM = false ∧ moduleNum m ≠ some 5) ∧
    cmdReady (cmd 0x0202 []) 0 0x0202 = true ∧
    (let m := cmd 0x0203 schReq (locked 3)
     cmdReady m 0 0x0203 = true ∧ cmdPay m 0 = schReq ∧ schFieldBad schReq = false ∧ ((schBuilt m schReq).1.rows.any (fun r => r.len == 0 || decide (65535 < r.len) || rowTag r.w == 0)) = false ∧
     shapeBad m schReq (schSteps m schReq) (schBuilt m schReq).1 = false ∧ postChecks m ((schBuilt m schReq).1.rows.map (fun r => (r.w, r.par))) = none) ∧
    (let m := cmd 0x0203 schReq (locked 2)
     shapeBad m schReq (schSteps m schReq) (schBuilt m schReq).1 = false ∧ postChecks m ((schBuilt m schReq).1.rows.map (fun r => (r.w, r.par))) = some (0x0203, 0)) ∧
    (let m := cmd 0x0204 (postReq 1024) (locked 3); cmdReady m 0 0x0204 = true ∧ postChecks (readParams m (postRows (postReq 1024))).2 (readParams m (postRows (postReq 1024))).1 = none) ∧
    (let m := cmd 0x0204 (postReq 1023) (locked 3); cmdReady m 0 0x0204 = true ∧ postChecks (readParams m (postRows (postReq 1023))).2 (readParams m (postRows (postReq 1023))).1 = some (0x0204, 0)) ∧
    (let m := cmd 0x0205 [7] (withRow (locked 3) markRow)
     cmdReady m 0 0x0205 = true ∧ (softRows m).find? (fun e => rowTag e.2.w == nth (cmdPay m 0) 0) = some (0, markRow) ∧ (∀ e ∈ rowsOf m, rowSpill e.2.w ≠ nth (cmdPay m 0) 0) ∧ markRow.st ≠ .active) ∧
    (let m := cmd 0x0205 [7] (withRow (locked 3) (activeRow 9))
     (softRows m).find? (fun e => rowTag e.2.w == nth (cmdPay m 0) 0) = some (0, activeRow 9) ∧ (∀ e ∈ rowsOf m, rowSpill e.2.w ≠ nth (cmdPay m 0) 0) ∧ (activeRow 9).st = .active) ∧
    cmdReady (cmd 0x0206 [0]) 0 0x0206 = true ∧
    (let m := cmd 0x0207 [1] (locked 3); cmdReady m 0 0x0207 = true ∧ ltLocked m = true ∧ fget m TWIN_STAT_STATE ≠ 6 ∧ fget m TWIN_STAT_STATE ≠ 7) ∧
    (let m := cmd 0x0207 [0]; cmdReady m 0 0x0207 = true ∧ nth (cmdPay m 0) 0 ≠ 1) := by decide +kernel

/-- A module with ring 0 of a kind, its doorbell one entry ahead. -/
def ringed (kind : Nat) (r : Ring := { base := 0xE00000000000, compl := 0xE00000010000, target := some 6 }) : Chip :=
  { fields ready [(MB_RINGn_CFG_KIND 0, kind), (MB_RINGn_CFG_ENTRIES 0, 64), (MB_RINGn_L_L 0, 5)] with rings := [(0, some r)] }

/-- A launch descriptor of one block of one group on core 0, with its gate and skip words. -/
def launchW (gate skip : Nat) : List Nat :=
  [2 ^ 28, 7 * 2 ^ 16, 0x1000, 0xE000, 8 * 2 ^ 24 + 2 ^ 16, 1, 2 ^ 16, 0, gate * 2 ^ 31 + 64, 1, skip * 2 ^ 31 + 65, 0, 0, 0, 0, 0]

/-- A launch of ring 0 with its gate and skip words. -/
def launched (gate skip : Nat) : Launch := { ring := 0, seq := 1, w := launchW gate skip, t0 := 0 }

/-- A module with launch 0. -/
def withLaunch (m : Chip) (x : Launch) : Chip := { m with launches := [(0, some x)], launchId := 1 }

/-- Memory with a word of the buffer holding 1 at offset 4 * w. -/
def oneAt (m : Chip) (w : Nat) : Chip := { m with mem := [(0xE00000000000 + 4 * w, 1#8)] }

theorem meets_LaunchesFromRingToCore :
    launchWants (ringed 1) 0 = true ∧
    (launchChecks ready (launchW 0 0) = none ∧ gateWait (launchW 0 0) = false ∧ gateSkip (launchW 0 0) = false) ∧ (launchChecks ready (launchW 1 0) = none ∧ gateWait (launchW 1 0) = true) ∧
    launchChecks ready [] = some 1 ∧
    (let x := { launched 1 0 with atGate := true }
     let m := withLaunch ready x
     acts (st m) = true ∧ launch m 0 = some x ∧ x.atGate = true ∧ x.met = false ∧ gateWait x.w = true ∧ deviceReady m (gateWaitDa x.w) 4 = true ∧ (loadWord m (gateWaitDa x.w) true).2.1 = none ∧
     (loadWord m (gateWaitDa x.w) true).1 < nth x.w 9 ∧ nth x.w 9 ≤ (loadWord (oneAt m 64) (gateWaitDa x.w) true).1 ∧ (loadWord (oneAt m 64) (gateWaitDa x.w) true).2.1 = none ∧ gateSkip x.w = false) ∧
    (let x := { launched 1 1 with atGate := true, met := true }
     let m := withLaunch ready x
     launch m 0 = some x ∧ x.atGate = true ∧ x.met = true ∧ gateSkip x.w = true ∧ deviceReady m (gateSkipDa x.w) 4 = true ∧ (loadWord m (gateSkipDa x.w) true).2.1 = none ∧
     skipHolds x.w (loadWord m (gateSkipDa x.w) true).1 = true ∧ (loadWord (oneAt m 65) (gateSkipDa x.w) true).2.1 = none ∧ skipHolds x.w (loadWord (oneAt m 65) (gateSkipDa x.w) true).1 = false) ∧
    (let m := withLaunch { ready with ns := 2 ^ 30 } { launched 1 0 with atGate := true }; gateLate m 0 = true) ∧
    (let x := { launched 0 0 with order := 1, met := true }; nextPlace (withLaunch ready x) = some (0, 0, x, 0)) ∧
    cmdReady (cmd 0x0105 [2 ^ 31]) 0 0x0105 = true ∧
    (let m := cmd 0x0D01 [7] (fields ready [(D2D_CDd_STAT_STATE 7, 1)]); cmdReady m 0 0x0D01 = true ∧ dieUp m (nth (cmdPay m 0) 0) = false) ∧
    coreTest { ready with mb := [some { code := 0x0D01, pay := [7], phase := 2, aux := [7] }, none, none, none] } 7 = some 0 := by decide +kernel

/-- A group of block 0 at the first line of the buffer, and its core. -/
def grp0 : Grp := { blk := 0, idx := 0, pc := 0xE00000001000 }
def blk0 : Blk := { launch := 0, num := 0, regs := 128, groups := 1, left := 1 }

/-- A module whose core 0 holds a group and a block, and whose die's code cache holds a word at the group's PC. -/
def coreWith (g : Grp) (b : Blk) (w : Nat) : Chip :=
  { ready with cores := [(0, { groups := [(0, some g)], blocks := [(0, some b)] })], code := (g.pc / 128, leBytes 8 w) :: [] |> fun l => l :: List.replicate 7 [] }

theorem meets_CoreEvents :
    (let r : Resp := { id := 1, who := .coreFill 0 1, line := 0x1C000000000, ln := zeroLine }; fillResp { ready with resps := [r] } 0 1 = some r) ∧
    (let m : Chip := { coreWith grp0 blk0 0 with code := List.replicate 8 [] }
     acts (st m) = true ∧ 0 < 2560 ∧ codeMiss m 0 0 = true ∧ grp m 0 0 = some grp0 ∧ daOk grp0.pc = true ∧ grp0.pc % 8 = 0 ∧ (readExit m (grp0.pc / 128) false).1.fate = .good) ∧
    (let g := { grp0 with wait := .uwait 0xE00000000100 1 0 100 false }
     let m := coreWith g blk0 0
     grp m 0 0 = some g ∧ g.wait = .uwait 0xE00000000100 1 0 100 false ∧ deviceReady m 0xE00000000100 4 = true ∧ (loadWord m 0xE00000000100 false).2.1 = none ∧ (loadWord m 0xE00000000100 false).1 < 1 ∧
     (loadWord (oneAt m 64) 0xE00000000100 false).2.1 = none ∧ 1 ≤ (loadWord (oneAt m 64) 0xE00000000100 false).1 ∧ uwaitLate { m with ns := 100 } 0 0 = true) ∧
    barLate { coreWith grp0 { blk0 with wd := [(2, 10, 20, 8, 0, 5)] } 0 with ns := 30 } 0 0 = some (2, 10, 20, 8, 0, 5) ∧ (0x1#32).toNat % 2 = 1 ∧
    (let o : MmaOp := { slot := 0, word := 0, a := [], b := [], meta_ := [], scale := [], act := 0, masked := false }
     (Sys2Proof.Machine.core { ready with cores := [(2559, { mmas := [o] })] } 2559).mmas = o :: []) := by decide +kernel
/-- The group issues the word from slot 0 of core 0. -/
def runs (w : Nat) (g : Grp := grp0) (b : Blk := blk0) : Bool :=
  let s := st (coreWith g b w)
  acts s && canIssue s.chip 0 0 w [iOp w] && grp s.chip 0 0 == some g && blk s.chip 0 g.blk == some b && !illegal w && !outOfRange b.regs w

/-- Such a group issues the word in the sense of the statements about instructions. -/
theorem issues_of_runs {w : Nat} {g : Grp} {b : Blk} (hw : w < 2 ^ 64) (h : runs w g b = true) : Issues (st (coreWith g b w)) 0 0 (BitVec.ofNat 64 w) g b := by
  have e : (BitVec.ofNat 64 w).toNat = w := by rw [BitVec.toNat_ofNat]; exact Nat.mod_eq_of_lt hw
  simp only [runs, Bool.and_eq_true, beq_iff_eq, Bool.not_eq_true'] at h
  obtain ⟨⟨⟨⟨⟨h1, h2⟩, h3⟩, h4⟩, h5⟩, h6⟩ := h
  exact ⟨h1, by rw [e]; exact h2, h3, h4, by rw [e]; exact h5, by rw [e]; exact h6⟩

/-- A word of format R, from opcode, DST, SRC_A, SRC_B, SRC_C and the bits below. -/
def wR (op d a b c low : Nat) : Nat := op * 2 ^ 56 + d * 2 ^ 43 + a * 2 ^ 35 + b * 2 ^ 27 + c * 2 ^ 19 + low

/-- A word of format I, from opcode, DST, SRC_A and IMM32. -/
def wI (op d a imm : Nat) : Nat := op * 2 ^ 56 + d * 2 ^ 43 + a * 2 ^ 35 + imm

/-- A branch, guarded by p0 when asked. -/
def wBra (guard : Bool) : Nat := 2 ^ 56 + b2n guard * 2 ^ 55 + 4 * 2 ^ 27 + 8 * 2 ^ 3

/-- The group with p0 set in thread 0 alone, and a reconvergence stack of n entries. -/
def grpP (n : Nat) : Grp := { grp0 with p := [(0, 1)], stack := List.replicate n (0, 1, false) }

theorem meets_ControlFlowInstructions :
    runs 0 = true ∧ (runs (wBra false) = true ∧ acting (wBra false) grp0 = grp0.active) ∧ (runs (wBra true) = true ∧ acting (wBra true) grp0 ≠ grp0.active ∧ acting (wBra true) grp0 = 0) ∧
    (runs (wBra true) (grpP 30) = true ∧ acting (wBra true) (grpP 30) ≠ (grpP 30).active ∧ acting (wBra true) (grpP 30) ≠ 0 ∧ (grpP 30).stack.length ≤ 30) ∧
    (runs (wBra true) (grpP 31) = true ∧ acting (wBra true) (grpP 31) ≠ 0 ∧ 30 < (grpP 31).stack.length) ∧
    (runs (2 * 2 ^ 56 + 4 * 2 ^ 27 + 31 * 2 ^ 22) = true ∧ runs (wI 3 0 0x80 0) = true ∧ runs (4 * 2 ^ 56) = true) ∧
    (runs (5 * 2 ^ 56 + 2 ^ 55) = true ∧ acting (5 * 2 ^ 56 + 2 ^ 55) grp0 = 0) ∧
    (runs (5 * 2 ^ 56 + 3) = true ∧ acting (5 * 2 ^ 56 + 3) grp0 ≠ 0 ∧ blk0.wd.all (fun x => x.1 != iAux (5 * 2 ^ 56 + 3) % 4) = true) ∧
    (let b := { blk0 with wd := [(3, 0, 1, 0, 0, 0)] }; runs (5 * 2 ^ 56 + 3) grp0 b = true ∧ b.wd.all (fun x => x.1 != iAux (5 * 2 ^ 56 + 3) % 4) = false) ∧
    (runs (6 * 2 ^ 56 + 7) = true ∧ acting (6 * 2 ^ 56 + 7) grp0 ≠ 0) ∧ (runs (6 * 2 ^ 56 + 2 ^ 55) = true ∧ acting (6 * 2 ^ 56 + 2 ^ 55) grp0 = 0) := by decide +kernel

/-- Format R with v registers 3, 1, 2 and C 4; format I with 3, 1 and an immediate of 32 bits. -/
theorem meets_IntegerArithmetic :
    ([0x10, 0x11, 0x12, 0x13, 0x15, 0x16].all (fun o => runs (wR o 3 127 2 0 0) && iOp (wR o 3 127 2 0 0) == o && !iSat (wR o 3 127 2 0 0)) &&
      [0x10, 0x11].all (fun o => runs (wR o 3 1 2 0 4096) && iSat (wR o 3 1 2 0 4096)) && [0x13, 0x15, 0x16].all (fun o => runs (wR o 3 1 2 0 1)) && runs (wR 0x14 3 1 2 4 0) &&
      [0x20, 0x21, 0x22, 0x23, 0x24, 0x25, 0x26].all (fun o => runs (wI o 3 1 0xFFFFFFFF) && iOp (wI o 3 1 0xFFFFFFFF) == o) && runs (wR 0x36 4 0 2 0 0) && runs (wR 0x10 0xC0 0xC0 0x80 0 0)) = true := by
  decide +kernel

theorem meets_LogicAndBitFields :
    ([0x17, 0x18, 0x19, 0x1A, 0x1B, 0x1E].all (fun o => runs (wR o 3 1 2 0 0) && iOp (wR o 3 1 2 0 0) == o) && runs (wR 0x18 3 1 2 0 1) && runs (wR 0x1E 3 1 2 0 1) &&
      runs (wR 0x1C 3 1 0 0 0) && runs (wR 0x1D 3 1 0 0 0) && runs (wR 0x1F 3 1 2 4 0) &&
      [0x27, 0x28, 0x29, 0x2A, 0x2B, 0x2E, 0x2F].all (fun o => runs (wI o 3 1 0x3F1F) && iOp (wI o 3 1 0x3F1F) == o)) = true := by decide +kernel

theorem meets_MovesAndLaneInstructions :
    (runs (wR 0x30 3 1 0 0 0) && runs (wI 0x31 3 0 0xFFFFFFFF) && runs (wR 0x32 3 1 2 0 0x700) && runs (wR 0x33 3 1 2 4 0) && runs (wR 0x34 3 1 2 0 3) && runs (wR 0x35 3 0 0 0 0) && runs (wR 0x35 3 0 0 0 10)) = true := by
  decide +kernel

theorem meets_FloatingPointInstructions :
    ([0x40, 0x41, 0x43, 0x44, 0x60, 0x61, 0x63, 0x64].all (fun o => runs (wR o 3 1 2 0 (3 * 2 ^ 16 + 0xF800)) && iOp (wR o 3 1 2 0 (3 * 2 ^ 16 + 0xF800)) == o) &&
      [0x42, 0x62].all (fun o => runs (wR o 3 1 2 4 (3 * 2 ^ 16 + 0xF800))) && [0x60, 0x61, 0x62, 0x63, 0x64].all (fun o => runs (wR o 3 1 2 0 1)) &&
      [0x50, 0x51, 0x52, 0x53, 0x54].all (fun o => runs (wI o 3 1 (3 * 2 ^ 32 + 0x3F800000)) && iOp (wI o 3 1 (3 * 2 ^ 32 + 0x3F800000)) == o)) = true := by decide +kernel

theorem meets_RoundingKeepsRepresentableValues :
    0x7F7FFFFF < 2 ^ fp32.width ∧ fp32.decode 0x7F7FFFFF ≠ .nan ∧ 0xFFFFFFFF < 2 ^ fp32.width ∧ fp32.decode 0xFFFFFFFF = .nan ∧ fp16.decode 0xFFFF = .nan ∧ fp16.decode 1 ≠ .nan ∧
    bf16.decode 0xFFFF = .nan ∧ bf16.decode 0x8000 ≠ .nan := by decide +kernel

theorem meets_ConversionsAndSpecialFunctions :
    (runs (wR 0x70 3 1 0 0 0xCC) && runs (wR 0x70 3 1 0 1 0x11C) && [0x71, 0x72, 0x73, 0x74, 0x75, 0x76].all (fun o => runs (wR o 3 1 0 0 0) && runs (wR o 3 1 0 0 0xA000) && iOp (wR o 3 1 0 0 0) == o)) = true := by
  decide +kernel

theorem meets_PredicateInstructions :
    (runs (wR 0x80 7 1 2 0 0x775) && runs (wR 0x81 7 1 2 0 0x765) && runs (wR 0x82 7 6 5 0 0xC002) && runs (wR 0x83 7 6 0 0 0) && runs (wR 0x83 7 6 0 0 1) && runs (wR 0x83 0x84 6 0 0 2) &&
      runs (wR 0x84 3 0 0 0 0) && runs (wR 0x85 0 1 0 0 0xFF)) = true ∧ (iAux (wR 0x83 7 6 0 0 0) = 0 ∧ iAux (wR 0x83 7 6 0 0 1) = 1 ∧ iAux (wR 0x83 0x84 6 0 0 2) = 2) := by decide +kernel

theorem meets_UniformInstructions :
    ([0x90, 0x91, 0x92, 0x93, 0x94, 0x95, 0x96, 0x97].all (fun o => runs (wR o 0xBF 0x81 0x82 0 0) && iOp (wR o 0xBF 0x81 0x82 0 0) == o) && runs (wR 0x98 0xC0 0x81 0 0 0) && runs (wI 0x99 0x83 0 0xFFFFFFFF) &&
      runs (wR 0x9A 0x84 0x80 0x82 0 0) && runs (wR 0x9B 7 0x81 0x82 0 0x775) && runs (wR 0x9C 0x84 0 0 0 9) && runs (wR 0x9C 0x84 0 0 0 10)) = true ∧
    iAux (wR 0x9C 0x84 0 0 0 9) = 9 ∧ iAux (wR 0x9C 0x84 0 0 0 10) ≠ 9 := by decide +kernel

theorem meets_ThreadResultTouchesOnlyDst : 0x7F < 0x80 ∧ 63 < 64 ∧ (0x7F : Nat) ≠ 0x7E ∧ 0xC0 = 0xC0 := by decide
/-- A word of format M: opcode, DATA, UBASE, FORM, SIZE and the bits below. -/
def wM (op d ub form size low : Nat) : Nat := op * 2 ^ 56 + d * 2 ^ 43 + ub * 2 ^ 30 + form * 2 ^ 28 + size * 2 ^ 25 + low

/-- A word of format A: opcode, DST, UBASE, SIZE, RET, ORD, SCOPE, SRC_B, SRC_C and SUBOP. -/
def wA (op d ub size ret ord scope b c sub : Nat) : Nat :=
  op * 2 ^ 56 + d * 2 ^ 43 + ub * 2 ^ 30 + size * 2 ^ 25 + ret * 2 ^ 24 + ord * 2 ^ 22 + scope * 2 ^ 20 + b * 2 ^ 12 + c * 2 ^ 4 + sub

/-- A group whose pair u0 names the start of the buffer, and one that names a byte off it; a block with one scratch unit. -/
def grpU : Grp := { grp0 with u := [(1, 0xE000)] }
def grpOff : Grp := { grp0 with u := [(0, 1), (1, 0xE000)] }
def grpHole : Grp := { grp0 with u := [(1, 0x180)] }
def blkS : Blk := { blk0 with units := [0] }

/-- The acting threads with their addresses, and their faults, as the statement on loads and stores takes them. -/
def laneAddrs (w : Nat) (g : Grp) : List (Nat × Nat) := (lanes (acting w g)).map (fun t => (t, effAddr w g t))
def laneCode (w : Nat) (g : Grp) (b : Blk) (a : Nat) : Option Nat := addrCode (coreWith g b w) (iForm w) a (2 ^ iSize w) (b.units.length * 512)
def laneMisses (w : Nat) (g : Grp) (b : Blk) : List Nat :=
  (sortKeys ((laneAddrs w g).map (fun l => (lineKey (coreWith g b w) (iForm w) l.2 * 128 + l.2 % 128) / 128))).filter
    (fun k => iBypass w || k / 2 ^ 41 != 0 || (l0Find (Sys2Proof.Machine.core (coreWith g b w) 0) k).isNone)

theorem meets_LoadsStoresAndFences :
    (let w := wM 0xA0 3 0 2 2 508
     runs w grp0 blkS = true ∧ iForm w = 2 ∧ (∀ l ∈ laneAddrs w grp0, laneCode w grp0 blkS l.2 = none) ∧
     (∀ l ∈ laneAddrs w grp0, l0Parity (Sys2Proof.Machine.core (coreWith grp0 blkS w) 0) (scratchAt blkS.units l.2).1 (scratchAt blkS.units l.2).2 (2 ^ iSize w) = false)) ∧
    (let w := wM 0xA0 4 0 0 4 0
     runs w grpU = true ∧ iForm w ≠ 2 ∧ (∀ l ∈ laneAddrs w grpU, laneCode w grpU blk0 l.2 = none) ∧ (laneMisses w grpU blk0).any (storeWaits (coreWith grpU blk0 w) 0) = false) ∧
    (let w := wM 0xA1 3 0 2 2 508; runs w grp0 blkS = true ∧ iForm w = 2 ∧ (∀ l ∈ laneAddrs w grp0, laneCode w grp0 blkS l.2 = none)) ∧
    (let w := wM 0xA1 4 0 0 4 0; runs w grpU = true ∧ iForm w ≠ 2 ∧ (∀ l ∈ laneAddrs w grpU, laneCode w grpU blk0 l.2 = none)) ∧
    (let w := wM 0xA0 3 0 0 2 0; runs w grpOff = true ∧ firstFault (laneFaults (laneAddrs w grpOff) (laneCode w grpOff blk0)) = some (9, 0, 0xE00000000001)) ∧
    (let w := wM 0xA1 3 0 0 2 0; runs w grpHole = true ∧ firstFault (laneFaults (laneAddrs w grpHole) (laneCode w grpHole blk0)) = some (7, 0, 0x18000000000)) ∧
    runs (wM 0xA2 0 0 0 0 (3 * 2 ^ 19)) = true ∧ runs (wM 0xA3 0 0 0 0 0) = true ∧
    (let w := wM 0xA4 0x84 0 0 3 0
     runs w grpU = true ∧ addrCode (coreWith grpU blk0 w) (iForm w) (effAddr w grpU 0) (2 ^ iSize w) 0 = none ∧ (laneMisses w grpU blk0).any (storeWaits (coreWith grpU blk0 w) 0) = false) ∧
    (let w := wR 0xA5 0 0x80 0x82 0 30
     runs w grpU = true ∧ isBuf (rget64 grpU (iA w) 0) = true ∧ reservedBuf (rget64 grpU (iA w) 0) = false ∧ rget64 grpU (iA w) 0 % 4 = 0) := by decide +kernel

theorem meets_AtomicsAndSignals :
    ([0xB0, 0xB1, 0xB2, 0xB3, 0xB4, 0xB5, 0xB6, 0xB7, 0xB8, 0xB9].all (fun o => let w := wA o 4 0 2 1 3 3 6 0 0
      runs w grpU && iOp w == o && (lanes (acting w grpU)).all (fun t => atomCode (coreWith grpU blk0 w) (iForm w) (effAddr w grpU t) (2 ^ iSize w) == none)) = true) ∧
    (let w := wA 0xBA 4 0 3 0 0 0 6 8 0; runs w grpU = true ∧ ∀ t ∈ lanes (acting w grpU), atomCode (coreWith grpU blk0 w) (iForm w) (effAddr w grpU t) (2 ^ iSize w) = none) ∧
    ([0, 1, 2].all (fun sub => runs (wA 0xBB 0 0 2 0 0 0 0x84 0 sub) grpU) = true) ∧
    (let w := wA 0xBB 0 0 2 0 0 0 0x84 0 2; atomCode (coreWith grpU blk0 w) 0 (effAddr w grpU 0) 4 = none) := by decide +kernel

theorem meets_TileInstructions :
    acting (0xC1 * 2 ^ 56) grp0 = 2 ^ 64 - 1 ∧ ({ blk0 with masked := true } : Blk).masked = true ∧ runs (0xC1 * 2 ^ 56 + 3 * 2 ^ 49) = true ∧
    (runs (wR 0xC3 0 0x70 0 0 3) = true ∧ runs (wR 0xC3 0 0xC0 0 0 0) = true) ∧ (runs (wR 0xC2 0x70 0 0 0 3) = true ∧ iDst (wR 0xC2 0x70 0 0 0 3) + 16 ≤ 0x80) ∧
    (runs (wR 0xC2 0xC0 0 0 0 0) = true ∧ iDst (wR 0xC2 0xC0 0 0 0 0) = 0xC0) ∧
    (let w := wM 0xC4 3 0 0 0 0
     runs w grpU = true ∧ acting w grpU ≠ 0 ∧ effAddr w grpU 0 % 128 = 0 ∧
     (∀ i, i < 32 → addrCode (coreWith grpU blk0 w) (iForm w) (effAddr w grpU 0 + i * 32 * (if iSize w = 0 then 4 else 2)) 1 (blk0.units.length * 512 - (32 * (if iSize w = 0 then 4 else 2) - 1)) = none)) ∧
    (let w := 0xC0 * 2 ^ 56 + 3 * 2 ^ 49 + 8 * 2 ^ 41 + 16 * 2 ^ 33
     runs w = true ∧ mmaClass (iFmtA w) (iFmtB w) = some ⟨32, 16, 16, false, false⟩ ∧ acting w grp0 ≠ 0 ∧
     metaFails (iSparse w) (acting w grp0) (fragment grp0 (iMeta w) (mmaRegs ⟨32, 16, 16, false, false⟩ (iSparse w)).2.2.1 (acting w grp0) (metaSub (iSparse w))) = []) := by decide +kernel

/-- The first line of the buffer, and one near the top of what SCRATCH may hold; a module whose stacks serve. -/
def line0 : Nat := 0x1C000000000
def stacksUp (m : Chip) : Chip := { m with stks := List.replicate 24 { svc := 0 } }

theorem meets_WrittenLineReadsBack :
    (let m := stacksUp ready
     zeroLine.data.length = 128 ∧ zeroLine.errs = [] ∧ zeroLine.poison = false ∧ wbOk zeroLine = true ∧
     [line0, line0 + 0x1F7FFFF, 0, 24 * 2 ^ 29 - 1].all (fun ln => badAddress m (ln * 128) false == false && backing m (ln * 128) == none && parkedCopy m ln == none &&
       pathShut m (pathOf (ln * 128)) == false) = true ∧ fon m BUF_FLIP_CTRL_ARM = false ∧ fon m HBM_FLIP_CTRL_ARM = false) := by decide +kernel

/-- A request of a kind for a line, and a module with it. -/
def reqOf (k : ReqKind) (ln : Nat) (cls : Nat := 2) : Req := { id := 1, kind := k, line := ln, ln := zeroLine, cls := cls, who := .peer 0 2 0 0 }
def asked (m : Chip) (r : Req) : Chip := { m with reqs := [r] }

/-- A module with one cache region of 64 MiB in BD-N over the first GiB of stack 0, and line 0 cached. -/
def regioned : Chip := fields (stacksUp ready) [(BUF_RGNk_CFG_EN 0, 1), (BUF_RGNk_CFG_BACK_GIB 0, 1)]
def cached : Chip := cachePut regioned 0 0 { way := 0, dirty := true, ln := zeroLine }

theorem meets_SlicesAndStacksServeRequests :
    ([ReqKind.read, .write, .partialWrite, .atomic, .reduce].all (fun k =>
      let m := asked ready (reqOf k line0)
      acts (st m) && sliceNext m 0 [k] == some (reqOf k line0) && deviceReady m (line0 * 128) 128 && backing m (line0 * 128) == none && !sidingFull m line0) = true) ∧
    ([ReqKind.read, .write, .partialWrite, .atomic, .reduce].all (fun k =>
      let m := asked cached (reqOf k 0)
      sliceNext m 0 [k] == some (reqOf k 0) && deviceReady m 0 128 && backing m 0 == some 0 && (cacheGet m 0 0).isSome) = true) ∧
    (let m := asked regioned (reqOf .read 0)
     sliceNext m 0 [.read] = some (reqOf .read 0) ∧ backing m 0 = some 0 ∧ cacheGet m 0 0 = none ∧ (evOf m 0).any (fun p => p.line == 0) = false) ∧
    ([ReqKind.read, .write, .partialWrite].all (fun k =>
      let m := asked (stacksUp ready) (reqOf k (23 * 2 ^ 29))
      stackNext m 23 [k] == some (reqOf k (23 * 2 ^ 29)) && fget m (HBMs_STAT_LEVEL 23) != 3 && deviceReady m (23 * 2 ^ 36) 128 && !sidingFull m (23 * 2 ^ 29)) = true) ∧
    (let m : Chip := { asked ready (reqOf .read line0 3) with ns := 2 ^ 15 }
     reqOf .read line0 3 ∈ m.reqs ∧ (reqOf .read line0 3).cls = 3 ∧ servingSlice m line0 = some 0 ∧ 2 ^ fget m BUF_CTRL_PROMOTE_LOG2 ≤ 2 * (m.ns - 0)) ∧
    (let m : Chip := { asked (stacksUp ready) (reqOf .read 0 3) with ns := 2 ^ 15 }
     isHbm (0 * 128) = true ∧ stackOf (0 * 128) = 0 ∧ 2 ^ fget m HBM_CTRL_PROMOTE_LOG2 ≤ 2 * (m.ns - 0)) ∧
    ((reqOf .partialWrite 0).kind = .partialWrite ∧ (reqOf .partialWrite 0).who ≠ .fix) ∧
    (let r := { reqOf .partialWrite 0 with who := .fix }; r.kind = .partialWrite ∧ r.who = .fix ∧ badAddress (dropReq (asked (stacksUp ready) r) r.id) (r.line * 128) true = false) := by decide +kernel

/-- A scrub of two lines from a line on, for mailbox 0. -/
def scrubAt (ln left : Nat) : Scrub := { m := 0, next := ln, left := left }

theorem meets_BufferEventsAndCommands_events :
    (let r := { reqOf .read 0 with st := 1 }
     let m := asked regioned r
     acts (st m) = true ∧ m.reqs.find? (fun r => r.id == 1 && r.st == 1) = some r ∧ backing m 0 = some 0 ∧ cacheGet m 0 0 = none ∧ r.kind ≠ .write ∧ (readHbmLine m 0).1.fate = .good ∧
     wbOk (readHbmLine m 0).1.ln = true ∧ (cacheRoom (readHbmLine m 0).2 0 0).isSome = true) ∧
    (let m := setEv regioned 1 [⟨0, zeroLine⟩]; 1 < 2 ∧ evOf m 1 ≠ [] ∧ evOf m 0 = []) ∧
    flushing (fields regioned [(BUF_STAT_FLUSH_BUSY, 1)]) 0 = [0] ∧
    (let r := { reqOf .read 0 with st := 2 }
     let m := asked regioned r
     pickReq m (fun r => r.st == 2 && (backing m (r.line * 128)).any (fun k => k / 4 == 0)) = some r ∧ (evOf m 0).length < 512) ∧
    (let m := setSiding ready 1 [⟨line0, zeroLine⟩]; (sidingOf m 1).find? (fun p => !pathShut m (pathOf (p.line * 128))) = some ⟨line0, zeroLine⟩) ∧
    (let r := { reqOf .write line0 with st := 3 }
     let m := asked ready r
     pickReq m (fun r => r.st == 3 && sidingHalf (r.line * 128) == 1) = some r ∧ sidingFull m line0 = false) ∧
    (let m := setBufScrub regioned 0 (some (scrubAt line0 2)); bufScrub m 0 = some (scrubAt line0 2) ∧ scrubRead m line0 = none) ∧
    (let m := setBufScrub ready 0 (some (scrubAt line0 1))
     bufScrub m 0 = some (scrubAt line0 1) ∧ (scrubRead m line0).isSome = true ∧ (scrubRead m line0).all (fun x => x.1 == line0 && x.2.corr == 0 && storedFate x.2 == .good) = true) ∧
    clearMb { ready with mb := [some { code := 0x0304, pay := [], phase := 2, aux := [1, 0xE00100000000, 128] }, none, none, none] } 1 = some 0 ∧
    bitsN (0x800000#32).toNat 23 16 ≠ 0 := by decide +kernel

theorem meets_BufferEventsAndCommands_commands :
    (let p := [5 * 2 ^ 24 + 63 * 2 ^ 16, 1281 * 2 ^ 8 + 255]
     let m := cmd 0x0301 p (stacksUp ready)
     cmdReady m 0 0x0301 = true ∧ bitsN (nth p 0) 31 28 = 0 ∧ firstIdx 4 (fun k => !rgnOn m (4 * bitN (nth p 0) 27 + k)) = some 0 ∧ granulesUsed m 0 + 2 ^ bitsN (nth p 0) 26 24 = 32 ∧
     chooseGranule m 0 (bitsN (nth p 0) 26 24) (bitsN (nth p 0) 21 16) = some 0 ∧ bitsN (nth p 1) 18 8 + bitsN (nth p 1) 7 0 = 1536 ∧
     (∀ k, k < 8 → rgnOn m k = true → rangesMeet 1281 255 (fget m (BUF_RGNk_BACK_BASE k)) (fget m (BUF_RGNk_CFG_BACK_GIB k)) = false) ∧ (∀ j, j < 255 → stackUp m ((1281 + j) / 64) = true) ∧
     rowTouches m (granuleDa 0 0) (2 ^ 5 * 0x4000000) = false) ∧
    (let m := cmd 0x0301 [2 ^ 28, 0, 0] regioned
     cmdReady m 0 0x0301 = true ∧ bitsN (2 ^ 28) 31 28 ≠ 0 ∧ rgnOn m 0 = true ∧ rowTouches m (granuleDa 0 (fget m (BUF_RGNk_CFG_FIRST_GRANULE 0))) (2 ^ fget m (BUF_RGNk_CFG_SIZE 0) * 0x4000000) = false) ∧
    (let m := cmd 0x0302 [0] regioned; cmdReady m 0 0x0302 = true ∧ rgnOn m (bitsN 0 2 0) = true) ∧
    (let p := [0xFBFFFF80, 0xE000, 1, 0]
     cmdReady (cmd 0x0303 p) 0 0x0303 = true ∧ scrubRange (da01 p) (nth p 2 * 128) = true ∧ bufScrub ready 0 = none) ∧
    (cmdReady (cmd 0x0304 [0, 0xE001, 1, 0]) 0 0x0304 = true ∧ scrubRange (da01 [0, 0xE001, 1, 0]) 128 = true ∧ [0, 1, 62].all (fun j => inCache ready (min (0xE00100000000 + 127) (0xE00100000000 + j * 0x4000000)) == false) = true) ∧
    (cmdReady (cmd 0x0305 [0, 0xE000, 2]) 0 0x0305 = true ∧ scratch ready (da01 [0, 0xE000, 2]) = true) := by decide +kernel

theorem noCache (da : Nat) : inCache (cmd 0x0304 [0, 0xE001, 1, 0]) da = false := by
  have h : ∀ k, k < 8 → rgnOn (cmd 0x0304 [0, 0xE001, 1, 0]) k = false := by decide +kernel
  unfold inCache
  rw [Bool.and_eq_false_iff]
  right
  rw [List.any_eq_false]
  intro k hk
  have hk : k < 8 := by simpa using hk
  simp [rgnHas, h k hk]

/-- No granule caches anything, whatever the step of the range. -/
theorem meets_BufferEventsAndCommands_clear (j : Nat) :
    inCache (cmd 0x0304 [0, 0xE001, 1, 0]) (min (da01 [0, 0xE001, 1, 0] + 1 * 128 - 1) (da01 [0, 0xE001, 1, 0] + j * 0x4000000)) = false := noCache _
/-- A row of Mioto's that trains stack 0. -/
def trainingRow : TtRow := { newRow (miotoWords 5 5 0 64 0 1 50 2 0) [] true with st := .active }

/-- Stack 23 in a state. -/
def stackIs (m : Chip) (q : Stack) : Chip := { m with stks := List.replicate 23 { svc := 0 } ++ [q] }

theorem meets_StackEventsAndCommands_events :
    (let m : Chip := { stacksUp ready with ns := 16384 }
     acts (st m) = true ∧ stackUp m 23 = true ∧ refreshRowed m 23 = false ∧ (stack m 23).lastRefresh + 16384 ≤ m.ns ∧ fget m (HBMs_STAT_LEVEL 23) ≠ 3) ∧
    trainRow (withRow (stacksUp (locked 3)) trainingRow) 0 = some (0, trainingRow) ∧ (23 < 24 ∧ 23 < (stacksUp ready).stks.length ∧ ¬ 24 < 24) ∧
    (let m := stackIs ready { svc := 0, scrub := some (scrubAt (23 * 2 ^ 29) 1) }
     (stack m 23).scrub = some (scrubAt (23 * 2 ^ 29) 1) ∧ (hbmGot m (23 * 2 ^ 29)).corr = 0 ∧ storedFate (hbmGot m (23 * 2 ^ 29)) = .good ∧ 2 ≤ (scrubAt 0 2).left) ∧
    (let m := stacksUp ready
     bitN (1#32).toNat 0 ≠ fget m (HBMs_CTRL_OOS 23) ∧ (stack (setLevel (fset (fset m (HBMs_CTRL_OOS 23) 1) (HBMs_CTRL_FORCE_LEVEL 23) 0) 23) 23).svc = 0) ∧
    (let m := fields ready [(HBMs_CTRL_OOS 23, 1)]
     bitN (0#32).toNat 0 ≠ fget m (HBMs_CTRL_OOS 23) ∧ (stack (setLevel (fset (fset m (HBMs_CTRL_OOS 23) 0) (HBMs_CTRL_FORCE_LEVEL 23) 0) 23) 23).svc = 2) ∧
    ((stack (stackIs ready { svc := 1 }) 23).svc = 1 ∧ (stack (stackIs ready { svc := 1 }) 23).svcMb = none ∧ (stack (stackIs ready { svc := 1, svcMb := some 3 }) 23).svcMb = some 3) ∧
    (let m := stackIs (locked 3) { svc := 3, svcMb := some 0 }; (stack m 23).svc = 3 ∧ (stack m 23).svcMb = some 0 ∧ (stack m 23).destroyed = false ∧ ltState m = 3) ∧
    (stack (stackIs ready { test := some (0, 2, 1, 0) }) 23).test = some (0, 2, 1, 0) := by decide +kernel

theorem meets_StackEventsAndCommands_commands :
    (let m := cmd 0x0601 [23]; acts (st m) = true ∧ cmdReady m 0 0x0601 = true ∧ bitsN 23 31 28 = 0 ∧ (stack m 23).svc = 2) ∧
    (let m := cmd 0x0601 [23] (stacksUp ready)
     (stack m 23).svc = 0 ∧ backsStack m 23 = false ∧ (∀ k, k < 64 → fon m (HOST_SEGk_VALID k) = true → fget m (HOST_SEGk_TARGET k) / 64 ≠ 23) ∧ rowTouches m (23 * 2 ^ 36) (2 ^ 36) = false ∧ twinOnStack m 23 = false) ∧
    (bitsN (2 ^ 28 + 23) 31 28 ≠ 0 ∧ (stack (cmd 0x0601 [2 ^ 28 + 23] (stacksUp ready)) 23).svc = 0 ∧ (stack (cmd 0x0601 [2 ^ 28 + 23]) 23).svc = 2) ∧ cmdReady (cmd 0x0602 [3 * 2 ^ 8]) 0 0x0602 = true ∧
    (let p := [0xFFFFFF80, 0x17F, 1, 0]
     let m := cmd 0x0603 p (stacksUp ready)
     cmdReady m 0 0x0603 = true ∧ da01 p % 128 = 0 ∧ isHbm (da01 p + nth p 2 * 128 - 1) = true ∧ stackOf (da01 p + nth p 2 * 128 - 1) = stackOf (da01 p) ∧ stackOf (da01 p) = 23 ∧
     (stack m (stackOf (da01 p))).scrub = none ∧ (stack m (stackOf (da01 p))).test = none) ∧
    (let m := cmd 0x0604 [0, 0, 3] (stacksUp ready); cmdReady m 0 0x0604 = true ∧ isHbm (da01 [0, 0, 3]) = true ∧ stackUp m (stackOf (da01 [0, 0, 3])) = true) ∧
    cmdReady (cmd 0x0605 [23]) 0 0x0605 = true ∧
    (let m := cmd 0x0D02 [2 ^ 28 + 23, 0, 0]; cmdReady m 0 0x0D02 = true ∧ (stack m 23).svc = 2 ∧ (stack m 23).scrub = none ∧ (stack m 23).test = none) := by decide +kernel

/-- A COPY descriptor of one line of the buffer, from 0 to 0x10000, with its wait word; and an EXPAND of one wagon. -/
def copyW (wait : Nat) : List Nat := [2 * 2 ^ 28, 7 * 2 ^ 16, 0, 0xE000, 0x10000, 0xE000, 0, 0xE000, 1, 0, wait * 2 ^ 31 + 64, 1, 0, 0]
def expandW : List Nat := [2 ^ 28, 7 * 2 ^ 16, 0, 0xE000, 0x10000, 0xE000, 0x20000, 0xE000, 1, 1, 0, 0, 0, 0]

/-- An active descriptor, and the consist of BD-N with it and some wagons. -/
def descOf (w : List Nat) (run : Bool) : Desc := { ring := some 0, seq := 6, w := w, t0 := 0, run := run }
def conWith (x : Desc) (ws : List Wagon) (m : Chip := ready) : Chip := { m with con := [{ descs := [(1, some x)], wagons := ws, nextDesc := 2 }, {}] }

/-- A wagon of descriptor 1 in a stage. -/
def wagonAt (stage : Nat) : Wagon := { id := 0, desc := 1, idx := 0, st := stage, src := line0, want := 1, asked := 1 }

/-- A whole EXPAND wagon whose one record holds no element. -/
def emptyWagon : Wagon := { wagonAt 1 with got := [(0, leBytes 128 (2 ^ 20), 0)] }

theorem idle_mailboxes (code : Nat) : ∀ i, cmdGoing ready i code = false := by
  intro i
  have h : mbRun ready i = none := by
    unfold mbRun
    match i with
    | 0 | 1 | 2 | 3 => rfl
    | _ + 4 => rfl
  simp [cmdGoing, h]

theorem meets_ConsistMovesWagons :
    conWants (ringed 2) 0 = true ∧
    (let m := conWith (descOf (copyW 1) false) []
     acts (st m) = true ∧ desc m 0 1 = some (descOf (copyW 1) false) ∧ dWait (copyW 1) = some 0xE00000000100 ∧ deviceReady m 0xE00000000100 4 = true ∧ (loadWord m 0xE00000000100 false).2.1 = none ∧
     (loadWord m 0xE00000000100 false).1 < nth (copyW 1) 11 ∧ (loadWord (oneAt m 64) 0xE00000000100 false).2.1 = none ∧ nth (copyW 1) 11 ≤ (loadWord (oneAt m 64) 0xE00000000100 false).1) ∧
    conLate { conWith (descOf (copyW 1) false) [] with ns := 2 ^ 31 } 0 1 = true ∧
    (let m := conWith (descOf (copyW 0) true) []; fetchReady m 0 = true ∧ nextFetch m 0 = some (1, descOf (copyW 0) true)) ∧
    ([Fate.good, .uncorrectable, .poisoned].all (fun f =>
      let r : Resp := { id := 9, who := .fetch 0 0 0, line := line0, ln := zeroLine, fate := f }
      let m : Chip := { conWith (descOf (copyW 0) true) [wagonAt 0] with resps := [r] }
      fetchResp m 0 9 == some (r, 0, 0) && (conDie m 0).wagons.find? (fun w => w.id == 0) == some (wagonAt 0) && desc m 0 1 == some (descOf (copyW 0) true)) = true) ∧
    wbOk zeroLine = true ∧ wbOk { zeroLine with wb := zeroLine.wb + 1 } = false ∧
    (let m := conWith (descOf expandW true) [emptyWagon]
     firstIdx 64 (engineIdle m 0) = some 0 ∧ expandNext m 0 = some emptyWagon ∧ desc m 0 1 = some (descOf expandW true) ∧
     ((parseRecord expandW 0 (wagonBytes emptyWagon)).filter (fun r => lastOk expandW 0 ((emptyWagon.src - dSrc expandW / 128) * 128 + emptyWagon.off) r.length)).isSome = true) ∧
    (let m := conWith (descOf expandW true) [wagonAt 1]
     expandNext m 0 = some (wagonAt 1) ∧
     ((parseRecord expandW 0 (wagonBytes (wagonAt 1))).filter (fun r => lastOk expandW 0 (((wagonAt 1).src - dSrc expandW / 128) * 128 + (wagonAt 1).off) r.length)).isSome = false) ∧
    (let w := { wagonAt 2 with engine := 63 }
     let m := conWith (descOf expandW true) [w]
     (conDie m 0).wagons.find? (fun w => w.st == 2 && w.engine == 63) = some w ∧ 0 < tabOf m 0 2 ∧ reclaiming m 0 2 = false) ∧
    (let m := conWith (descOf (copyW 0) true) [wagonAt 3]
     reclaiming m 0 3 = false ∧ (conDie m 0).wagons.find? (fun w => w.id == 0 && w.st == 3) = some (wagonAt 3) ∧ desc m 0 (wagonAt 3).desc = some (descOf (copyW 0) true) ∧ (wagonAt 3).failed = false ∧ (wagonAt 3).todo = [] ∧
     (wagonAt 3).acks = 0 ∧ ({ wagonAt 3 with failed := true } : Wagon).failed = true) ∧
    ([0, 1, 2, 3, 4].all (fun h => let m : Chip := { ready with con := [{ reclaim := [h] }, {}] }; reclaiming m 0 h && !inFlight m 0 h) = true) ∧
    (let m : Chip := { fields ready [(CON_REGk_CFG_MODE 63, 1)] with ns := 512 }; refillDue m 63 = true ∧ fget m (CON_REGk_CFG_MODE 63) ≠ 0 ∧ (∀ r ∈ m.reqs, r.st ≠ 4 ∨ r.reg ≠ 63)) := by decide +kernel

/-- A ROUTE job of one token, rank and position, and a TALLY job, with the wait word. -/
def jobW (op wait : Nat) : List Nat := [op * 2 ^ 28 + 2 ^ 20 + 2 ^ 16, 7 * 2 ^ 16 + 1, 0, 1, 128, 0x100, 0x200, 0x300, 0, wait * 2 ^ 31 + 64, 1, 0, 1, 0]

/-- A job at an engine. -/
def jobOf (op : Nat) : Job := { ring := some 0, seq := 6, w := jobW op 0, t0 := 0, run := true }
def engine (j : Job) (m : Chip := ready) : Chip := setJob m 1 (some j)

/-- An EXCHANGE row whose phase list of one entry sends position 0 of the job's slot area. -/
def sendRow : TtRow := { armedRow 3 with par := [0, 1, 2 ^ 16, 128, 0x10000, 0xE000, 0, 0, 0, 0, 0, 1, 128, 0, 0, 0], list := [[0, 1, 1, 0, 0, 0, 0, 0]] }

theorem meets_ConsistAndPointsCommands :
    (let m := cmd 0x0401 (copyW 0) (conWith (descOf (copyW 0) true) []); acts (st m) = true ∧ cmdReady m 0 0x0401 = true ∧ runMeets m (fit 14 0 (cmdPay m 0)) = true) ∧
    (let m := cmd 0x0401 (copyW 0); runMeets m (fit 14 0 (cmdPay m 0)) = false ∧ conOpen m (dDie (fit 14 0 (cmdPay m 0))) = true) ∧
    (let m := cmd 0x0402 [2 ^ 30 + 2 ^ 6 + 63, 5]; cmdReady m 0 0x0402 = true ∧ chooseReg m (nth (cmdPay m 0) 0) = some 63) ∧
    (let m := cmd 0x0402 [7 * 2 ^ 16, 0]; cmdReady m 0 0x0402 = true ∧ chooseReg m (nth (cmdPay m 0) 0) = none) ∧ cmdReady (cmd 0x0403 [0xF1]) 0 0x0403 = true ∧ 15 % 16 ≠ 0 ∧
    (let m := cmd 0x0501 [0, 1, 0]; cmdReady m 0 0x0501 = true ∧ ptsJob m 0 = none ∧ ptsJob m 1 = none) ∧ (ptsJob (cmd 0x0501 [0, 1, 0] (engine (jobOf 1))) 1).isSome = true ∧
    (let m := cmd 0x0502 (jobW 1 0); cmdReady m 0 0x0502 = true ∧ jRoute (fit 14 0 (jobW 1 0)) = true ∧ sendMeets m (fit 14 0 (jobW 1 0)) = false ∧ ptsOpen m (bitN (nth (fit 14 0 (jobW 1 0)) 6) 25) = true) ∧
    sendMeets (withRow (cmd 0x0502 (jobW 1 0)) sendRow) (fit 14 0 (jobW 1 0)) = true ∧
    (let m := cmd 0x0503 (jobW 2 0); cmdReady m 0 0x0503 = true ∧ jRoute (fit 14 0 (jobW 2 0)) = false ∧ ptsOpen m (bitN (nth (fit 14 0 (jobW 2 0)) 6) 25) = true) ∧
    cmdReady (cmd 0x0504 [1]) 0 0x0504 = true ∧ (1#32).toNat % 4 = 1 ∧ (2#32).toNat % 4 = 2 ∧ (3#32).toNat % 4 = 3 ∧ (4#32).toNat % 4 = 0 := by decide +kernel

theorem meets_PointsJobsRun :
    (ptsOpen (ringed 5) 1 = true ∧ ptsRing (ringed 5) 1 = some 0 ∧ ptsOpen (ringed 4) 0 = true ∧ ptsRing (ringed 4) 0 = some 0) ∧
    (let j := { jobOf 1 with w := jobW 1 1, run := false }
     let m := engine j
     acts (st m) = true ∧ ptsJob m 1 = some j ∧ j.run = false ∧ jWait j.w = some 0xE00000000100 ∧ deviceReady m 0xE00000000100 4 = true ∧ (loadWord m 0xE00000000100 false).2.1 = none ∧
     (loadWord m 0xE00000000100 false).1 < nth j.w 10 ∧ (loadWord (oneAt m 64) 0xE00000000100 false).2.1 = none ∧ nth j.w 10 ≤ (loadWord (oneAt m 64) 0xE00000000100 false).1 ∧
     ptsLate { m with ns := 2 ^ 30 } 1 = true) ∧
    ([1, 2].all (fun op => let m := engine (jobOf op); ptsJob m 1 == some (jobOf op) && (jobOf op).run && !(jobOf op).fin && (jAreas (jobOf op).w).all (fun a => deviceReady m a.1 a.2)) = true) ∧
    (jRoute (jobOf 1).w = true ∧ (jobOf 1).tok < jTokens (jobOf 1).w ∧ jTokens (jobOf 1).w ≤ ({ jobOf 1 with tok := 1 } : Job).tok) ∧
    (jRoute (jobOf 2).w = false ∧ (jobOf 2).blk < jPos (jobOf 2).w ∧ jPos (jobOf 2).w ≤ ({ jobOf 2 with blk := 1 } : Job).blk) ∧ ({ jobOf 1 with fin := true } : Job).fin = true := by decide +kernel
/-- Port p as given, in a link state. -/
def ported (p st : Nat) (q : Port := {}) (m : Chip := ready) : Chip := { fields m [(LNKp_LINK_STATE p, st)] with ports := [(p, q)] }

/-- Port 35 with its lane 3 in a state. -/
def laned (link lane : Nat) (q : Port := {}) : Chip := setLane (ported 35 link q) 35 3 lane

/-- A port whose four lanes have passed. -/
def passed (q : Port := {}) : Chip := fields (ported 35 2 q) [(LNKp_LSTATE_STATE0 35, 5), (LNKp_LSTATE_STATE1 35, 5), (LNKp_LSTATE_STATE2 35, 5), (LNKp_LSTATE_STATE3 35, 5)]

theorem meets_LanesTrainAndFail :
    (35 < 36 ∧ 3 < 4) ∧ (laneSt (laned 1 1) 35 3 = 1 ∧ linkSt (laned 1 1) 35 = 1) ∧ linkSt (laned 2 1) 35 = 2 ∧ laneSt (laned 2 2) 35 3 = 2 ∧ laneSt (laned 2 6) 35 3 = 6 ∧ laneSt (laned 2 3) 35 3 = 3 ∧
    (16 ≤ 16 ∧ 16 < 17 ∧ (2 : Nat) ≠ 3) ∧ (laneSt (laned 2 4) 35 3 = 4 ∧ 128 ≤ 128) ∧
    ([2, 3, 4, 6].all (fun k => let m : Chip := { laned 2 k with ns := 500000 }; laneSt m 35 3 == k && decide (((port m 35).lanes.getD 3 {}).t0 + laneLimit m 35 ≤ m.ns)) = true) ∧
    (let m := passed
     linkSt m 35 = 2 ∧ lanesIn m 35 [5, 7] = 15 ∧ (port m 35).verify = false ∧ lanesIn m 35 [5] &&& 15 % 16 ≠ 0 ∧ (port m 35).tryRate < min (fget m (LNKp_CFG_MAX_RATE 35)) (min 3 3)) ∧
    (let m := passed { tryRate := 3 }
     ¬ (port m 35).tryRate < min (fget m (LNKp_CFG_MAX_RATE 35)) (min 3 3) ∧ (bestRate (setAt (port m 35).passed 3 (15 + 1))).2 ≠ 0 ∧ 3 ≤ (bestRate (setAt (port m 35).passed 3 (15 + 1))).1) ∧
    (let m := passed { tryRate := 1, passed := [16, 0, 0, 0] }
     lanesIn m 35 [5] &&& 0 % 16 = 0 ∧ (bestRate (setAt (port m 35).passed 1 (0 + 1))).2 ≠ 0 ∧ (bestRate (setAt (port m 35).passed 1 (0 + 1))).1 < (port m 35).tryRate) ∧
    (bestRate (setAt (port passed 35).passed 0 (0 + 1))).2 = 0 ∧
    ((port (passed { verify := true }) 35).verify = true ∧ selectLanes (lanesIn (passed { verify := true }) 35 [5] &&& 0) = 0 ∧ selectLanes (lanesIn (passed { verify := true }) 35 [5] &&& 15) ≠ 0) ∧
    (let m : Chip := { ported 35 1 with ns := 100000000 }; (linkSt m 35 = 1 ∨ linkSt m 35 = 2) ∧ (port m 35).tryRate = 0 ∧ (port m 35).bringT0 + 100000000 ≤ m.ns) ∧
    (let m := fields (ported 35 5 { lanes := List.replicate 4 { ueEpoch := 16 }, farOk := 7 }) [(LNKp_STAT_LANES 35, 15), (LNK_CTRL_UE_MAX, 15)]
     tb (lanesUsed m 35) 3 = true ∧ fget m LNK_CTRL_UE_MAX < ((port m 35).lanes.getD 3 {}).ueEpoch ∧ tb (port m 35).farOk 3 = false) ∧
    (let m : Chip := { ported 35 5 { farLoop := true } with ns := 10 ^ 9 }; (port m 35).farLoop = true ∧ (port m 35).loopT0 + frameNs m 35 16 ≤ m.ns) := by decide +kernel

/-- A possession of port 35 of a subkind that is ACTIVE. -/
def possession (sub : Nat) (m : Chip) : Chip := withRow m { newRow (setAt (rowW 5 8 0 1 0 1 1 35) 0 (5 * 2 ^ 28 + sub * 2 ^ 24 + 8)) [] false with st := .active }

theorem meets_EyePointsLoopsAndFrames :
    fon (fields (ported 35 5) [(LNKp_EYE_STAT_BUSY 35, 1)]) (LNKp_EYE_STAT_BUSY 35) = true ∧
    (let m := possession 2 (ported 35 5 { eye := some { m := 0, lanes := 15 } }); fon m (LNKp_EYE_STAT_BUSY 35) = false ∧ (port m 35).eye = some { m := 0, lanes := 15 } ∧ possOn m 35 [2] = true) ∧
    (port (ported 35 5) 35).eye = none ∧
    (let m : Chip := { ported 35 0 { loop := some (0, 12, 4, 0) } with ns := 1000000 }
     (port m 35).loop = some (0, 12, 4, 0) ∧ 0 % 16 = 0 ∧ 12 / 4 = 3 ∧ 0 + 1000000 ≤ m.ns ∧ 0 + 2 ^ 4 ≤ m.ns ∧ 15 % 16 ≠ 0) ∧
    ([4, 5, 7, 8].all (fun k => [4, 5, 7, 8].contains (laneSt (laned 2 k) 35 3)) = true ∧ linkSt (laned 2 4) 35 < 3) ∧
    (0x00010000 / 65536 + 0x00010000 % 65536 ≠ 0xFFFF ∧ 0xFC0F03F0 / 65536 + 0xFC0F03F0 % 65536 = 0xFFFF ∧ tb (0xFC0F03F0 / 65536) 4 = false ∧ (port (laned 2 4) 35).restore = 0) := by decide +kernel

/-- The link of port 35 up on four lanes, for a command on it. -/
def linked (q : Port := {}) (m : Chip := ready) : Chip := fields (ported 35 5 q m) [(LNKp_STAT_LANES 35, 15), (LNKp_STAT_WIDTH 35, 3)]

theorem meets_LinkCommands :
    (35 < 36 ∧ tb (0x80000000#32).toNat 31 = true ∧ possOn (writeFields ready (LNKp_EYE_CTRL_START 35).off 0x80000000) 35 [1, 2] = false ∧
      possOn (writeFields (possession 1 ready) (LNKp_EYE_CTRL_START 35).off 0x80000000) 35 [1, 2] = true) ∧
    (bitsN (0#32).toNat 19 16 ≠ fget ready (LNKp_CFG_LANE_EN 35) ∧ bitsN (0x100#32).toNat 10 8 ≠ fget ready (LNKp_CFG_LOOP 35) ∧ bitN (0x80000000#32).toNat 31 ≠ fget ready (LNKp_CFG_OOS 35)) ∧
    (let m := cmd 0x0703 [35]; cmdReady m 0 0x0703 = true ∧ fget m (LNKp_STAT_WIDTH 35) = 0) ∧
    (let m := cmd 0x0703 [35] (linked { eye := some { m := 1, lanes := 15 } }); ¬ ((port m 35).oos = true ∨ fget m (LNKp_STAT_WIDTH 35) = 0) ∧ (port m 35).eye.isSome = true) ∧
    (let m := cmd 0x0703 [0x823] linked; bitsN 0x823 5 0 = 35 ∧ (port m 35).eye = none ∧ miotoRows m < 128 ∧ bitsN 0x823 11 8 &&& lanesUsed m 35 ≠ 0) ∧
    (cmdReady (cmd 0x0704 [35, 4]) 0 0x0704 = true ∧ loopAllows (bitsN (2 * 2 ^ 28 + 35) 31 28) (bitsN (2 * 2 ^ 28 + 35) 27 26) = false ∧ loopAllows (bitsN (2 ^ 28 + 35) 31 28) (bitsN (2 ^ 28 + 35) 27 26) = true ∧
      fon ready (LNKp_STAT_OOS_DONE 35) = false ∧ fon (fields ready [(LNKp_STAT_OOS_DONE 35, 1)]) (LNKp_STAT_OOS_DONE 35) = true ∧ (port ready 35).loop = none ∧
      (port (ported 35 0 { loop := some (1, 4, 4, 0) }) 35).loop.isSome = true) ∧
    (cmdReady (cmd 0x0702 [0xF23] linked) 0 0x0702 = true ∧ maskN 4 (fun n => tb (bitsN 0xF23 11 8) n && !tb (lanesUsed linked 35) n) = 0 ∧
      maskN 4 (fun n => tb (bitsN 0xF23 11 8) n && !tb (lanesUsed (fields linked [(LNKp_STAT_LANES 35, 3)]) 35) n) ≠ 0) ∧
    (let m := cmd 0x0701 [35] linked; cmdReady m 0 0x0701 = true ∧ bitsN 35 31 28 = 0 ∧ (port m 35).oos = false ∧ portClaimed m 35 = false ∧ (isTwinPort 35 && twinValid m) = false) ∧
    ((port (linked { oos := true }) 35).oos = true ∧ portClaimed (possession 1 linked) 35 = true) ∧
    (bitsN (2 ^ 28 + 35) 31 28 ≠ 0 ∧ 5 ≤ linkSt linked 35 ∧ linkSt (ported 35 4) 35 ∈ [1, 2, 3, 4] ∧ linkSt ready 35 = 0) ∧ cmdReady (cmd 0x0705 [35]) 0 0x0705 = true ∧
    (let w := 0x070000 + 7
     cmdReady (cmd 0x0706 [w]) 0 0x0706 = true ∧ bitsN w 2 0 < 2 ^ bitsN w 17 16 ∧ bitsN w 5 3 < 2 ^ bitsN w 19 18 ∧ bitsN w 7 6 < 2 ^ bitsN w 21 20 ∧ fon ready TT_CTRL_ARM = false ∧
     fon (fields ready [(TT_CTRL_ARM, 1)]) TT_CTRL_ARM = true ∧ 2 ^ bitsN 0x020004 17 16 ≤ bitsN 0x020004 2 0) := by decide +kernel

/-- A flit of a type with its check byte right: OP, DTYPE, lines, SEQ, TAG, address, destination and body. -/
def flit (typ op dtype lines seq : Nat) (body : List Byte := []) (addr : Nat := line0) (dest : Nat := 0) (src : Nat := 0) (tag : Nat := 0) : Flit :=
  let f : Flit := { typ := typ, lines := lines, op := op, dtype := dtype, retCount := 0, seq := seq, dest := dest, src := src, retVc := 0, hchk := 0, addr := addr, ack := 0, tag := tag, body := body }
  { f with hchk := crc8 (wordBytes (flitWords f 0)) }

/-- A control flit of a kind with its words, and a message of Mioto to the twin. -/
def ctl (kind : Nat) (ws : List Nat) : Flit := flit 4 (kind / 4) (kind % 4) (ws.length / 4) 0 (wordBytes ws)

theorem meets_FlitsTakenInSequence :
    ([(1, 0), (1, 1), (1, 2), (1, 3), (1, 7), (2, 0), (2, 1), (2, 2), (2, 3), (3, 0), (3, 1), (3, 2), (3, 3), (0, 0)].all (fun (x : Nat × Nat) => (flit x.1 x.2 0 0 1).typ == x.1 && (flit x.1 x.2 0 0 1).op == x.2) = true) ∧
    ([3, 4, 5, 6, 7, 8, 10].all (fun k => (ctl k [0, 0, 0, 0]).typ == 4 && (ctl k [0, 0, 0, 0]).op * 4 + (ctl k [0, 0, 0, 0]).dtype == k) = true) ∧
    ([1, 2, 3, 4, 6].all (fun k => !(ctl 9 [k, 0, 0, 0]).body.isEmpty && bitsN (nth (flitBody (ctl 9 [k, 0, 0, 0])) 0) 3 0 == k) = true) ∧ (ctl 9 []).body = [] ∧
    ([1, 2, 3].all (fun k => nth (flitBody (ctl 10 [(0x0A00 + k) * 2 ^ 16, 0, 0, 0])) 0 / 2 ^ 16 == 0x0A00 + k) = true) ∧
    (flitOk { flit 1 7 0 0 1 with hchk := (flit 1 7 0 0 1).hchk ^^^ 1 } = false ∧ (flit 1 0 0 1 1).body.length ≠ bodyLen (flit 1 0 0 1 1)) ∧
    (flitOk (flit 1 7 0 0 1) = true ∧ (flit 1 7 0 0 1).body.length = bodyLen (flit 1 7 0 0 1) ∧ flitVc (flit 1 7 0 0 1) ≠ none ∧ linkSt (ported 35 2) 35 < 3 ∧ 5 ≤ linkSt linked 35 ∧
      (flit 1 7 0 0 1).seq = ((port linked 35).rxSeq + 1) % 4096 ∧ (flit 1 7 0 0 0).seq = ((port (linked { rxSeq := 4095 }) 35).rxSeq + 1) % 4096) ∧
    (let f := flit 1 7 0 0 2048
     flitOk f = true ∧ f.seq ≠ ((port linked 35).rxSeq + 1) % 4096 ∧ f.seq ≠ (port linked 35).rxSeq ∧ (f.seq + 4096 - (port linked 35).rxSeq) % 4096 < 2049 ∧ (port (headerRx 35 f linked) 35).nakAt = none) ∧
    (let f := flit 1 7 0 0 2049; flitOk f = true ∧ f.seq ≠ ((port linked 35).rxSeq + 1) % 4096 ∧ 2049 ≤ (f.seq + 4096 - (port linked 35).rxSeq) % 4096) ∧
    (3 ≤ linkSt (ported 35 3) 35 ∧ linkSt (ported 35 4) 35 < 5) ∧ (flitOk (ctl 4 [0, 0, 0, 0]) = true ∧ flitVc (ctl 4 [0, 0, 0, 0]) = none) ∧ (flitOk (flit 0 0 0 0 0) = true ∧ (flit 0 0 0 0 0).typ = 0) := by decide +kernel

/-- A receive window over line 0 of the buffer, for 0 or 1 source. -/
def recvRow (op n : Nat) : TtRow := { activeRow 2 with par := [op * 2 ^ 28, n, 0, 0xE000, 128] }

theorem meets_FlitsAndControlFlitsAct_flits :
    ((flit 1 7 0 0 1).typ = 1 ∧ (flit 1 0 0 1 1).op ≠ 7 ∧ journalOn linked 35 = false) ∧
    (let m := freeTabs (modPort (withRow (ported 34 5 {} { locked 3 with lt := { lt := 63 } }) (activeRow 7)) 34 (fun q => q)) 34 0 1; journalOn m 34 = true) ∧
    (isHere ready 0 = true ∧ isHere ready 1 = false) ∧
    (let m := withRow (locked 3) (recvRow 0 1)
     let f := flit 1 0 0 1 1
     f.lines = 1 ∧ dataLine m f.dest f.addr = some line0 ∧ scratch m (line0 * 128) = true ∧ windowAt m line0 (fun r => parOp r.par == f.op) = some (0, recvRow 0 1) ∧ (claimSrc (recvRow 0 1) f.src).isSome = true) ∧
    wbOk zeroLine = true ∧ ((flit 2 0 0 0 1).op = 0 ∧ badAddress ready ((flit 2 0 0 0 1).addr * 128) false = false ∧ (flit 2 1 0 1 1).op = 1) ∧
    (let o : OutReq := { tag := 5, who := .fix, kind := .write, line := line0, peer := 1 }
     let f := flit 3 1 0 0 1 [] 0 0 1 5
     (port (linked { out := [o] }) 35).out.find? (fun o => o.tag == f.tag) = some o ∧ f.op = 1 ∧ (port linked 35).out.find? (fun o => o.tag == f.tag) = none) ∧
    (let f := flit 4 2 2 1 1 [] 0 1
     isHere ready f.dest = false ∧ holderOf ready f.dest ≠ selfNum ready ∧ routePort ready (holderOf ready f.dest) = none ∧ (routePort (fields ready [(LNKp_LINK_STATE 0, 5)]) (holderOf ready f.dest)).isSome = true) := by
  decide +kernel

theorem meets_FlitsAndControlFlitsAct_control :
    (let f := flit 1 7 0 0 9; (port (linked { replay := [f] }) 35).replay.findIdx? (fun g => g.seq == nth [9] 0 % 4096) = some 0) ∧
    (linkActive ready 35 = false ∧ linkActive linked 35 = true ∧ (port linked 35).reclaim = false ∧ fon linked LNK_FAB_CTRL_AUDIT_EN = true ∧ (port (linked { reclaim := true }) 35).reclaim = true) ∧
    ((∀ v, v < 4 → nth (port linked 35).recvd v = nth [0, 0, 0, 0, 0, 0, 0, 0] (2 * v) % 2 ^ 24 ∧
        (nth (port linked 35).freed v + 2 ^ 24 - nth [0, 0, 0, 0, 0, 0, 0, 0] (2 * v + 1) % 2 ^ 24) % 2 ^ 24 ≤ nth [1024, 256, 256, 32] v) ∧ nth (port linked 35).recvd 3 ≠ nth [0, 0, 0, 0, 0, 0, 1, 0] 6 % 2 ^ 24) ∧
    (linkSt linked 35 ≠ 4 ∧ linkSt (ported 35 4) 35 = 4 ∧ wiringBad (ported 35 4) 35 = false) ∧
    (let m := fields (ported 17 4 { farMv := true } (setCsr ready 0x43C 2048)) [(LNK_TOPO_VALID, 1), (LNKp_LINK_FAR_PORT 17, 34)]; wiringBad m 17 = true) ∧
    (linkActive ready 35 = false ∧ linkSt ready 35 ≠ 6 ∧ isTwinPort 35 = false) := by decide +kernel

theorem meets_LinkTimersAndFrames :
    (linkSt linked 35 ≠ 0 ∧ linkSt (ported 35 1) 35 = 1 ∧ lanesIn (ported 35 1) 35 [6] = 0) ∧
    ((port (linked { ctl := [ctl 4 [0, 0, 0, 0]] }) 35).ctl.find? (fun f => !(f.op == 0 && (f.dtype == 1 || f.dtype == 2))) = some (ctl 4 [0, 0, 0, 0])) ∧ ((port (ported 35 4) 35).ctl = [] ∧ linkSt (ported 35 4) 35 < 5) ∧
    (let c := linked { replay := [flit 1 7 0 0 9], replayDue := some 0 }; (port c 35).ctl = [] ∧ 5 ≤ linkSt c 35 ∧ (port c 35).replayDue = some 0 ∧ (port c 35).replay[0]? = some (flit 1 7 0 0 9)) ∧
    (let c := linked { vcq := [[flit 1 7 0 0 0], [], [], []], avail := [1, 0, 0, 0] }
     (port c 35).replayDue = none ∧ headReady c 35 0 = true ∧ windowOn c 35 = false ∧ (((List.range 4).map (fun i => ((port c 35).rrCh + 1 + i) % 4)).find? (headReady c 35)) = some 0 ∧
     windowOn (withRow c { activeRow 1 with w := rowW 1 7 0 1 0 1 1 35 }) 35 = true) ∧
    (headReady linked 35 0 = false ∧ headReady linked 35 1 = false ∧ headReady linked 35 2 = false ∧ headReady linked 35 3 = false) ∧
    (let m : Chip := { linked { replay := [flit 1 7 0 0 9], nakAt := some 0 } with ns := 10 ^ 9 }
     5 ≤ linkSt m 35 ∧ (port m 35).replay ≠ [] ∧ (port m 35).lastAck + frameNs m 35 64 ≤ m.ns ∧ (port m 35).nakAt = some 0 ∧ 0 + frameNs m 35 4 ≤ m.ns) ∧
    (let m : Chip := { ported 35 3 with ns := 1000000 }; linkSt m 35 = 3 ∧ (port m 35).lockT0 + 1000000 ≤ m.ns) ∧
    (let m := ported 35 6; linkSt m 35 = 6 ∧ (port m 35).replay = [] ∧ (port m 35).out = [] ∧ (port m 35).vcq.getD 2 [] = [] ∧ (port m 35).vcq.getD 3 [] = []) ∧
    (tb (2#32).toNat 1 = true ∧ tb (2#32).toNat 0 = false ∧ linkActive ready 35 = false ∧ linkActive linked 35 = true ∧ (port linked 35).reclaim = false ∧ tb (1#32).toNat 0 = true) := by decide +kernel

/-- A module whose twin state is n. -/
def twinIs (n : Nat) (m : Chip := ready) : Chip := fields m [(TWIN_STAT_STATE, n)]

/-- A TWIN_TAKE from src of role 1023 by a holder. -/
def takeFlitOf (src holder : Nat) : Flit := flit 4 2 2 1 0 (wordBytes [0x0A02 * 2 ^ 16 + 1023, holder, 0, 0]) line0 0 src

theorem meets_TwinMessagesAct :
    isTwinPort 17 = true ∧ isTwinPort 34 = true ∧ (ctl 9 []).body = [] ∧ twinSt (twinIs 2) = 2 ∧ twinSt (twinIs 1) = 1 ∧
    ([1, 2, 3, 4, 6].all (fun k => !(ctl 9 [k, 0, 0, 0]).body.isEmpty && bitsN (nth (flitBody (ctl 9 [k, 0, 0, 0])) 0) 3 0 == k) = true) ∧
    (twinSt (twinIs 3) = 3 ∧ twinSt (twinIs 4) = 4 ∧ bitsN 0x71 7 4 = 7 ∧ bitsN 0x31 7 4 ≠ 7 ∧ ready.twin.regionWait = []) ∧
    (let m : Chip := twinIs 4 { ready with twin := { jSet := true } }
     let beat := modTwin m (fun t => { t with hbSeen := true, lastHb := 0, peerState := 3, waitWarm := none, portMiss := 0 })
     m.twin.jSet = true ∧ (twinNote (enterTwin beat 3) 1 m.twin.twin).twin.regionWait = []) ∧
    ready.twin.wait = none ∧
    (let m : Chip := twinIs 3 { ready with twin := { wait := some (2 ^ 64 - 1, true, []) } }; m.twin.wait = some (2 ^ 64 - 1, true, []) ∧ nth64 [3, 0, 0, 0] 2 ≠ 2 ^ 64 - 1 ∧ nth64 [3, 0, 2 ^ 32 - 1, 2 ^ 32 - 1] 2 = 2 ^ 64 - 1 ∧ 2 ^ 64 - 1 < 2 ^ 64) ∧
    (let m : Chip := twinIs 3 { ready with twin := { wait := some (0, false, []) } }; m.twin.wait = some (0, false, []) ∧ nth64 [3, 0, 0, 0] 2 = 0) := by decide +kernel

theorem meets_TwinMessagesAct_routed :
    (let m : Chip := { ready with twin := { regionWait := [0] } }; m.twin.regionWait ≠ []) ∧
    (nth (flitBody (ctl 9 [6, 0, 0, 0, 1, 0, 0, 0])) 4 ≠ 0 ∧ nth (flitBody (ctl 9 [6, 0, 0, 0])) 4 = 0) ∧
    (let f := flit 4 2 2 1 0 (wordBytes [0x0A01 * 2 ^ 16, 0, 0, 0]) line0 0 1023
     let m : Chip := twinIs 2 { ready with twin := { twin := 1023 } }
     nth (flitBody f) 0 / 2 ^ 16 = 0x0A01 ∧ 2 ≤ twinSt m ∧ f.src = m.twin.twin) ∧
    (nth (flitBody (takeFlitOf 1023 1023)) 0 / 2 ^ 16 = 0x0A02 ∧ bitsN (nth (flitBody (takeFlitOf 1023 1023)) 0) 10 0 = 1023 ∧ (takeFlitOf 1023 1023).src = 1023 ∧ bitsN (nth (flitBody (takeFlitOf 1023 1023)) 1) 10 0 = 1023 ∧
     bitsN (nth (flitBody (takeFlitOf 1 1)) 1) 10 0 = 1 ∧ (takeFlitOf 1 1).src = 1 ∧ tget 0 1023 ready.twin.alias_ = 0 ∧ tget 0 1023 [(1023, 2)] = 1 + 1 ∧ (takeFlitOf 2 1).src ≠ 1 ∧ (takeFlitOf 2 1).src ≠ 1023) ∧
    (let f := flit 4 2 2 1 0 (wordBytes [0x0A03 * 2 ^ 16 + 1023, 0, 0, 0]) line0 0 1
     nth (flitBody f) 0 / 2 ^ 16 = 0x0A03 ∧ bitsN (nth (flitBody f) 0) 10 0 = 1023 ∧ tget 0 1023 [(1023, 2)] = f.src + 1 ∧ 1023 ≠ selfNum ready ∧ tget 0 1023 ready.twin.alias_ ≠ f.src + 1) := by decide +kernel

/-- A module at slot 0 of station 0 whose port 17 reaches module 8. -/
def wired (m : Chip) : Chip := fields (setCsr m 0x43C 2048) [(LNKp_LINK_STATE 17, 5), (LNKp_LINK_FAR_MODULE 17, 8)]

theorem meets_TwinCommands :
    (let m := twinIs 5 (cmd 0x0A01 [8, 0, 0xE000]); cmdReady m 0 0x0A01 = true ∧ twinSt m ≠ 0 ∧ fget m TWIN_HELD_MODULE ≠ nth (cmdPay m 0) 0 ∧ fget (fields m [(TWIN_HELD_MODULE, 8)]) TWIN_HELD_MODULE = nth (cmdPay m 0) 0) ∧
    (let m := cmd 0x0A01 [8, 1, 0xE000]; twinSt m = 0 ∧ pairWired m 8 = false ∧ pairWired (wired m) 8 = true ∧ nth64 (cmdPay m 0) 1 % 65536 ≠ 0) ∧
    (let m := wired (cmd 0x0A01 [8, 0, 0xE000]); twinSt m = 0 ∧ pairWired m 8 = true ∧ nth64 (cmdPay m 0) 1 % 65536 = 0 ∧ scratchRange m (nth64 (cmdPay m 0) 1) 0x40000 = true) ∧
    (let m : Chip := { ready with mb := [some { code := 0x0A01, pay := [], phase := 2 }, none, none, none], twin := { mb := some 0 }, ns := 10000000000 }
     m.twin.mb = some 0 ∧ cmdGoing m 0 0x0A01 = true ∧ m.twin.pairSeen = none ∧ m.twin.mbT0 + 10000000000 ≤ m.ns) ∧
    ([0, 1, 2, 3, 4, 15].all (fun op => let m := cmd 0x0A02 [op * 2 ^ 28]; cmdReady m 0 0x0A02 && bitsN (nth (cmdPay m 0) 0) 31 28 == op) = true) ∧
    ([0, 1, 2, 3, 4, 5, 6, 7].all (fun k => twinSt (twinIs k) == k) = true) ∧ (ready.twin.handover = 0 ∧ ready.twin.mb = none) ∧
    (let m : Chip := twinIs 5 { ready with twin := { peerState := 6 } }; twinSt m = 5 ∧ m.twin.peerState = 6 ∧ m.twin.mb = none) ∧
    (let m := cmd 0x0A03 [0, 0, 0xE000, 0, 0xE000, 1]
     let r : Region := ⟨nth64 (cmdPay m 0) 1, nth64 (cmdPay m 0) 3, nth (cmdPay m 0) 5⟩
     cmdReady m 0 0x0A03 = true ∧ bitsN (nth (cmdPay m 0) 0) 31 28 ≠ 1 ∧ sourceBad m 0 r.src (regionBytes r) = false ∧ ownUnits m 0 + r.units ≤ 65536 ∧ sourceBad m 0 0 65536 = true ∧
     65536 < ownUnits { m with twin := { regions := [(1, some ⟨0, 0, 65536⟩)] } } 0 + r.units ∧ sourceBad { m with twin := { regions := [(1, some ⟨0, 0, 65536⟩)] } } 0 r.src (regionBytes r) = false) ∧
    (region ready 15 = none ∧ region { ready with twin := { regions := [(15, some ⟨0, 0, 1⟩)] } } 15 = some ⟨0, 0, 1⟩) ∧
    (cmdReady (cmd 0x0A04 []) 0 0x0A04 = true ∧ cmdReady (cmd 0x0A05 [0]) 0 0x0A05 = true) ∧
    (tget 0 (fget ready TWIN_ALIAS_IDX_ROLE) ready.twin.alias_ = 0 ∧ tget 0 (fget ready TWIN_ALIAS_IDX_ROLE) [(0, 6)] = 5 + 1) ∧
    (let m : Chip := { ready with twin := { handover := 1 } }; m.twin.handover = 1 ∧ workIdle m = true) ∧
    (let m : Chip := { ready with twin := { handover := 2, jCame := true } }; m.twin.handover = 2 ∧ m.twin.jCame = true) := by decide +kernel

/-- A module under the lane check of a unit, since line time 0; its clock stands at 1,024 lt. -/
def checking (u : Nat) : Chip := { withRow (locked 3) { newRow (setAt (rowW 5 8 0 64 0 1 (if u = 8 then 4 else 3) u) 0 (5 * 2 ^ 28 + (if u = 8 then 4 else 3) * 2 ^ 24 + 8)) [] false with st := .active } with lt := { lt := 1024 } }

/-- A unit of the die links as given. -/
def withUnit (u : Nat) (x : D2dUnit) (m : Chip := ready) : Chip := modUnit m u (fun _ => x)

theorem meets_DiesAreLostAndFenced :
    ((d2dUnit (withUnit 8 { reclaim := true }) 8).reclaim = true ∧ linkHeld (withUnit 8 { reclaim := true }) 8 = []) ∧ (turnDone (checking 7) 7 = true ∧ turnDone (checking 8) 8 = true) ∧
    (dieUp ready 7 = true ∧ dieUp (fields ready [(D2D_CDd_STAT_STATE 7, 2)]) 7 = false ∧ (d2dUnit ready 7).checkMb = none) ∧ (11 ≤ 13 ∧ 13 ≤ 13 ∧ 1 < 2) ∧
    (let m := withUnit 7 { fencing := true }; (d2dUnit m 7).fencing = true ∧ m.buf.siding.all (·.isEmpty) = true ∧ (d2dUnit m 7).dieMb = none ∧ (d2dUnit m 7).cause ≠ 4) ∧
    (let m := withUnit 7 { fencing := true, cause := 4, dieMb := some 0 }; (d2dUnit m 7).dieMb = some 0 ∧ (d2dUnit m 7).cause = 4) := by decide +kernel

/-- A die whose saved map has every tag bundle outbound off forms no channel. -/
theorem meets_DieLinkCommands_train :
    (let m := withUnit 7 { saved := (List.range 32).map (fun i => (eKey 0 (256 + i), 3 * 2 ^ 30)) } (fields ready [(D2D_CLK_STAT_CD_CLK_OK, 0x7F)])
     dieFormed (verifyUnit (fset m D2D_CLK_STAT_CD_CLK_OK (fget m D2D_CLK_STAT_CD_CLK_OK ||| 2 ^ 7)) 7) 7 = false) := by decide +kernel

theorem meets_DieLinkCommands :
    (8 < fget (fields ready [(D2D_MAP_SEL_UNIT, 9)]) D2D_MAP_SEL_UNIT ∧ (let m := fields ready [(D2D_MAP_SEL_UNIT, 8), (D2D_MAP_SEL_INDEX, 56)]; fget m D2D_MAP_SEL_UNIT = 8 ∧ mapSize 8 ≤ fget m D2D_MAP_SEL_INDEX)) ∧
    (let m := fields ready [(D2D_MAP_SEL_UNIT, 8), (D2D_MAP_SEL_INDEX, 55)]; fget m D2D_MAP_SEL_UNIT ≤ 8 ∧ fget m D2D_MAP_SEL_INDEX < mapSize 8) ∧
    (let m := cmd 0x0801 [2 ^ 28 + 7]
     let down := fields m [(D2D_CDd_STAT_STATE 7, 2)]
     cmdReady m 0 0x0801 = true ∧ bitsN (2 ^ 28 + 7) 31 28 = 1 ∧ bitsN (2 ^ 28 + 7) 2 0 = 7 ∧ dieUp m 7 = (1 == 1) ∧ dieUp down 7 = false ∧
     ((firstIdx 4 (fun j => cmdGoing down j 0x0D01 && nth (cmdAux down j) 0 == 7)).isSome || (d2dUnit down 7).testMb.isSome || (d2dUnit down 7).fencing) = false ∧
     (let c := withUnit 7 { fencing := true } down; (d2dUnit c 7).fencing = true)) ∧
    (let m := cmd 0x0801 [7]
     dieUp m 7 = true ∧ (bitsN 7 31 28 == 1) = false ∧ tb 7 27 = false ∧ dieBusy m 7 = false ∧ dieBusy { m with cores := [(2240, { blocks := [(0, some blk0)] })] } 7 = true ∧ tb (2 ^ 27 + 7) 27 = true) ∧
    (let m := cmd 0x0802 [7]; cmdReady m 0 0x0802 = true ∧ (d2dUnit m 7).checkMb = none ∧ checkRow m 7 = none ∧ miotoRows m < 128 ∧ (d2dUnit (withUnit 7 { checkMb := some 1 } m) 7).checkMb.isSome = true ∧ (checkRow (checking 7) 7).isSome = true) ∧
    (cmdReady (cmd 0x0803 [2 ^ 19 + 55, 1]) 0 0x0803 = true ∧ bitsN (2 ^ 19 + 55) 19 16 = 8 ∧ bitsN (2 ^ 19 + 55) 8 0 + 1 ≤ mapSize 8 ∧ mapSize 8 < bitsN (2 ^ 19 + 55) 8 0 + 2) ∧
    cmdReady (cmd 0x0804 []) 0 0x0804 = true ∧
    (let m := cmd 0x0D03 [7]; cmdReady m 0 0x0D03 = true ∧ dieUp m 7 = true ∧ (d2dUnit m 7).fencing = false ∧ (d2dUnit m 7).testMb = none ∧ dieUp (fields m [(D2D_CDd_STAT_STATE 7, 2)]) 7 = false) ∧
    (d2dUnit (withUnit 7 { testMb := some 3 }) 7).testMb = some 3 := by decide +kernel

/-- H0 up, and window segment 0 on the first gibibyte of the buffer. -/
def hosted (h : HostState := {}) (m : Chip := ready) : Chip := { fields m [(HOST_STAT_H0_UP, 1), (HOST_SEGk_VALID 0, 1), (HOST_SEGk_TARGET 0, 0x38000)] with host := h }

/-- Every granule of the first two in HOST bias. -/
def biased : HostState := { hostBias := [(0, true), (1, true)] }

theorem meets_HostAccessesWindow_mem :
    (acts (st hosted) = true ∧ hosted.start.phase = 5 ∧ fon hosted HOST_STAT_H0_UP = true) ∧ (hostBad hosted (2 ^ 36 - 64) = true ∧ hostBad hosted 0 = false) ∧
    (gFlipping (hosted { flips := [⟨0, true, [5]⟩] }) 65535 = true ∧ hostBias hosted 0 = false ∧ fon hosted HOST_CTRL_AUTO_FLIP = true) ∧
    (let m := hosted biased
     hostBad m 0 = false ∧ gFlipping m 0 = false ∧ hostBias m (131071 / 65536) = true ∧ (readExit m (((windowDa m 0).getD 0) / 128) false).1.fate = .good ∧
     (partialWrite m (((windowDa m 0).getD 0) / 128) (List.replicate (64 % 128 / 64 * 64) 0#8 ++ fit 64 0#8 [] ++ List.replicate (64 - 64 % 128 / 64 * 64) 0#8) (mask64 64 []) true false).1 = .good) ∧
    (let m := (writeLine (hosted biased) line0 (poisonLine (List.replicate 128 0#8)) false).2
     hostBad m 0 = false ∧ gFlipping m 0 = false ∧ hostBias m 0 = true ∧ (readExit m line0 false).1.fate ≠ .good ∧ (partialWrite m line0 (List.replicate 128 0#8) 1 true false).1 ≠ .good) := by decide +kernel

theorem meets_HostAccessesWindow_io :
    ((0 : Nat) < 2 ∧ (1 : Nat) < 2 ∧ fon (fields hosted [(HOST_STAT_H1_UP, 1)]) HOST_STAT_H1_UP = true ∧ 4096 ≤ 4096) ∧ (offLines (2 ^ 36 - 1) 1).find? (hostBad hosted) = some (2 ^ 36 - 128) ∧
    (offLines 0 512).find? (hostBad (hosted biased)) = none ∧
    (let m := hosted biased; (offLines 0 4096).find? (hostBad m) = none ∧ (ioBias m 0 4096).isSome = true ∧ (ioBias m 131072 4096) = none ∧ (ioBias m 0 512).isSome = true) ∧
    ((offLines 0 4096).find? (hostBad hosted) = none ∧ ioBias hosted 0 4096 = none ∧ ioBias hosted 0 512 = none) ∧ windowDa hosted (2 ^ 36) = none ∧
    (windowDa hosted 4 = some 0xE00000000004 ∧ scratch hosted 0xE00000000004 = true ∧ hostBad hosted 4 = false ∧ 4 % 8 ≠ 0 ∧ ioBias hosted 4 4 = none) ∧
    ([0, 1, 2].all (fun op => [4, 8].all (fun n => (atomicAt hosted (0xE00000000008 / 128) (nth [0, 9, 10] op) n (0xE00000000008 % 128) (2 ^ 64 - 1) 0).1 == .good))) = true := by decide +kernel

theorem meets_BiasFlipsAndHostCommands_flips :
    (let m := hosted { flips := [⟨0, true, [5]⟩] }
     flipOf m 0 true = some ⟨0, true, [5]⟩ ∧ windowDa m (0 * 65536 + 5 * 128) = some 0xE00000000280 ∧ windowDa (fields ready [(HOST_SEGk_VALID 0, 0)]) 640 = none ∧
     (let c := modHost m (fun h => { h with flips := h.flips.map (fun f => if f.granule = 0 then { f with lines := f.lines.filter (· != 5) } else f) }); (flipOf c 0 true).any (fun f => f.lines.isEmpty) = true)) ∧
    (let m := hosted { flips := [⟨0, true, [5, 6]⟩] }
     flipOf m 0 true = some ⟨0, true, [5, 6]⟩ ∧
     (let c := modHost m (fun h => { h with flips := h.flips.map (fun f => if f.granule = 0 then { f with lines := f.lines.filter (· != 5) } else f) }); (flipOf c 0 true).any (fun f => f.lines.isEmpty) = false)) ∧
    (let m := hosted { flips := [⟨1048575, false, []⟩] }; (flipOf m 1048575 false).isSome = true ∧ writesOpen m 1048575 = false) ∧
    (let m := hosted { waitFlips := [(0, true)] }; ((0, true) ∈ m.host.waitFlips) ∧ dwellOver m 0 = true) ∧
    (let m : Chip := { hosted { ra := [[(7, some (0, []))], []] } with ns := 2048 }; tget none 7 (raOf m 0) = some (0, []) ∧ 0 + 2048 ≤ m.ns) ∧
    (tb (0#32).toNat 2 = false ∧ fon (writeFields ready HOST_CTRL_HOLDOFF_MS.off 0) HOST_CTRL_READAHEAD = false) ∧ (0 / 32 ≠ 1 ∧ 31 < 32) := by decide +kernel

theorem meets_BiasFlipsAndHostCommands_commands :
    (let w := 2 ^ 31 + 63 * 2 ^ 18 + 64
     let m := cmd 0x0901 [w]
     cmdReady m 0 0x0901 = true ∧ tb w 31 = true ∧ bitsN w 23 18 = 63 ∧ targetOk (bitsN w 17 0) = true ∧ targetOk 0x5FF = true ∧ targetOk 0x600 = false ∧ targetOk 0x38007 = true ∧ targetOk 0x38008 = false ∧
     (List.range 64).any (fun j => j != 63 && fon m (HOST_SEGk_VALID j) && fget m (HOST_SEGk_TARGET j) == 64) = false ∧ stackUp m (stackOf (64 * 2 ^ 30)) = false ∧ stackUp (stacksUp m) (stackOf (64 * 2 ^ 30)) = true ∧ m.host.winCmd = none ∧
     (List.range 64).any (fun j => j != 63 && fon (hosted {} m) (HOST_SEGk_VALID j) && fget (hosted {} m) (HOST_SEGk_TARGET j) == 0x38000) = true) ∧
    (let m := cmd 0x0901 [0]; cmdReady m 0 0x0901 = true ∧ tb 0 31 = false) ∧
    (let m := cmd 0x0902 [2 ^ 30 + 1048575, 1]; cmdReady m 0 0x0902 = true ∧ tb (2 ^ 30 + 1048575) 30 = true) ∧
    (let m := cmd 0x0902 [0, 1]; cmdReady m 0 0x0902 = true ∧ tb 0 30 = false ∧ m.host.biasCmd = none) ∧ cmdReady (cmd 0x0903 [8]) 0 0x0903 = true := by decide +kernel

/-- A module at READY with a request of mailbox 0: its code, its length and its first payload word. -/
def request (code n w : Nat) (m : Chip := ready) : Chip := setCsr (setCsr (fields m [(MB_GLOBAL_READY, 1)]) 0xA1000 (code * 65536 + n)) 0xA1008 w

/-- A request of a command by a mailbox, while another of its unit runs. -/
def between (code w : Nat) (r : MbRun) : Chip := { request code 1 w with mb := [none, some r, none, none], mbOrder := 1 }

theorem meets_MailboxIssuesCommands :
    (3 < 4 ∧ tb (0x80000000#32).toNat 31 = true ∧ fget (fields ready [(MBm_STAT_STATE 3, 1)]) (MBm_STAT_STATE 3) = 1 ∧ fon ready MB_GLOBAL_READY = false ∧ fget ready (MBm_STAT_STATE 3) ≠ 1 ∧ fon (request 0x0101 0 0) MB_GLOBAL_READY = true) ∧
    (catLen 0x0100 [] = none ∧ catLen 0x0101 [] = some 0 ∧ bitsN (reqWord (request 0x0101 1 0) 0 0) 8 0 ≠ 0) ∧
    (let m := request 0x0801 1 8; bitsN (reqWord m 0 0) 31 16 = 0x0801 ∧ catLen 0x0801 (reqPay m 0 1) = some 1 ∧ fieldsOk m 0x0801 (reqWord m 0 0) (reqPay m 0 1) = false) ∧
    (let m := request 0x0801 1 7
     goChecks m 0x0801 (reqWord m 0 0) (reqPay m 0 1) = none ∧ conflicts m 0 m.mbOrder (unitsOf 0x0801 (reqPay m 0 1)) = [] ∧ notReady m 0x0801 = false ∧ notReady { m with start := { phase := 4 } } 0x0801 = true) ∧
    (let r : MbRun := { code := 0x0801, pay := [7], units := [(3, 7)], phase := 1 }
     let m := between 0x0801 (2 ^ 27 + 7) r
     goChecks m 0x0801 (reqWord m 0 0) (reqPay m 0 1) = none ∧ conflicts m 0 m.mbOrder (unitsOf 0x0801 (reqPay m 0 1)) = [r] ∧ [r].any (fun r => functionOf r.code == functionOf 0x0801 && !r.expert && expertForm 0x0801 (reqPay m 0 1)) = true) ∧
    (let r : MbRun := { code := 0x0D01, pay := [7], units := [(3, 7)], phase := 1 }
     let m := between 0x0801 7 r
     goChecks m 0x0801 (reqWord m 0 0) (reqPay m 0 1) = none ∧ conflicts m 0 m.mbOrder (unitsOf 0x0801 (reqPay m 0 1)) = [r] ∧
     [r].any (fun r => functionOf r.code == functionOf 0x0801 && !r.expert && expertForm 0x0801 (reqPay m 0 1)) = false ∧ chapterBusy 0x0801 [r] = false ∧ chapterBusy 0x0603 [{ r with code := 0x0D02 }] = true) ∧
    (let r : MbRun := { code := 0x0801, pay := [7], units := [(3, 7)] }
     let m : Chip := { ready with mb := [some r, none, none, none] }
     mbRun m 0 = some r ∧ r.phase = 0 ∧ conflicts m 0 r.order r.units = [] ∧ notReady m r.code = false ∧ notReady { m with start := { phase := 4 } } r.code = true) ∧
    gapOver { ready with host := { msiGap := [(63, true)] } } 63 = true := by decide +kernel

/-- The next entry of ring 0 of a kind, good, in memory. -/
def entered (kind : Nat) : Chip :=
  let m := ringed kind
  let k := slotBytes m 0 / 4
  let ws := List.replicate (k - 2) 0 ++ [6]
  (storeBytes m (0xE00000000000 + 6 * (4 * k)) (wordBytes (ws ++ [crcWords (ws.take (k - 2))])) false).2

theorem meets_RingsAndDoorbells_doorbells :
    (63 < 64 ∧ ring ready 63 = none) ∧
    (let m := ringed 5
     (ring m 0).isSome = true ∧ ringKind m 0 ≤ 5 ∧ dist32 5 (ringL m 0) = 0 ∧ ringEnts m 0 = 64 ∧ dist32 70 (ringL m 0) = 65 ∧ dist32 69 (ringL m 0) = 64 ∧ dist32 6 (ringL m 0) = 1 ∧
     (ring m 0).map (·.target) = some (some 6) ∧ dist32 6 (ringL (ringed 5 { base := 0, compl := 0, target := some 7 }) 0) < dist32 7 (ringL m 0)) ∧
    (let m := ringed 6 { base := 0xE00000000000, compl := 0, next := 8 }
     (ring m 0).isSome = true ∧ 6 ≤ ringKind m 0 ∧ dist32 (8 + 2 ^ 32 - 1) (ringL m 0) = 2 ∧ 1 ≤ dist32 7 (ringL m 0) ∧ dist32 7 (ringL m 0) ≤ 2 ∧ 2 < dist32 8 (ringL m 0)) ∧
    ([1, 2, 3, 4, 5].all (fun k => let m := ringed k { base := 0xE00000000000, compl := 0xE00000010000, target := some 6, waiting := true }; ringStalled m 0 && ringKind m 0 == k &&
      (if k = 1 then launchWants m 0 else if k ≤ 3 then conWants m 0 else ptsOpen m (k - 4) && ringWants m 0)) = true) ∧
    (let r : Ring := { base := 0xE00000000000, compl := 0xE00000010000, target := some 6, waiting := true }
     let m : Chip := { ringed 1 r with ns := 64000 }; ring m 0 = some r ∧ r.waiting = true ∧ r.stopped = false ∧ r.t0 + 64000 ≤ m.ns) ∧
    (let m := entered 4; deviceReady m (0xE00000000000 + (ringSeq m 0 % ringEnts m 0) * slotBytes m 0) (slotBytes m 0) = true ∧ (ringPeek m 0).1.isSome = true) ∧
    (let m := ringed 4; deviceReady m (0xE00000000000 + (ringSeq m 0 % ringEnts m 0) * slotBytes m 0) (slotBytes m 0) = true ∧ (ringPeek m 0).1 = none) := by decide +kernel

/-- Words of SYS.RING: an operation, a ring, a kind, its entries, and where its rings lie. -/
def ringReq (op n kind base compl : Nat) : List Nat := [op * 2 ^ 28 + kind * 2 ^ 24 + n, 64, base, 0xE000, compl, 0xE000, 1]

theorem meets_RingsAndDoorbells_create :
    (let m := cmd 0x0104 (ringReq 1 63 0 0 0)
     cmdReady m 0 0x0104 = true ∧ bitsN (nth (cmdPay m 0) 0) 31 28 = 1 ∧ ring m 63 = none ∧ (({ base := 0, compl := 0, live := 1 } : Ring).live ≠ 0) ∧ (({ base := 0, compl := 0 } : Ring).live = 0)) ∧
    (let m := cmd 0x0104 (ringReq 0 63 5 0 0x10000)
     bitsN (nth (cmdPay m 0) 0) 31 28 ≠ 1 ∧ ring m 63 = none ∧ bitsN (nth (cmdPay m 0) 0) 27 24 < 6 ∧ areaOk m 0xE00000000000 4096 = true ∧ areaOk m 0xE00000010000 4160 = true ∧ areaOk m 1 64 = false ∧
     ([(0xE00000000000, 4096), (0xE00000010000, 4160)].any (fun a => ((List.range 64).flatMap (ringAreas m)).any (fun b => rangesMeet a.1 a.2 b.1 b.2))) = false ∧ rangesMeet 0xE00000000000 4096 0xE00000010000 4160 = false ∧
     rangesMeet 0xE00000000000 4096 0xE00000000800 4160 = true) ∧
    ((ring (ringed 6) 0).isSome = true ∧ (eventRing (ringed 6) 6).isSome = true ∧ eventRing ready 7 = none) := by decide +kernel

/-- A board with its rails on, and what is given. -/
def board : Board := { vin := true, vsb := true, rails := true }

theorem meets_CausesStartTheModule :
    (board.trip = false ∧ ({ board with vin := false } : Board).vin = false ∧ (vinBack { board with vin := false, trip := true } 40000).trip = true ∧ (vinBack {} 60000).trip = false ∧ ({ modRst := true } : Board).modRst = true ∧ (39999 < 40000)) ∧
    (9999 < 10000 ∧ board.rails = true ∧ ({} : Board).rails = false ∧ (Chip.off).start.phase = 0 ∧ acts (st ready) = true ∧ acts { board := {}, chip := ready } = false) ∧
    (let m : Chip := { ready with host := { downAt := some 0 }, ns := 10 ^ 11 }; fon m HOST_STAT_H0_UP = false ∧ m.host.downAt = some 0 ∧ 0 + fget m HOST_CTRL_HOLDOFF_MS * 10 ^ 6 ≤ m.ns) ∧
    (4 ≤ ready.start.phase ∧ ready.start.phase = 5 ∧ ready.start.completed = true ∧ ({ phase := 5 } : StartState).completed = false) ∧
    ([(0, false, true, true), (3, true, true, false), (4, true, true, false), (3, false, false, true), (1, true, false, false), (7, true, false, false)].all (fun (x : Nat × Bool × Bool × Bool) =>
      heeds { start := { phase := x.1, warm := x.2.1, completed := true } } x.2.2.1 x.2.2.2) = true) ∧
    (heeds Chip.off true false = false ∧ heeds { start := { phase := 4, warm := true } } false false = false) := by decide +kernel

theorem meets_HostLinksComeAndGo :
    board.h0Perst = false ∧ fon ready HOST_STAT_H0_UP = false ∧ 1 ≤ 6 ∧ 4 ≤ 4 ∧ ready.host.downAt = none ∧ ({ downAt := some 0 } : HostState).downAt = some 0 ∧ fon hosted HOST_STAT_H0_UP = true ∧ hosted.host.flips = [] := by decide +kernel

theorem meets_StartEndsAndSystemCommands :
    (({ phase := 4 } : StartState).phase = 4 ∧ ready.start.phase ≠ 4 ∧ ({ phase := 3 } : StartState).phase = 3) ∧
    ([0x0101, 0x0102, 0x0103, 0x0106, 0x0C01, 0x0C02, 0x0C03].all (fun c => cmdReady (cmd c []) 0 c) = true) ∧ heeds ready true false = true ∧ heeds { ready with start := { phase := 4 } } true false = false ∧
    (bitsN (nth (cmdPay (cmd 0x0C02 [0]) 0) 0) 31 28 = 0 ∧ bitsN (nth (cmdPay (cmd 0x0C02 [2 ^ 28]) 0) 0) 31 28 ≠ 0 ∧ ready.start.aliasCert.length ≤ nth (cmdPay (cmd 0x0C02 [2 ^ 28 + 2 ^ 24, 0]) 0) 1 ∧
      nth [2 ^ 28, 0] 1 < ({ deviceCert := [7#8] } : Board).deviceCert.length) ∧
    (ready.start.update = none ∧ ({ update := some (0, 1) } : StartState).update = some (0, 1) ∧ trialRuns board ready = false ∧ trialRuns { board with trial := some 0 } ready = true ∧ tb 0 24 = false ∧ ready.start.svn ≤ 64 ∧
      ({ bankPending := some 1 } : Board).bankPending.isSome = true) := by decide +kernel

/-- With no power the estimates are the readings. -/
theorem estimate_unpowered (temps : List Nat) (d k : Nat) : estimate temps [] d k = nth temps (sensorAt d k) := by
  simp [estimate, nth]

/-- A list of one reading gives it everywhere. -/
theorem nth_replicate {n i : Nat} (x : Nat) (h : i < n) : nth (List.replicate n x) i = x := by
  simp [nth, List.getD, h]

/-- A module that starts with every sensor at 110 °C goes on; with every sensor just above it waits. -/
theorem meets_StartEndsAndSystemCommands_thermal (d k : Nat) (hd : d < 10) (hk : k < sensors d) :
    estimate (List.replicate 192 (110 * 256)) [] d k ≤ 110 * 256 ∧ 110 * 256 < estimate (List.replicate 192 (110 * 256 + 1)) [] d k := by
  have h : sensorAt d k < 192 := by
    unfold sensorAt
    unfold sensors at hk
    split <;> split at hk <;> omega
  rw [estimate_unpowered, estimate_unpowered, nth_replicate _ h, nth_replicate _ h]
  omega

theorem meets_PowerAndTemperature :
    (cget ready PWR_ENERGY_CTR < 2 ^ 48) ∧ overheated ready (doThermalSample [] [] ready) = false ∧
    (let m : Chip := { ready with pwr := { hotDies := [0] } }; overheated m (doThermalSample (List.replicate 192 (115 * 256)) [] m) = true) ∧
    (let ns := (neighbours 9 31).filter (fun n => !(sensor ready 9 n).suspect); ns ≠ [] ∧ (sensor ready 9 31).suspect = false ∧ 0 ≤ 15 * 256 * ns.length ∧ 15 * 256 * ns.length < 15 * 256 * ns.length + 1) ∧
    (let m : Chip := { ready with pwr := { sens := [(9 * 64 + 31, { est := 0, suspect := true, run := 63 })] } }; (sensor m 9 31).suspect = true ∧ ((neighbours 9 31).filter (fun n => !(sensor m 9 n).suspect)) ≠ []) ∧
    (2 ≤ 2) ∧ throttleTimerDue { ready with lt := { lt := 0x80000 } } = true ∧ (7 < 8 ∧ 25 < 26 ∧ 26 ≤ 26) ∧
    (({ convFail := [0] } : PwrState).convFail ≠ [] ∧ (3 : Nat) ∉ ({ convFail := [0] } : PwrState).convFail ∧ ready.pwr.convFail = [] ∧ 3 < 4) ∧
    (cmdReady (cmd 0x0B01 [2800]) 0 0x0B01 = true ∧ 2800 < bitsN 2801 11 0 ∧ bitsN 999 11 0 < 1000 ∧ 1000 ≤ bitsN 1000 11 0 ∧ bitsN 2800 11 0 ≤ 2800 ∧ cmdReady (cmd 0x0B02 []) 0 0x0B02 = true) := by decide +kernel

theorem meets_BoardBusAndTestPort :
    (board.vsb = true ∧ 0x58 = 0x58 + board.slot % 8) ∧ (smbAlert { board := { board with trip := true } } = true ∧ smbAlert { board := board, chip := ready } = false) ∧
    (({ modRst := true } : Board).modRst = true ∧ board.modRst = false ∧ fget ready MB_GLOBAL_READY = 0 ∧ fget (request 0x0101 0 0) MB_GLOBAL_READY ≠ 0 ∧ board.vin = true ∧ (1 : Nat) < 2 ∧ ({} : Board).vin = false) := by decide +kernel

theorem meets_ResetLeavesModuleOffInOrder : 40000 ≤ 60000 ∧ 60000 ≤ 60000 ∧ 40000 ≤ 40000 := by decide +kernel

/-! ### Ill-formed commands

For each check a command that fails it alone, by the first value out of range. -/

theorem test_illFormed_coreWord :
    (([
    .nop, .bra, .call, .jmp, .exit, .bar, .trap, .iadd, .isub, .imul, .imulhi, .imac, .imin, .imax, .shl, .shr, .andI, .orI, .xorI, .pcnt, .clz, .bext, .bins, .mov, .movi, .sel, .bsel,
    .xlane, .rdsp, .iadd64, .fadd, .fmul, .fmac, .fmin, .fmax, .pkadd, .pkmul, .pkmac, .pkmin, .pkmax, .cvt, .rcp, .rsq, .sqrt, .exp2, .log2, .tanh, .icmp, .fcmp, .pcomb, .pgrp, .p2v, .v2p,
    .uadd, .usub, .umul, .uand, .uor, .uxor, .ushl, .ushr, .umov, .umovi, .uadd64, .ucmp, .urdsp, .ld, .st, .fence, .l0inv] ++
  [
    .uld, .uwait, .atomAdd, .atomFadd, .atomSmin, .atomSmax, .atomUmin, .atomUmax, .atomAnd, .atomOr, .atomXor, .atomExch, .atomCas, .sig, .mma, .tzero, .trd, .twr, .tst] : List (Nat → Nat → IWord → Instr))).all (fun f => wellFormed (f 2559 15 0) && !wellFormed (f 2560 15 0) && !wellFormed (f 2559 16 0)) = true := by decide +kernel

theorem test_illFormed_one :
    (([
    .evictionWriteback, .evictionRoomResume, .sidingDrain, .sidingRoomResume, .bufScrubLine, .fetchWagonStart, .ptsJobAccept, .ptsWaitPoll, .ptsWaitTimeout, .routeJobRun, .tallyJobRun,
    .ptsJobComplete, .bufClearDone] : List (Nat → Instr))).all (fun f => wellFormed (f (2 - 1)) && !wellFormed (f (2))) = true ∧
    (([
    .ttLock, .ttNow, .ttSchedule, .ttPost, .ttCancel, .ttList, .ttArm, .diagCore, .bufRegion, .bufFlush, .bufScrub, .bufClear, .bufFlip, .conRun, .conRegulate, .conReset, .ptsTable,
    .ptsRoute, .ptsTally, .ptsReset, .hbmService, .hbmThrottle, .hbmScrub, .hbmFlip, .hbmStatus, .diagHbm, .lnkEye, .lnkLoop, .lnkLane, .lnkService, .lnkStatus, .lnkTopo, .d2dDie,
    .d2dCheck, .d2dMap, .d2dStatus, .diagD2d, .hostWindow, .hostBias, .hostPolicy, .commandWaitResume, .sysSize, .sysIdent, .sysState, .sysRing, .sysAbort, .sysReset, .secMeasure,
    .secAttest, .secUpdate, .twinPair, .twinDetach, .twinProtect, .twinStatus, .twinPolicy, .converterFail, .pwrLimit, .pwrStatus] : List (Nat → Instr))).all (fun f => wellFormed (f (4 - 1)) && !wellFormed (f (4))) = true ∧
    (([
    .hbmRead, .hbmWrite, .hbmPartialWrite, .refreshTimer, .hbmScrubLine, .hbmDrainDone] : List (Nat → Instr))).all (fun f => wellFormed (f (24 - 1)) && !wellFormed (f (24))) = true ∧
    (([
    .portBringupTimeout, .farLoopExit, .replayTimeout, .nakRepeat, .linkLockTimeout, .linkDrainEnd, .portFrameSend] : List (Nat → Instr))).all (fun f => wellFormed (f (36 - 1)) && !wellFormed (f (36))) = true ∧
    (([
    .conDescriptorAccept, .regulatorRefill, .ringEntryReread, .doorbellAhead, .msixGapExpire, .launchAccept] : List (Nat → Instr))).all (fun f => wellFormed (f (64 - 1)) && !wellFormed (f (64))) = true ∧
    (([
    .sliceRead, .sliceWrite, .slicePartialWrite, .collectAtomic, .collectReduce] : List (Nat → Instr))).all (fun f => wellFormed (f (128 - 1)) && !wellFormed (f (128))) = true ∧
    (([
    .rowArm, .slotWindowOpen, .recvWindowOpen, .exchangeWindowOpen, .refreshWindowOpen, .possessionWindowOpen, .throttleWindowOpen, .journalWindowOpen, .signalRowFire, .markRowFire,
    .rowWindowEnd, .recvWindowClose, .lateReadyOmit] : List (Nat → Instr))).all (fun f => wellFormed (f (4096 - 1)) && !wellFormed (f (4096))) = true := by decide +kernel

/-- A flit with every field at its greatest, and one out of range in each. -/
def flitMost : Flit := { typ := 7, lines := 63, op := 7, dtype := 3, retCount := 63, seq := 4095, dest := 2047, src := 2047, retVc := 3, hchk := 255, addr := 2 ^ 41 - 1, ack := 4095, tag := 2047, body := [] }
def flitsOver : List Flit := [
    { flitMost with typ := 8 }, { flitMost with lines := 64 }, { flitMost with op := 8 }, { flitMost with dtype := 4 }, { flitMost with retCount := 64 },
    { flitMost with seq := 4096 }, { flitMost with dest := 2048 }, { flitMost with src := 2048 }, { flitMost with retVc := 4 }, { flitMost with hchk := 256 },
    { flitMost with addr := 2 ^ 41 }, { flitMost with ack := 4096 }, { flitMost with tag := 2048 }]

theorem test_illFormed_flit :
    (([
    .flitDataWriteRx, .flitDataReduceRx, .voidMarkerRx, .reqReadRx, .reqWriteRx, .reqMaskedWriteRx, .reqAtomicRx, .respReadDataRx, .respWriteAckRx, .respAtomicResultRx, .respErrorRx,
    .idleRx, .nakRx, .auditRx, .reclaimReqRx, .reclaimRepRx, .identRx, .departRx, .routedRx, .heartbeatRx, .jendRx, .jackRx, .pairRx, .unpairRx, .regionRx, .twinHbRx, .twinTakeRx,
    .twinReleaseRx] : List (Nat → Flit → Instr))).all (fun f => wellFormed (f 35 flitMost) && !wellFormed (f 36 flitMost) && flitsOver.all (fun x => !wellFormed (f 35 x))) = true := by decide +kernel

theorem test_illFormed_rest : (([
    .registerWrite (2 ^ 40) 0, .registerWrite (2 ^ 40 - 3) 0, .readLoLatch (2 ^ 40), .readLoLatch (2 ^ 40 - 3), .counterOvfClear (2 ^ 40) 0, .counterOvfClear (2 ^ 40 - 3) 0,
    .ctrlAccessError (2 ^ 40) 0 false, .undefinedRegAccess (2 ^ 40) false, .markReqRx (36) (16 - 1), .markReqRx (36 - 1) (16), .markRepRx (36) 0 0 (64 - 1) (5 - 1) (16 - 1),
    .markRepRx (36 - 1) 0 0 (64) (5 - 1) (16 - 1), .markRepRx (36 - 1) 0 0 (64 - 1) (5) (16 - 1), .markRepRx (36 - 1) 0 0 (64 - 1) (5 - 1) (16), .barrierStall (2560) 0,
    .l0LineFill (2560) 0, .uwaitPoll (2560) (16 - 1), .uwaitPoll (2560 - 1) (16), .uwaitTimeout (2560) (16 - 1), .uwaitTimeout (2560 - 1) (16), .sliceClassDPromote (128) 0,
    .conWaitPoll (2) 0, .conWaitTimeout (2) 0, .fetchLineReturn (2) 0, .expandWagon (2) (64 - 1), .expandWagon (2 - 1) (64), .expandHand (2) (64 - 1), .expandHand (2 - 1) (64),
    .stageWagonWrite (2) 0, .stageWagonRetire (2) 0, .despatchWagon (4096) (2 - 1), .despatchWagon (4096 - 1) (2), .consistReclaimDone (2) (5 - 1), .consistReclaimDone (2 - 1) (5),
    .hbmClassDPromote (24) 0, .hbmTrainingFinish (24) false (256 - 1), .hbmTrainingFinish (24 - 1) false (256), .hbmTempRead (24) 0, .hbmOosWrite (24) 0, .laneSignalDetect (36) (4 - 1),
    .laneSignalDetect (36 - 1) (4), .laneCdrLock (36) (4 - 1), .laneCdrLock (36 - 1) (4), .laneFrameLock (36) (4 - 1) 0 (32 - 1), .laneFrameLock (36 - 1) (4) 0 (32 - 1),
    .laneFrameLock (36 - 1) (4 - 1) 0 (32), .laneAdaptPass (36) (4 - 1) 0 0, .laneAdaptPass (36 - 1) (4) 0 0, .laneAdaptTimeout (36) (4 - 1), .laneAdaptTimeout (36 - 1) (4),
    .laneRateStep (36) 0 0 0, .laneFrameReceive (36) (4 - 1) 0 [] [], .laneFrameReceive (36 - 1) (4) 0 [] [], .laneFail (36) (4 - 1) 0, .laneFail (36 - 1) (4) 0, .eyeStartWrite (36) 0,
    .eyePointDone (36) [], .laneEnWrite (36) 0, .loopSelectWrite (36) 0, .lnkOosWrite (36) 0, .linkReclaimWrite (36) 0, .linkRetrainWrite (36) 0, .laneCheckTurn (9) [],
    .computeDieLost (8) 0, .roleFatal (2) (16 - 1), .roleFatal (2 - 1) (16), .hostMemRead (2 ^ 36), .hostMemWrite (2 ^ 36) (List.replicate 64 0) (List.replicate 64 true),
    .hostMemWrite (2 ^ 36 - 1) (List.replicate 63 0) (List.replicate 64 true), .hostMemWrite (2 ^ 36 - 1) (List.replicate 64 0) (List.replicate 63 true)] ++
  [
    .hostIoRead (2) (2 ^ 36 - 1) 0, .hostIoRead (2 - 1) (2 ^ 36) 0, .hostIoWrite (2) (2 ^ 36 - 1) [] false, .hostIoWrite (2 - 1) (2 ^ 36) [] false,
    .hostAtomicop (2) (2 ^ 36 - 1) (3 - 1) 0 0 0, .hostAtomicop (2 - 1) (2 ^ 36) (3 - 1) 0 0 0, .hostAtomicop (2 - 1) (2 ^ 36 - 1) (3) 0 0 0,
    .biasRecallResponse (2 ^ 20) 0 false (List.replicate 128 0), .biasRecallResponse (2 ^ 20 - 1) 0 false (List.replicate 127 0), .biasFlipHostComplete (2 ^ 20), .biasDwellExpire (2 ^ 20),
    .readaheadExpire (2) 0, .hostDoorbellWrite (64) 0, .eventRingDoorbell (64) 0, .mailboxGo (4) 0, .bootThermalRecheck (List.replicate 191 0) (List.replicate 192 0),
    .bootThermalRecheck (List.replicate 192 0) (List.replicate 191 0), .thermalSample (List.replicate 191 0) (List.replicate 192 0),
    .thermalSample (List.replicate 192 0) (List.replicate 191 0), .smbRead 0 (2 ^ 40) false, .smbWrite 0 (2 ^ 40) 0, .jtagFlashProg (2) (2 ^ 40 - 1) [], .jtagFlashProg (2 - 1) (2 ^ 40) [],
    .loopTestEnd (36) 0 [] 0 0, .codeCacheFill (2560) (16 - 1), .codeCacheFill (2560 - 1) (16), .hbmArrayTestEnd (24) 0 0 0, .coreTestEnd (8) 0 0 0, .d2dTestEnd (8) [],
    .hbmReturnDone (24) false, .dieFenceComplete (8), .d2dReclaimDone (9), .clockLoss (13), .railFault (27), .mmaArrayComplete (2560)] : List Instr)).all (fun i => !wellFormed i) = true ∧ (([
    .registerWrite (2 ^ 40 - 4) 0, .readLoLatch (2 ^ 40 - 4), .counterOvfClear (2 ^ 40 - 4) 0, .ctrlAccessError (2 ^ 40 - 1) 0 false, .undefinedRegAccess (2 ^ 40 - 1) false,
    .markReqRx (36 - 1) (16 - 1), .markRepRx (36 - 1) 0 0 (64 - 1) (5 - 1) (16 - 1), .barrierStall (2560 - 1) 0, .l0LineFill (2560 - 1) 0, .uwaitPoll (2560 - 1) (16 - 1),
    .uwaitTimeout (2560 - 1) (16 - 1), .sliceClassDPromote (128 - 1) 0, .conWaitPoll (2 - 1) 0, .conWaitTimeout (2 - 1) 0, .fetchLineReturn (2 - 1) 0, .expandWagon (2 - 1) (64 - 1),
    .expandHand (2 - 1) (64 - 1), .stageWagonWrite (2 - 1) 0, .stageWagonRetire (2 - 1) 0, .despatchWagon (4096 - 1) (2 - 1), .consistReclaimDone (2 - 1) (5 - 1),
    .hbmClassDPromote (24 - 1) 0, .hbmTrainingFinish (24 - 1) false (256 - 1), .hbmTempRead (24 - 1) 0, .hbmOosWrite (24 - 1) 0, .laneSignalDetect (36 - 1) (4 - 1),
    .laneCdrLock (36 - 1) (4 - 1), .laneFrameLock (36 - 1) (4 - 1) 0 (32 - 1), .laneAdaptPass (36 - 1) (4 - 1) 0 0, .laneAdaptTimeout (36 - 1) (4 - 1), .laneRateStep (36 - 1) 0 0 0,
    .laneFrameReceive (36 - 1) (4 - 1) 0 [] [], .laneFail (36 - 1) (4 - 1) 0, .eyeStartWrite (36 - 1) 0, .eyePointDone (36 - 1) [], .laneEnWrite (36 - 1) 0, .loopSelectWrite (36 - 1) 0,
    .lnkOosWrite (36 - 1) 0, .linkReclaimWrite (36 - 1) 0, .linkRetrainWrite (36 - 1) 0, .laneCheckTurn (9 - 1) [], .computeDieLost (8 - 1) 0, .roleFatal (2 - 1) (16 - 1),
    .hostMemRead (2 ^ 36 - 1), .hostMemWrite (2 ^ 36 - 1) (List.replicate 64 0) (List.replicate 64 true), .hostIoRead (2 - 1) (2 ^ 36 - 1) 0, .hostIoWrite (2 - 1) (2 ^ 36 - 1) [] false,
    .hostAtomicop (2 - 1) (2 ^ 36 - 1) (3 - 1) 0 0 0, .biasRecallResponse (2 ^ 20 - 1) 0 false (List.replicate 128 0), .biasFlipHostComplete (2 ^ 20 - 1), .biasDwellExpire (2 ^ 20 - 1),
    .readaheadExpire (2 - 1) 0, .hostDoorbellWrite (64 - 1) 0, .eventRingDoorbell (64 - 1) 0, .mailboxGo (4 - 1) 0, .bootThermalRecheck (List.replicate 192 0) (List.replicate 192 0),
    .thermalSample (List.replicate 192 0) (List.replicate 192 0), .smbRead 0 (2 ^ 40 - 1) false, .smbWrite 0 (2 ^ 40 - 1) 0, .jtagFlashProg (2 - 1) (2 ^ 40 - 1) [],
    .loopTestEnd (36 - 1) 0 [] 0 0, .codeCacheFill (2560 - 1) (16 - 1), .hbmArrayTestEnd (24 - 1) 0 0 0, .coreTestEnd (8 - 1) 0 0 0, .d2dTestEnd (8 - 1) [], .hbmReturnDone (24 - 1) false,
    .dieFenceComplete (8 - 1), .d2dReclaimDone (9 - 1), .clockLoss (13 - 1), .railFault (27 - 1)] ++
  [
    .mmaArrayComplete (2560 - 1)] : List Instr)).all wellFormed = true := by decide +kernel

/-! ### Single steps and the worked examples of the spec -/

/-- The group of slot 0 after its word has run. -/
def ranGrp (f : Nat → Nat → IWord → Instr) (w : Nat) (g : Grp) (b : Blk := blk0) : Grp :=
  let s := st (coreWith g b w)
  (grp (after (exec (f 0 0 (BitVec.ofNat 64 w)) s) s).chip 0 0).getD grp0

/-- A v register of a thread. -/
def vReg (g : Grp) (r t : Nat) : Nat := tget 0 (64 * r + t) g.v

/-- A group whose thread 0 holds values in v1, v2 and v3. -/
def grpV (a b c : Nat) : Grp := { grp0 with v := [(64, a), (128, b), (192, c)] }

/-- R190 and the worked example "encoding a guarded FMAC": the fields of 0x4290_5024_4050_0000, and v4 * u8 + v10 where p2 is 1: 2 * 3 + 1 is 7. -/
theorem test_fmac_guarded_example :
    (let w := 0x4290502440500000
     let g := ranGrp .fmac w { grp0 with p := [(2, 1)], u := [(8, 0x40400000)], v := [(256, 0x40000000), (257, 0x40000000), (640, 0x3F800000), (641, 0x3F800000)] }
     (iOp w, iDst w, iA w, iB w, iC w) = (0x42, 10, 4, 0x88, 10) ∧ vReg g 10 0 = 0x40E00000 ∧ vReg g 10 1 = 0x3F800000 ∧ g.pc = 0xE00000001008) := by decide +kernel

/-- The worked example "encoding an acquire load". -/
theorem test_ld_acquire_example :
    (let w := 0xA000A03884300100; (iOp w, bitsN w 50 43, iVoff w, iVoffEn w, iUbase w) = (0xA0, 20, 3, true, 2) ∧ (iForm w, iSize w, iOrd w, iScope w) = (0, 2, 1, 2)) := by decide +kernel

/-- R240: sums and differences wrap, or saturate where the word says so. -/
theorem test_iadd_wraps_or_saturates :
    vReg (ranGrp .iadd (wR 0x10 3 1 2 0 0) (grpV 0x7FFFFFFF 1 0)) 3 0 = 0x80000000 ∧ vReg (ranGrp .iadd (wR 0x10 3 1 2 0 4096) (grpV 0x7FFFFFFF 1 0)) 3 0 = 0x7FFFFFFF ∧
    vReg (ranGrp .isub (wR 0x11 3 1 2 0 0) (grpV 0 1 0)) 3 0 = 0xFFFFFFFF := by decide +kernel

/-- The high half of a signed product, and of an unsigned one. -/
theorem test_imulhi_signs :
    vReg (ranGrp .imulhi (wR 0x13 3 1 2 0 1) (grpV 0xFFFFFFFF 2 0)) 3 0 = 0xFFFFFFFF ∧ vReg (ranGrp .imulhi (wR 0x13 3 1 2 0 0) (grpV 0xFFFFFFFF 2 0)) 3 0 = 1 := by decide +kernel

/-- The leading zeros of 0, and a source that is also the destination. -/
theorem test_clz_and_xor_in_place :
    vReg (ranGrp .clz (wR 0x1D 3 1 0 0 0) (grpV 0 0 0)) 3 0 = 32 ∧ vReg (ranGrp .xorI (wR 0x1B 1 1 1 0 0) (grpV 0xFFFFFFFF 0 0)) 1 0 = 0 := by decide +kernel

/-- R199, R200: the canonical NaN; the operand that is no NaN; -0 below +0. -/
theorem test_nan_and_zero_rules :
    vReg (ranGrp .fadd (wR 0x40 3 1 2 0 0) (grpV 0x7F800000 0xFF800000 0)) 3 0 = 0x7FC00000 ∧ vReg (ranGrp .fmin (wR 0x43 3 1 2 0 0) (grpV 0x7FC12345 0x3F800000 0)) 3 0 = 0x3F800000 ∧
    vReg (ranGrp .fmax (wR 0x44 3 1 2 0 0) (grpV 0x80000000 0 0)) 3 0 = 0 ∧ vReg (ranGrp .fmin (wR 0x43 3 1 2 0 0) (grpV 0 0x80000000 0)) 3 0 = 0x80000000 := by decide +kernel

/-- R208: p3 := p0 and not p1. -/
theorem test_pcomb_negates :
    tget 0 3 (ranGrp .pcomb (0x82 * 2 ^ 56 + 3 * 2 ^ 43 + 0 * 2 ^ 35 + 1 * 2 ^ 27 + 2 ^ 14) { grp0 with p := [(0, 3), (1, 2)] }).p % 4 = 1 := by decide +kernel

/-- R129 to R131: an unaligned load ends its block with a fault; the group is gone. -/
theorem test_ld_unaligned_faults :
    (let w := 0xA0 * 2 ^ 56 + 20 * 2 ^ 43 + 2 ^ 30 + 2 * 2 ^ 25 + 2
     let s := st (coreWith grpU blk0 w)
     grp (after (exec (.ld 0 0 (BitVec.ofNat 64 w)) s) s).chip 0 0 = none) := by decide +kernel

/-- The worked example "composing a global address". -/
theorem test_global_address_example : gaOf (setCsr ready 0x43C 0x4D2) 0x005012345000 = 0x04D2005012345000 := by decide +kernel

/-- The worked example "slices of addresses and strides". -/
theorem test_slice_example :
    gSlice 1 0xE00100003F80 = 126 ∧ (sliceOf 0xE00100003F80).2.2 = 1 ∧
    ((List.range 64).all (fun k => gSlice 0 (0xE00000000000 + 8192 * k) == k && gSlice 0 (0xE00000000000 + 524288 * k) == k)) = true := by decide +kernel

/-- The worked example "placing one address". -/
theorem test_hbm_place_example : hbmPlace 0x005012345000 = (5, 13, 0x3C, 72, 2) := by decide +kernel

/-- The worked example "from host address to slice". -/
theorem test_window_example :
    (let m := fields ready [(HOST_SEGk_VALID 37, 1), (HOST_SEGk_TARGET 37, 0x38004)]
     windowDa m 0x940001080 = some 0xE00100001080 ∧ 0x940001080 / 65536 = 32 * 18944 + 0) := by decide +kernel

/-- The worked example "finding elements": element (5, 77) of an F4 fragment lies in byte 358, in the high half. -/
theorem test_fragment_element_example : fragElem (List.replicate 358 0#8 ++ [0xA3#8]) 5 64 4 77 = 0xA := by decide +kernel

/-- The worked example "one MX4 2:4 record": tokens 0x04 with five words, 0xA7, 0x02 with three words give 48 words from 35 bytes. -/
theorem test_zrc_example :
    (let coded := [0x04#8] ++ List.replicate 20 1#8 ++ [0xA7#8] ++ [0x02#8] ++ List.replicate 12 2#8
     coded.length = 35 ∧ zrcDecode coded.length coded = some (List.replicate 20 1#8 ++ List.replicate 160 0#8 ++ List.replicate 12 2#8)) := by decide +kernel

/-- The worked example "lowering the limit to 2,000 W": the command, the next limits, and the step of the power loop. -/
theorem test_limit_example :
    (let s := st (cmd 0x0B01 [2000])
     let t := after (exec (.pwrLimit 0) s) s
     fget t.chip PWR_LIMIT_TARGET = 2000 ∧ nextLimit t.chip = 2600) ∧
    (nextPower 0 2774 2600 0 = (1, 0) ∧ nextPower 4 2104 2000 0 = (5, 0) ∧ nextPower 5 1952 2000 0 = (5, 0) ∧ nextPower 5 1879 2000 3 = (4, 0)) := by decide +kernel

/-- The worked example "one launch through a ring": SYS.RING of ring 5 answers 32,832 bytes and leaves L at FIRST_SEQ - 1. -/
theorem test_ring_example :
    (let s := st (cmd 0x0104 [0x01014005, 256, 0x01000000, 0xE000, 0x01010000, 0xE000, 0])
     let t := after (exec (.sysRing 0) s) s
     csr t.chip 0xA1800 = 1 ∧ csr t.chip 0xA180C = 32832 ∧ ringL t.chip 5 = 2 ^ 32 - 1 ∧ ringKind t.chip 5 = 1 ∧ ringEnts t.chip 5 = 256) := by decide +kernel

/-- A route job of the worked example "six tokens, one full expert" at token t, which chooses experts a and b, with the fill of experts 1 and 2. -/
def sixTokens (t a b f1 f2 : Nat) : State :=
  let w := [2 ^ 28 + 2 ^ 20 + 2 * 2 ^ 16, 7 * 2 ^ 16 + 2, 0, 6, 128, 0x100, 0x200, 0x300, 0, 0, 0, 0, 4, 0]
  let j : Job := { ring := some 0, seq := 6, w := w, t0 := 0, run := true, tok := t, fill := [(1, f1), (2, f2)] }
  let m : Chip := { ready with pts := { jobs := [some j, none], table := [(1, 2 ^ 31 + 1), (2, 2 ^ 31 + 2), (3, 2 ^ 31 + 3)] } }
  st (storeBytes m (0xE00000000000 + 32 * t) (wordBytes ([a * 65536, b * 65536] ++ List.replicate 6 0xFFFF0000)) false).2

/-- The counts of engine 0's job after a decision: IN, ROUTED, DEMOTED, OVERFLOW, FALLBACK, UNRECORDED. -/
def routed (s : State) : Option (List Nat × List Nat) := (ptsJob (after (exec (.routeJobRun 0) s) s).chip 0).map (fun j => (j.counts, [tget 0 1 j.fill, tget 0 2 j.fill]))

/-- Tokens 2, 3 and 5: the alternate has room; expert 7 is unknown; both experts are full. -/
theorem test_route_example :
    routed (sixTokens 2 1 2 2 0) = some ([1, 1, 1, 0, 0, 0], [2, 1]) ∧ routed (sixTokens 3 7 1 2 1) = some ([1, 0, 0, 0, 1, 0], [2, 1]) ∧ routed (sixTokens 5 1 2 2 2) = some ([1, 0, 0, 1, 0, 0], [2, 2]) := by
  decide +kernel

/-- R24: a write leaves a read-only field, and clears an RW1C field where it writes 1. -/
theorem test_register_write_types :
    (let s := st (fields ready [(HOST_STAT_H0_LOST, 1), (HOST_STAT_H1_LOST, 1)])
     let t := after (exec (.registerWrite 0x90004 0x7#32) s) s
     fget t.chip HOST_STAT_H0_LOST = 0 ∧ fget t.chip HOST_STAT_H1_LOST = 1 ∧ fget t.chip HOST_STAT_H0_WIDTH = 15 ∧ fget t.chip HOST_STAT_H0_UP = 0) := by decide +kernel

/-- R591: a read through the window gives the 64 bytes of its half line in HOST bias. -/
theorem test_host_mem_read :
    (let s := st (storeBytes (hosted biased) 0xE00000000040 [1#8, 2#8] false).2
     (after (exec (.hostMemRead 64) s) s).chip.host.ans.getD 0 none = some (.data ([1#8, 2#8] ++ List.replicate 62 0#8))) := by decide +kernel

/-- R484, R529: the first lane that detects its signal takes the link from RESET to TRAIN. -/
theorem test_lane_detects :
    (let s := st (laned 1 1)
     let t := after (exec (.laneSignalDetect 35 3) s) s
     laneSt t.chip 35 3 = 2 ∧ linkSt t.chip 35 = 2) := by decide +kernel

/-- R660: SYS.STATE of a module at READY, after the three words of the header. -/
theorem test_sys_state : (let s := st (cmd 0x0103 []); csr (after (exec (.sysState 0) s) s).chip 0xA180C = 2 ^ 28) := by decide +kernel

/-- R811, R814: an address that is not the responder's has no answer; the identity code is shifted out bit 0 first. -/
theorem test_board_bus :
    (let s : State := { board := board }
     (after (exec (.smbRead 0x59 0 false) s) s).board.smbOut = none ∧ (after (exec (.smbRead 0x58 4 true) s) s).board.smbOut = some 0x9240 ∧
     (after (exec .jtagIdcode s) s).board.tdo = (List.range 32).map (tb 0x0924027B)) := by decide +kernel

end Sys2Proof.Tests
end

section
/-! SUPPORT. Control space: what a write leaves in each field of a register, and what an access does. -/

namespace Sys2Proof.Proofs

open Sys2Proof.Machine Sys2Proof.Laws

/-! ### Fields of one register -/

/-- Two fields of one register share no bit. -/
abbrev FieldsApart (f g : FDef) : Prop := f.hi < g.lo ∨ g.hi < f.lo

/-- The fields lie in a 32-bit word, and no two share a bit. -/
abbrev FieldsFit (fs : List FDef) : Prop := (∀ f ∈ fs, f.lo ≤ f.hi ∧ f.hi < 32) ∧ fs.Pairwise FieldsApart

/-- The place of a field in the register at off. -/
abbrev fieldAt (off : Nat) (f : FDef) : Fld := ⟨off, f.hi, f.lo⟩

/-- What a field that holds old reads once new is written to it (R24, R28). -/
def fieldAfter (f : FDef) (old new : Nat) : Nat :=
  match f.ty with
  | .rw => if f.ok new then new else old
  | .w1c => old - (old &&& new)
  | .ro | .wo => old

theorem regTable_fieldsFit : ∀ d ∈ regTable, FieldsFit d.fields := by decide +kernel

/-- The register tables give every register fields that fit. -/
theorem fieldsFit_of_regFields {off : Nat} {fs : List FDef} (h : regFields off = some fs) : FieldsFit fs := by
  unfold regFields at h
  obtain ⟨d, hd, rfl⟩ := Option.map_eq_some_iff.mp h
  exact regTable_fieldsFit d (List.mem_of_find?_eq_some hd)

theorem bitsN_lt (w hi lo : Nat) : bitsN w hi lo < 2 ^ (hi + 1 - lo) := Nat.mod_lt _ (Nat.two_pow_pos _)

theorem csr_fset_ne (m : Chip) (f : Fld) (v : Nat) {p : Nat} (h : p ≠ f.off) : csr (fset m f v) p = csr m p := csr_setCsr_ne m _ h

/-! ### A write to one field -/

/-- A write to a field is a write of what it then reads, or none. -/
theorem writeField_cases (m : Chip) (off v : Nat) (f : FDef) :
    (writeField m off v f = m ∧ fieldAfter f (fget m (fieldAt off f)) (bitsN v f.hi f.lo) = fget m (fieldAt off f)) ∨
    writeField m off v f = fset m (fieldAt off f) (fieldAfter f (fget m (fieldAt off f)) (bitsN v f.hi f.lo)) := by
  unfold writeField fieldAfter
  cases f.ty with
  | rw => by_cases hok : f.ok (bitsN v f.hi f.lo) = true <;> simp [hok]
  | w1c => exact .inr rfl
  | ro | wo => exact .inl ⟨rfl, rfl⟩

theorem fieldAfter_lt (f : FDef) {old new n : Nat} (ho : old < n) (hn : new < n) : fieldAfter f old new < n := by
  unfold fieldAfter
  cases f.ty with
  | rw => dsimp only; split <;> assumption
  | w1c => exact Nat.lt_of_le_of_lt (Nat.sub_le _ _) ho
  | ro | wo => exact ho

theorem csr_writeField_ne (m : Chip) {off p : Nat} (v : Nat) (f : FDef) (h : p ≠ off) : csr (writeField m off v f) p = csr m p := by
  obtain ⟨hw, -⟩ | hw := writeField_cases m off v f
  · rw [hw]
  · rw [hw, csr_fset_ne _ _ _ h]

theorem fget_writeField (m : Chip) (off v : Nat) {f : FDef} (hf : f.lo ≤ f.hi ∧ f.hi < 32) :
    fget (writeField m off v f) (fieldAt off f) = fieldAfter f (fget m (fieldAt off f)) (bitsN v f.hi f.lo) := by
  obtain ⟨hw, ha⟩ | hw := writeField_cases m off v f
  · rw [hw, ha]
  · rw [hw, fget_fset _ _ _ hf.1 hf.2]
    exact Nat.mod_eq_of_lt (fieldAfter_lt f (bitsN_lt _ _ _) (bitsN_lt _ _ _))

theorem fget_writeField_apart (m : Chip) (off v : Nat) {f g : FDef} (hf : f.lo ≤ f.hi) (hg : g.hi < 32) (h : FieldsApart g f) :
    fget (writeField m off v f) (fieldAt off g) = fget m (fieldAt off g) := by
  obtain ⟨hw, -⟩ | hw := writeField_cases m off v f
  · rw [hw]
  · rw [hw, fget_fset_apart m (fieldAt off f) (fieldAt off g) _ hf rfl hg h]

/-! ### A write to all fields -/

/-- The fields of a list, written in turn. -/
def writeEach (off v : Nat) (fs : List FDef) (m : Chip) : Chip := fs.foldl (fun c f => writeField c off v f) m

theorem writeEach_cons (off v : Nat) (f : FDef) (fs : List FDef) (m : Chip) : writeEach off v (f :: fs) m = writeEach off v fs (writeField m off v f) := rfl

/-- Outside D2D_MAP_SEL a register write is the write of its fields. -/
theorem writeFields_eq (m : Chip) {off : Nat} (v : Nat) {fs : List FDef} (h : regFields off = some fs) (hd : off ≠ D2D_MAP_SEL_UNIT.off) :
    writeFields m off v = writeEach off v fs m := by
  simp [writeFields, writeEach, h, hd]

theorem csr_writeEach_ne {off p : Nat} (v : Nat) (h : p ≠ off) (fs : List FDef) (m : Chip) : csr (writeEach off v fs m) p = csr m p := by
  induction fs generalizing m with
  | nil => rfl
  | cons f fs ih => rw [writeEach_cons, ih, csr_writeField_ne m v f h]

theorem fget_writeEach_apart (off v : Nat) {fs : List FDef} {g : FDef} (hfs : ∀ f ∈ fs, f.lo ≤ f.hi) (hg : g.hi < 32) (h : ∀ f ∈ fs, FieldsApart g f) (m : Chip) :
    fget (writeEach off v fs m) (fieldAt off g) = fget m (fieldAt off g) := by
  induction fs generalizing m with
  | nil => rfl
  | cons f fs ih =>
    obtain ⟨hf, hfs⟩ := List.forall_mem_cons.mp hfs
    obtain ⟨hgf, h⟩ := List.forall_mem_cons.mp h
    rw [writeEach_cons, ih hfs h, fget_writeField_apart m off v hf hg hgf]

/-- Each field reads as its own write leaves it, the other fields being apart from it. -/
theorem fget_writeEach (off v : Nat) {fs : List FDef} {f : FDef} (hfit : FieldsFit fs) (hf : f ∈ fs) (m : Chip) :
    fget (writeEach off v fs m) (fieldAt off f) = fieldAfter f (fget m (fieldAt off f)) (bitsN v f.hi f.lo) := by
  induction fs generalizing m with
  | nil => cases hf
  | cons g fs ih =>
    obtain ⟨hin, hpw⟩ := hfit
    obtain ⟨hg, hrest⟩ := List.forall_mem_cons.mp hin
    obtain ⟨hapart, hpwRest⟩ := List.pairwise_cons.mp hpw
    rw [writeEach_cons]
    obtain rfl | hfs := List.mem_cons.mp hf
    · rw [fget_writeEach_apart off v (fun x hx => (hrest x hx).1) hg.2 hapart, fget_writeField m off v hg]
    · rw [ih ⟨hrest, hpwRest⟩ hfs, fget_writeField_apart m off v hg.1 (hrest f hfs).2 (hapart f hfs).symm]

/-- Settles O6: a register's fields are apart, so each reads as its own write leaves it. -/
theorem registerFieldsObeyTheirTypes : Obligations.RegisterFieldsObeyTheirTypes := by
  intro m off v fs f hfs hf hd
  have hread := fget_writeEach off v (fieldsFit_of_regFields hfs) hf m
  rw [writeFields_eq m v hfs hd]
  refine ⟨fun ht hok => ?_, fun ht hok => ?_, fun ht => ?_, fun ht => ?_, fun p hp => csr_writeEach_ne v hp fs m⟩
  · rw [hread]; simp [fieldAfter, ht, hok]
  · rw [hread]; simp [fieldAfter, ht, hok]
  · rw [hread]; simp [fieldAfter, ht]
  · rw [hread]; obtain ht | ht := ht <;> simp [fieldAfter, ht]

/-! ### Accesses -/

/-- A command that runs an effect on an acting module does what the effect makes of it. -/
theorem does_of_run {c : Instr} {s : State} {f : Chip → Chip} {m : Chip} (ha : acts s = true) (he : exec c s = run s f) (hf : f s.chip = m) : Does c s m := by
  rw [Does, he, run_acts ha, hf]

theorem doRegisterWrite_plain {m : Chip} {off v : Nat} (hal : off % 4 = 0) (hdef : regDefined off = true) (hlo : isCtrLo off = false) (hhi : isCtrHi off = false)
    (hown : ownRow m off v = false) (hmask : off ≠ 0x30008) (hmaskHi : off ≠ 0x3000C) (hctrl : off ≠ TT_CTRL_ARM.off)
    (hreg : runIndex 0x40100 4 64 off = none) (hhbm : runIndex 0x60100 0x100 24 off = none) : doRegisterWrite off v m = writeFields m off v := by
  simp [doRegisterWrite, afterWrite, *]

theorem doReadLoLatch_lo {m : Chip} {off : Nat} (hal : off % 4 = 0) (hdef : regDefined off = true) (hlo : isPairLo off = true) :
    doReadLoLatch off m = { m with latch := tput 0 (off + 4) (regRead m (off + 4) + 1) m.latch, out := some (regRead m off) } := by
  simp [doReadLoLatch, *]

theorem doReadLoLatch_latched {m : Chip} {off h : Nat} (hal : off % 4 = 0) (hdef : regDefined off = true) (hlo : isPairLo off = false) (hhi : isPairHi off = true)
    (hlatch : tget 0 off m.latch = h + 1) : doReadLoLatch off m = { m with latch := tput 0 off 0 m.latch, out := some h } := by
  simp [doReadLoLatch, *]

theorem doReadLoLatch_single {m : Chip} {off : Nat} (hal : off % 4 = 0) (hdef : regDefined off = true) (hlo : isPairLo off = false) (hhi : isPairHi off = false) :
    doReadLoLatch off m = { m with out := some (regRead m off) } := by
  simp [doReadLoLatch, *]

theorem doCounterOvfClear_ovf {m : Chip} {off v : Nat} (hhi : isCtrHi off = true) (hv : tb v 31 = true) :
    doCounterOvfClear off v m = setCsr (setCsr m off 0) (off - 4) 0 := by
  simp [doCounterOvfClear, *]

theorem doCtrlAccessError_illFormed {m : Chip} {off n : Nat} (h : n ≠ 4 ∨ off % 4 ≠ 0) : doCtrlAccessError off n m = { m with out := none } :=
  if_neg (by omega)

theorem doUndefinedRegAccess_undefined {m : Chip} {off : Nat} (hal : off % 4 = 0) (hdef : regDefined off = false) :
    doUndefinedRegAccess off m = recErr { m with out := none } 1 8 7 0 (5, 0, 0) off 3 0 0 0 := by
  simp [doUndefinedRegAccess, *]

/-- Settles O7: every access runs its effect on the acting module, and the conditions of each clause choose the branch. -/
theorem controlSpaceAccesses : Obligations.ControlSpaceAccesses := by
  intro s ha
  refine ⟨?write, ?lo, ?latched, ?single, ?ovf, ?illFormed, ?undef⟩
  case write =>
    intro off v hal hdef hlo hhi hown hmask hmaskHi hctrl hreg hhbm
    exact does_of_run ha rfl (doRegisterWrite_plain hal hdef hlo hhi hown hmask hmaskHi hctrl hreg hhbm)
  case lo => exact fun _ hal hdef hlo => does_of_run ha rfl (doReadLoLatch_lo hal hdef hlo)
  case latched => exact fun _ _ hal hdef hlo hhi hlatch => does_of_run ha rfl (doReadLoLatch_latched hal hdef hlo hhi hlatch)
  case single => exact fun _ hal hdef hlo hhi => does_of_run ha rfl (doReadLoLatch_single hal hdef hlo hhi)
  case ovf => exact fun _ _ hhi hv => does_of_run ha rfl (doCounterOvfClear_ovf hhi hv)
  case illFormed => exact fun _ _ _ h => does_of_run ha rfl (doCtrlAccessError_illFormed h)
  case undef => exact fun _ _ hal hdef => does_of_run ha rfl (doUndefinedRegAccess_undefined hal hdef)

end Sys2Proof.Proofs
end

section
/-! SUPPORT. The board through a start, and the machine after reset. -/

namespace Sys2Proof.Proofs

open Sys2Proof.Machine Sys2Proof.Laws

/-! ### The board's power through a start -/

/-- Two boards agree on power: VIN48, VSB, the rails and the trip latch (R772, R775, R783). -/
structure SamePower (a b : Board) : Prop where
  vin : b.vin = a.vin
  vsb : b.vsb = a.vsb
  rails : b.rails = a.rails
  trip : b.trip = a.trip

theorem SamePower.trans {a b c : Board} (h : SamePower a b) (k : SamePower b c) : SamePower a c :=
  ⟨k.vin.trans h.vin, k.vsb.trans h.vsb, k.rails.trans h.rails, k.trip.trans h.trip⟩

/-- The choice of a bank writes the boot record alone. -/
theorem samePower_chooseBank (b : Board) (warm : Bool) (last : List Byte) : SamePower b (chooseBank b warm last).2 := by
  unfold chooseBank
  dsimp only
  split
  · exact ⟨rfl, rfl, rfl, rfl⟩
  · split <;> exact ⟨rfl, rfl, rfl, rfl⟩

/-- The boot ROM's steps keep power, so that what agrees with the board before them agrees with it after. -/
theorem SamePower.bootImage {b : Board} {s : State} (h : SamePower b s.board) : SamePower b (bootImage s).board := by
  have hc := samePower_chooseBank s.board s.chip.start.warm s.chip.start.lastMeas
  unfold Machine.bootImage
  dsimp only
  split <;> exact h.trans hc

/-- A cold start keeps power: step 4 samples the straps, and the image is chosen at once or once the module has cooled. -/
theorem samePower_coldSteps (s : State) : SamePower s.board (coldSteps s).board := by
  unfold coldSteps
  dsimp only
  split
  · exact ⟨rfl, rfl, rfl, rfl⟩
  · exact SamePower.bootImage ⟨rfl, rfl, rfl, rfl⟩

theorem settled_board (s : State) : (settled s).board = s.board := by
  unfold settled
  split <;> rfl

theorem vinBack_vin (b : Board) (mv : Nat) : (vinBack b mv).vin = true := by
  unfold vinBack
  split <;> rfl

/-- VSB stands once VIN48 is back: it rises, or it had stayed up. -/
theorem vinBack_vsb (b : Board) (mv : Nat) : (vinBack b mv).vsb = true := by
  by_cases h : (b.fell || !b.vsb) = true
  · simp [vinBack, h]
  · rw [vinBack, if_neg h]
    simpa using (not_or.mp (mt (Bool.or_eq_true _ _).mpr h)).2

/-- VIN48 coming back after a fall, or with VSB absent, clears a latched trip. -/
theorem vinBack_trip {b : Board} (mv : Nat) (h : (b.fell || !b.vsb) = true) : (vinBack b mv).trip = false := by
  simp [vinBack, h]

/-- A rise of VIN48 with no trip latched brings the rails, whether the start begins at once or waits for MOD_RST_N. -/
theorem doVin48Rise_powers {mv : Nat} {s : State} (h : (vinBack s.board mv).trip = false) :
    (doVin48Rise mv s).board.vin = true ∧ (doVin48Rise mv s).board.vsb = true ∧ (doVin48Rise mv s).board.rails = true := by
  unfold doVin48Rise
  simp only [h, Bool.false_eq_true, if_false]
  split
  · exact ⟨vinBack_vin _ _, vinBack_vsb _ _, rfl⟩
  · exact ⟨(samePower_coldSteps _).vin.trans (vinBack_vin _ _), (samePower_coldSteps _).vsb.trans (vinBack_vsb _ _), (samePower_coldSteps _).rails⟩

theorem exec_vin48Rise {mv : Nat} {s : State} (hv : s.board.vin = false) (hlo : 40000 ≤ mv) (hhi : mv ≤ 60000) :
    exec (.vin48Rise mv) s = .next (settled (doVin48Rise mv s)) := by
  change execVin48Rise mv s = _
  simp [execVin48Rise, hv, hlo, hhi]

/-! ### After reset -/

theorem csr_off (off : Nat) : csr Chip.off off = regReset off := tget_nil _ _

theorem powerInv_reset : PowerInv State.reset := ⟨fun _ => rfl, fun h => absurd h (by decide)⟩

/-- VIN48's rise powers the machine as reset leaves it. -/
theorem vin48Rise_reset {mv : Nat} (hlo : 40000 ≤ mv) (hhi : mv ≤ 60000) :
    ∃ t, exec (.vin48Rise mv) State.reset = .next t ∧ t.board.vin = true ∧ t.board.rails = true ∧ t.board.vsb = true := by
  obtain ⟨hvin, hvsb, hrails⟩ := doVin48Rise_powers (vinBack_trip mv (b := State.reset.board) rfl)
  refine ⟨_, exec_vin48Rise rfl hlo hhi, ?_⟩
  rw [settled_board]
  exact ⟨hvin, hrails, hvsb⟩

/-- Settles O60: reset leaves the module without state and the board without power, and VIN48's rise brings both rails and VSB. -/
theorem resetLeavesModuleOffInOrder : Obligations.ResetLeavesModuleOffInOrder :=
  ⟨powerInv_reset, rfl, rfl, rfl, rfl, rfl, csr_off, rfl, rfl, fun n => tget_nil none n, rfl, rfl, fun _ hlo hhi => vin48Rise_reset hlo hhi⟩

end Sys2Proof.Proofs
end

section
/-! SUPPORT. The end of a step of a quiet machine: the twin's view of the links and the size table, and nothing beside them. -/

namespace Sys2Proof.Proofs

open Sys2Proof.Machine Sys2Proof.Laws

/-! ### Writes to registers alone -/

/-- From a to b only registers change, and of these only ones whose offset meets p. -/
structure WritesOnly (p : Nat → Prop) (a b : Chip) : Prop where
  rest : ∃ t, b = { a with csr := t }
  regs : ∀ off, ¬ p off → csr b off = csr a off

namespace WritesOnly

variable {p q : Nat → Prop} {a b c : Chip}

theorem refl (a : Chip) : WritesOnly p a a := ⟨⟨a.csr, rfl⟩, fun _ _ => rfl⟩

theorem trans (h : WritesOnly p a b) (k : WritesOnly p b c) : WritesOnly p a c := by
  obtain ⟨t, rfl⟩ := h.rest
  obtain ⟨u, rfl⟩ := k.rest
  exact ⟨⟨u, rfl⟩, fun off ho => (k.regs off ho).trans (h.regs off ho)⟩

theorem mono (h : WritesOnly p a b) (hpq : ∀ off, p off → q off) : WritesOnly q a b := ⟨h.rest, fun off ho => h.regs off (mt (hpq off) ho)⟩

theorem setCsr (m : Chip) {o : Nat} (v : Nat) (h : p o) : WritesOnly p m (setCsr m o v) :=
  ⟨⟨_, rfl⟩, fun _ ho => csr_setCsr_ne m v fun heq => ho (heq ▸ h)⟩

theorem fset (m : Chip) {f : Fld} (v : Nat) (h : p f.off) : WritesOnly p m (fset m f v) := setCsr m _ h

/-- A fold whose every step writes only such registers writes only such registers. -/
theorem foldl {α : Type} {f : Chip → α → Chip} {l : List α} (h : ∀ x ∈ l, ∀ m, WritesOnly p m (f m x)) (m : Chip) : WritesOnly p m (l.foldl f m) := by
  induction l generalizing m with
  | nil => exact refl m
  | cons x l ih =>
    obtain ⟨hx, hl⟩ := List.forall_mem_cons.mp h
    exact (hx m).trans (ih hl (f m x))

theorem fget (h : WritesOnly p a b) {f : Fld} (hf : ¬ p f.off) : fget b f = fget a f := by
  rw [Machine.fget, h.regs f.off hf, Machine.fget]

/-- What waits to be written at the end of the step is no register. -/
theorem quiet (h : WritesOnly p a b) (ha : Quiet a) : Quiet b := by
  obtain ⟨t, rfl⟩ := h.rest
  exact ha

end WritesOnly

/-! ### The parts of the step's end -/

/-- Offsets that the refresh of the size table may write: GENERATION and words 15 to 20 (R45, R47). -/
def refreshed (off : Nat) : Prop := off = 0x404 ∨ 0x43C ≤ off ∧ off < 0x454

theorem writesOnly_sizeRefresh (m : Chip) : WritesOnly refreshed m (sizeRefresh m) := by
  unfold sizeRefresh
  dsimp only
  split
  · exact .refl m
  · refine .trans (.foldl (fun i hi c => ?_) m) (.setCsr _ _ (.inl rfl))
    have hword : i < 6 := List.mem_range.mp hi
    exact .setCsr c _ (.inr (by omega))

theorem writesOnly_twinBits (m : Chip) : WritesOnly (· = TWIN_STAT_STATE.off) m (twinBits m) := by
  unfold twinBits
  refine .trans (.trans (.fset m _ ?_) (.fset _ _ ?_)) (.fset _ _ ?_) <;> rfl

/-- A field of TWIN_STAT apart from the three link bits reads as before the view of the links is taken (R739). -/
theorem fget_twinBits_apart (m : Chip) {f : Fld} (ho : f.off = TWIN_STAT_STATE.off) (h32 : f.hi < 32)
    (h : ∀ g : Fld, g = TWIN_STAT_P17_UP ∨ g = TWIN_STAT_P34_UP ∨ g = TWIN_STAT_QUORUM_OK → f.hi < g.lo ∨ g.hi < f.lo) :
    fget (twinBits m) f = fget m f := by
  unfold twinBits
  rw [fget_fset_apart _ TWIN_STAT_QUORUM_OK f _ (by decide) ho h32 (h _ (by simp)),
    fget_fset_apart _ TWIN_STAT_P34_UP f _ (by decide) ho h32 (h _ (by simp)),
    fget_fset_apart _ TWIN_STAT_P17_UP f _ (by decide) ho h32 (h _ (by simp))]

theorem recKeep_of_not_due {m : Chip} (h : m.start.recDue = false) : recKeep m = m := by
  simp [recKeep, h]

/-- With no counter overflow, record or notice noted, the rounds of emission find nothing. -/
theorem emitAll_of_nothing_noted {m : Chip} (hdue : m.err.due = []) (hovf : m.err.ovf = []) (n : Nat) : emitAll n m = m := by
  cases n with
  | zero => rfl
  | succ n =>
    have hsame : { m with err := { m.err with ovf := [] } } = m := by rw [← hovf]
    rw [emitAll, hovf, List.foldl_nil, hsame]
    exact if_pos hdue

/-- A quiet machine's step ends with the twin's view of the links and then the size table. -/
theorem settle_of_quiet {m : Chip} (hm : Quiet m) : settle m = sizeRefresh (twinBits m) := by
  obtain ⟨hdue, hovf, -⟩ := (writesOnly_sizeRefresh (twinBits m)).quiet ((writesOnly_twinBits m).quiet hm)
  obtain ⟨-, -, hrec⟩ := hm
  rw [settle, recKeep_of_not_due hrec, emitAll_of_nothing_noted hdue hovf]

/-- Settles O9: a quiet machine's step ends with two writers of registers, and TWIN_STAT is written by the first of them alone. -/
theorem quietStepEnd : Obligations.QuietStepEnd := by
  intro m hm
  rw [settle_of_quiet hm]
  have hsize := writesOnly_sizeRefresh (twinBits m)
  have hboth : WritesOnly (fun off => off = TWIN_STAT_STATE.off ∨ refreshed off) m (sizeRefresh (twinBits m)) :=
    ((writesOnly_twinBits m).mono fun _ => .inl).trans (hsize.mono fun _ => .inr)
  refine ⟨hboth.rest, fun off hgen hwords htwin => hboth.regs off ?_, fun f ho _ h32 happart => ?_⟩
  · simp only [refreshed]
    omega
  · rw [hsize.fget (by rw [ho]; simp [refreshed, TWIN_STAT_STATE]), fget_twinBits_apart m ho h32 happart]

end Sys2Proof.Proofs
end

section
/-! SUPPORT. Timetable rows: how the table reads after an update, and what a row's events do from its arm point to its end. -/

namespace Sys2Proof.Proofs

open Sys2Proof.Machine Sys2Proof.Laws

/-! ### Events of the module -/

/-- An event that comes about on an acting module does what its effect makes of it. -/
theorem does_of_runIf {c : Instr} {s : State} {cond : Chip → Bool} {f : Chip → Chip} (ha : acts s = true) (he : exec c s = runIf s cond f)
    (hc : cond s.chip = true) : Does c s (f s.chip) := by
  rw [Does, he, runIf_acts ha hc]

/-- What holds of the machine at the end of the step that a command makes. -/
theorem exists_next_of_does {c : Instr} {s : State} {m : Chip} {P : Chip → Prop} (h : Does c s m) (hp : P (settle m)) : ∃ t, exec c s = .next t ∧ P t.chip :=
  ⟨_, h, hp⟩

/-! ### The table -/

@[simp] theorem rowAt_setRow (m : Chip) (k : Nat) (r : Option TtRow) : rowAt (setRow m k r) k = r := tget_tput_same _ _ _ _

theorem rowAt_setRow_ne (m : Chip) {j k : Nat} (r : Option TtRow) (h : j ≠ k) : rowAt (setRow m k r) j = rowAt m j := tget_tput_ne _ _ h _

theorem rowAt_of_rows {a b : Chip} (h : b.rows = a.rows) (k : Nat) : rowAt b k = rowAt a k := by
  rw [rowAt, h, rowAt]

@[simp] theorem rowAt_settle (m : Chip) (k : Nat) : rowAt (settle m) k = rowAt m k := rowAt_of_rows (settle_rows m) k

@[simp] theorem rowAt_bump (m : Chip) (o n k : Nat) : rowAt (bump m o n) k = rowAt m k := rowAt_of_rows (bump_rows m o n) k

theorem rowAt_modRow {m : Chip} {k : Nat} {r : TtRow} (f : TtRow → TtRow) (h : rowAt m k = some r) : rowAt (modRow m k f) k = some (f r) := by
  rw [modRow, rowAt_setRow, h, Option.map_some]

/-! ### The end of an occurrence -/

theorem rowAt_retire (m : Chip) (k : Nat) (r : TtRow) : rowAt (retire m k r) k = none := rowAt_setRow _ _ _

theorem rowAt_retire_ne (m : Chip) {j k : Nat} (r : TtRow) (h : j ≠ k) : rowAt (retire m k r) j = rowAt m j := by
  rw [retire, rowAt_setRow_ne _ _ h]
  split
  · exact rowAt_of_rows (ttEvent_rows _ _) j
  · rfl

/-- The row with an occurrence counted, as run or as skipped. -/
def occurrenceCounted (r : TtRow) (ran : Bool) : TtRow := if ran then { r with run := r.run + 1 } else { r with skipped := r.skipped + 1 }

/-- The row as its next occurrence finds it. -/
def nextOccurrence (r : TtRow) (ran : Bool) : TtRow :=
  { newRow r.w r.par r.mioto with
    start := r.base + rowPeriod r.w * 64, base := r.base + rowPeriod r.w * 64, run := r.run + b2n ran, skipped := r.skipped + b2n (!ran), share := r.share, own := r.own }

theorem endOccurrence_eq (m : Chip) (k : Nat) (r : TtRow) (ran : Bool) :
    endOccurrence m k r ran = if rowMore (occurrenceCounted r ran) then setRow m k (some (nextOccurrence r ran)) else retire m k (occurrenceCounted r ran) := by
  cases ran <;> rfl

/-- A row goes on while it is periodic, not cancelled, and its COUNT is not reached (R76). -/
theorem rowMore_occurrenceCounted (r : TtRow) (ran : Bool) :
    rowMore (occurrenceCounted r ran) = true ↔ rowPeriod r.w ≠ 0 ∧ r.cancelled = false ∧ (rowCount r.w = 0 ∨ r.run + r.skipped + 1 < rowCount r.w) := by
  cases ran <;> simp [rowMore, occurrenceCounted, and_assoc, Nat.add_right_comm, ← Nat.add_assoc]

/-- Settles O16: the row counted either returns with its next start or retires, and both write one row of the table. -/
theorem rowReturnsOrRetires : Obligations.RowReturnsOrRetires := by
  intro m k r ran
  dsimp only
  rw [endOccurrence_eq, ← rowMore_occurrenceCounted r ran]
  refine ⟨fun hmore => ?_, fun hlast => ?_, fun j hj => ?_⟩
  · exact ⟨nextOccurrence r ran, by rw [if_pos hmore, rowAt_setRow], rfl, rfl, rfl, rfl, rfl, rfl⟩
  · rw [if_neg hlast, rowAt_retire]
  · split
    · exact rowAt_setRow_ne _ _ hj
    · exact rowAt_retire_ne _ _ hj

/-! ### Arming -/

theorem kept_loadLoop (n : Nat) (m : Chip) (ln : Nat) (acc : List Byte) (mioto : Bool) (bad : Option (Nat × Got)) : Kept m (loadLoop n m ln acc mioto bad).2.2 := by
  induction n generalizing m ln acc bad with
  | zero => exact .refl m
  | succ n ih => exact (kept_readExit m ln mioto).trans (ih _ _ _ _)

/-- What is read beside a machine leaves it kept. Stated of a pair, so that the kernel compares no read with one. -/
theorem kept_beside {α β : Type} {m : Chip} (x : α) {r : β × Chip} (h : Kept m r.2) : Kept m (x, r).2.2 := h

theorem kept_loadBytes (m : Chip) (da n : Nat) (mioto : Bool) : Kept m (loadBytes m da n mioto).2.2 := by
  unfold loadBytes
  exact kept_beside _ (kept_loadLoop _ _ _ _ _ _)

theorem kept_readParam (m : Chip) (w : List Nat) : Kept m (readParam m w).2.2 := by
  unfold readParam
  split
  · exact kept_beside _ (kept_loadBytes _ _ _ _)
  · exact .refl m

theorem kept_loadList (m : Chip) (par : List Nat) : Kept m (loadList m par).2.2 := by
  unfold loadList
  exact kept_beside _ (kept_loadBytes _ _ _ _)

theorem kept_paramRecord (m : Chip) (r : TtRow) (bad : Option (Nat × Got)) : Kept m (paramRecord m r bad) := by
  unfold paramRecord
  split
  · exact kept_recFate _ _ _ _ _ _ _
  · exact .refl m

/-- Arming a row: its block is loaded, the row is set ARMED with what was loaded, and what fails is noted. -/
theorem armRow_arms (m : Chip) (k : Nat) (r : TtRow) :
    ∃ c par list bad, Kept m c ∧ Kept (setRow c k (some { r with st := .armed, par := par, list := list, bad := bad })) (armRow m k r) := by
  have hnoted {c d : Chip} {p : Prop} [Decidable p] {x y : Option (Nat × Got)} (h : Kept c d) :
      Kept c (if p then bump (paramRecord (paramRecord d r x) r y) TT_BADPARAM_CTR 1 else paramRecord (paramRecord d r x) r y) := by
    have hrec := h.trans ((kept_paramRecord d r x).trans (kept_paramRecord _ r y))
    exact .ite (hrec.trans (kept_bump _ _ _)) hrec
  refine ⟨_, _, _, _, ?_, hnoted (.refl _)⟩
  refine (kept_readParam m r.w).trans ?_
  split
  · exact kept_loadList _ _
  · exact .refl _

theorem doRowArm_eq {m : Chip} {k : Nat} {r : TtRow} (h : rowAt m k = some r) :
    doRowArm k m = if r.mioto && miotoBlocked m r r.start then displace m k r else if !fon m TT_CTRL_ARM then skipOccurrence m k r else armRow m k r := by
  rw [doRowArm, h]

theorem exec_rowArm (k : Nat) (s : State) : exec (.rowArm k) s = runIf s (fun m => (rowAt m k).any (armDueAt m)) (doRowArm k) := rfl

/-- At its arm point a row's event does what doRowArm makes of it. -/
theorem does_rowArm {s : State} {k : Nat} {r : TtRow} (ha : acts s = true) (hr : rowAt s.chip k = some r) (hp : r.st = .pending) (ht : r.start ≤ now s.chip + 4096) :
    Does (.rowArm k) s (doRowArm k s.chip) :=
  does_of_runIf ha (exec_rowArm k s) (by simp [hr, armDueAt, hp, ht])

/-- Settles O13: at the arm point the row's owner, Mioto's claim and ARM choose between displacing, skipping and arming. -/
theorem rowArmsBeforeItsStart : Obligations.RowArmsBeforeItsStart := by
  intro s ha k r hr hp ht
  have hdoes := does_rowArm ha hr hp ht
  rw [doRowArm_eq hr] at hdoes
  have hfree (h : r.mioto = false ∨ miotoBlocked s.chip r r.start = false) : ¬ (r.mioto && miotoBlocked s.chip r r.start) = true := by
    obtain h | h := h <;> simp [h]
  refine ⟨fun hm harm => ?arm, fun hm harm => ?skip, fun hm hb hk => ?move⟩
  case arm =>
    rw [if_neg (hfree hm), if_neg (by simp [harm])] at hdoes
    obtain ⟨c, par, list, bad, hload, hnote⟩ := armRow_arms s.chip k r
    have hrow (j : Nat) := rowAt_of_rows hnote.rows j
    refine ⟨_, { r with st := .armed, par := par, list := list, bad := bad }, hdoes, ?_, rfl, rfl, rfl, rfl, rfl, rfl, fun j hj => ?_⟩
    · rw [rowAt_settle, hrow, rowAt_setRow]
    · rw [rowAt_settle, hrow, rowAt_setRow_ne _ _ hj, rowAt_of_rows hload.rows]
  case skip => rwa [if_neg (hfree hm), if_pos (by simp [harm])] at hdoes
  case move =>
    rw [if_pos (by simp [hm, hb]), displace, if_neg hk] at hdoes
    exact exists_next_of_does (P := fun c => rowAt c k = _) hdoes (by rw [rowAt_settle, rowAt_setRow])

end Sys2Proof.Proofs
end

section
/-! SUPPORT. Windows: what opens one, and what ends one. -/

namespace Sys2Proof.Proofs

open Sys2Proof.Machine Sys2Proof.Laws

theorem rowDue_of_rowAt {m : Chip} {k : Nat} {r : TtRow} {kinds : List Nat} {st : RowSt} {time : TtRow → Nat} (hr : rowAt m k = some r) (hk : rowKind r.w ∈ kinds)
    (hst : r.st = st) (ht : time r ≤ now m) : rowDue m k kinds st time = true := by
  simp [rowDue, hr, hk, hst, ht]

/-! ### Openings -/

theorem openRow_active {m : Chip} {k : Nat} {r : TtRow} (f : TtRow → Chip → Chip) (hr : rowAt m k = some r) (h : rowKind r.w ∉ [1, 2, 3, 7] ∨ ltLocked m = true) :
    openRow m k f = f { r with st := .active } (setRow m k (some { r with st := .active })) := by
  simp only [openRow, hr]
  exact if_neg (by simpa [or_iff_not_imp_left] using h)

/-- R81: a row that needs the fabric is skipped outside SYSTEM and HOLDOVER. -/
theorem openRow_unlocked {m : Chip} {k : Nat} {r : TtRow} (f : TtRow → Chip → Chip) (hr : rowAt m k = some r) (hk : rowKind r.w ∈ [1, 2, 3, 7])
    (h : ltLocked m = false) : openRow m k f = skipOccurrence m k r := by
  simp only [openRow, hr]
  exact if_pos (by simpa [h] using hk)

/-- The command opens the windows of rows of a kind, and f acts then. -/
def Opens (c : Instr) (k kind : Nat) (f : TtRow → Chip → Chip) : Prop :=
  ∀ s : State, exec c s = runIf s (fun m => rowDue m k [kind] .armed (·.start)) (fun m => openRow m k f)

theorem opens_slotWindowOpen (k : Nat) : Opens (.slotWindowOpen k) k 1 (sendOpen k) := fun _ => rfl
theorem opens_recvWindowOpen (k : Nat) : Opens (.recvWindowOpen k) k 2 (fun _ m => modRow m k (fun x => { x with srcs := [] })) := fun _ => rfl
theorem opens_exchangeWindowOpen (k : Nat) : Opens (.exchangeWindowOpen k) k 3 (sendOpen k) := fun _ => rfl
theorem opens_refreshWindowOpen (k : Nat) : Opens (.refreshWindowOpen k) k 4 (fun r m => refreshPasses (rowIndex r.w) m) := fun _ => rfl
theorem opens_possessionWindowOpen (k : Nat) : Opens (.possessionWindowOpen k) k 5 (fun r m => possBits r 1 m) := fun _ => rfl
theorem opens_throttleWindowOpen (k : Nat) : Opens (.throttleWindowOpen k) k 6 (fun _ m => throttleAct m) := fun _ => rfl
theorem opens_journalWindowOpen (k : Nat) : Opens (.journalWindowOpen k) k 7 journalOpen := fun _ => rfl
theorem opens_signalRowFire (k : Nat) : Opens (.signalRowFire k) k 8 signalFire := fun _ => rfl
theorem opens_markRowFire (k : Nat) : Opens (.markRowFire k) k 9 (fun r m => ttEvent m ([2 ^ 28 + rowTag r.w, r.run, 0] ++ lohi r.start)) := fun _ => rfl

/-- At its start a row's window opens. -/
theorem Opens.does {c : Instr} {s : State} {k kind : Nat} {r : TtRow} {f : TtRow → Chip → Chip} (hc : Opens c k kind f) (ha : acts s = true)
    (hr : rowAt s.chip k = some r) (hst : r.st = .armed) (ht : r.start ≤ now s.chip) (hk : rowKind r.w = kind) : Does c s (openRow s.chip k f) :=
  (does_of_runIf ha (hc s) (rowDue_of_rowAt hr (by simp [hk]) hst ht) :)

/-- Settles O14: each command opens its kind of row, and the lock state decides whether the row is ACTIVE or skipped. -/
theorem windowsOpenAtTheirStart : Obligations.WindowsOpenAtTheirStart := by
  intro s ha k r hr hst ht
  have active {c : Instr} {kind : Nat} {f : TtRow → Chip → Chip} (hc : Opens c k kind f) (hk : rowKind r.w = kind) (h : kind ∉ [1, 2, 3, 7] ∨ ltLocked s.chip = true) :
      Does c s (f { r with st := .active } (setRow s.chip k (some { r with st := .active }))) := by
    rw [← openRow_active f hr (hk ▸ h)]
    exact hc.does ha hr hst ht hk
  have skipped {c : Instr} {kind : Nat} {f : TtRow → Chip → Chip} (hc : Opens c k kind f) (hl : ltLocked s.chip = false) (hfab : kind ∈ [1, 2, 3, 7])
      (hk : rowKind r.w = kind) : Does c s (skipOccurrence s.chip k r) := by
    rw [← openRow_unlocked f hr (hk ▸ hfab) hl]
    exact hc.does ha hr hst ht hk
  dsimp only
  refine ⟨fun hl hk => ?slot, fun hl hk => ?exchange, fun hl hk => ?recv, fun hk => ?refresh, fun hk => ?possession, fun hk => ?throttle, fun hl hk => ?journal,
    fun hk => ?signal, fun hk => ?mark, fun hl => ?outside⟩
  case slot => exact (active (opens_slotWindowOpen k) hk (.inr hl) :)
  case exchange => exact (active (opens_exchangeWindowOpen k) hk (.inr hl) :)
  case recv =>
    refine exists_next_of_does (P := fun c => rowAt c k = _) (active (opens_recvWindowOpen k) hk (.inr hl)) ?_
    rw [rowAt_settle, rowAt_modRow _ (rowAt_setRow _ _ _)]
  case refresh => exact (active (opens_refreshWindowOpen k) hk (.inl (by decide)) :)
  case possession => exact (active (opens_possessionWindowOpen k) hk (.inl (by decide)) :)
  case throttle => exact (active (opens_throttleWindowOpen k) hk (.inl (by decide)) :)
  case journal => exact (active (opens_journalWindowOpen k) hk (.inr hl) :)
  case signal => exact (active (opens_signalRowFire k) hk (.inl (by decide)) :)
  case mark => exact (active (opens_markRowFire k) hk (.inl (by decide)) :)
  case outside =>
    exact ⟨skipped (opens_slotWindowOpen k) hl (by decide), skipped (opens_recvWindowOpen k) hl (by decide), skipped (opens_exchangeWindowOpen k) hl (by decide),
      skipped (opens_journalWindowOpen k) hl (by decide)⟩

/-! ### Ends -/

theorem exec_rowWindowEnd (k : Nat) (s : State) :
    exec (.rowWindowEnd k) s = runIf s (fun m => rowDue m k [1, 3, 4, 5, 6, 7, 8, 9] .active rowEnd) (doRowWindowEnd k) := rfl

theorem exec_recvWindowClose (k : Nat) (s : State) :
    exec (.recvWindowClose k) s = runIf s (fun m => rowDue m k [2] .active rowEnd && !windowBusy m k) (recvClose k) := rfl

theorem exec_lateReadyOmit (k : Nat) (s : State) : exec (.lateReadyOmit k) s = runIf s (fun m => (rowAt m k).any (lateWatched m)) (doLateReadyOmit k) := rfl

theorem exec_despatchWagon (k d : Nat) (s : State) : exec (.despatchWagon k d) s = runIf s (fun _ => decide (d < 2)) (doDespatchWagon k d) := rfl

section

variable {m : Chip} {k : Nat} {r : TtRow}

/-- A SLOT or EXCHANGE window ends with what its contribution has come to, and takes the row as that leaves it. -/
theorem doRowWindowEnd_send (hr : rowAt m k = some r) (hk : rowKind r.w = 1 ∨ rowKind r.w = 3) :
    doRowWindowEnd k m = endOccurrence (sendEnd m k r) k ((rowAt (sendEnd m k r) k).getD r) true := by
  obtain hk | hk := hk <;> simp only [doRowWindowEnd, hr, hk]

theorem doRowWindowEnd_possession (hr : rowAt m k = some r) (hk : rowKind r.w = 5) : doRowWindowEnd k m = possEnd k r m := by
  simp only [doRowWindowEnd, hr, hk]

theorem doRowWindowEnd_plain (hr : rowAt m k = some r) (hk : rowKind r.w = 4 ∨ rowKind r.w = 6 ∨ rowKind r.w = 8 ∨ rowKind r.w = 9) :
    doRowWindowEnd k m = endOccurrence m k r true := by
  obtain hk | hk | hk | hk := hk <;> simp only [doRowWindowEnd, hr, hk]

theorem sendEnd_complete (m : Chip) (k : Nat) (h : r.void = true ∨ allSent r = true) : sendEnd m k r = bump m CON_WAGON_CTR (wagonsSent r) := by
  rw [sendEnd, if_pos (by simpa using h)]

/-- R98: what is unsent at the end makes the contribution void. -/
theorem sendEnd_unsent (m : Chip) (k : Nat) (hv : r.void = false) (hs : allSent r = false) : sendEnd m k r = bump (voidRow m k r) CON_WAGON_CTR (wagonsSent r) := by
  rw [sendEnd, if_neg (by simp [hv, hs])]

theorem recvClose_bad (hr : rowAt m k = some r) (hb : r.bad = true) : recvClose k m = endOccurrence m k r true := by
  simp only [recvClose, hr, hb, if_true]

/-- A window that is not deferred closes with its own part, its placements, its record and its ready word. -/
theorem recvClose_kept (hr : rowAt m k = some r) (hb : r.bad = false) (hd : (recvRecord m r).2 = false) :
    recvClose k m = endOccurrence (incWord (mioStore (r.moves.foldl placeRound (ownPart r (poisonParts r m))) (some (ownRowTag r)) (parDa r.par 5)
      (wordBytes (recvRecord m r).1)) (ownRowTag r) (parDa r.par 7)) k r true := by
  simp only [recvClose, hr, hb, hd, Bool.false_eq_true, if_false]

theorem doLateReadyOmit_ready (hr : rowAt m k = some r) (h : (readyNow m k r).1 = true) :
    doLateReadyOmit k m = modRow (bump (readyNow m k r).2 TT_OMIT_CTR 1) k (fun x => { x with counted := true }) := by
  simp only [doLateReadyOmit, hr, h, if_true]

end

/-- Settles O15: the kind of the row, and what has become of its contribution or window, choose its end. -/
theorem windowsCloseAtTheirEnd : Obligations.WindowsCloseAtTheirEnd := by
  intro s ha k r hr hst
  refine ⟨fun hend => ?_, fun hw hready => ?late, fun d hd hsend => ?wagon⟩
  case late =>
    have hdoes := does_of_runIf ha (exec_lateReadyOmit k s) (by simp [hr, hw])
    rwa [doLateReadyOmit_ready hr hready] at hdoes
  case wagon =>
    have hdoes := does_of_runIf ha (exec_despatchWagon k d s) (by simpa using hd)
    rwa [doDespatchWagon, if_pos hsend] at hdoes
  have ended (hk : rowKind r.w ∈ [1, 3, 4, 5, 6, 7, 8, 9]) : Does (.rowWindowEnd k) s (doRowWindowEnd k s.chip) :=
    does_of_runIf ha (exec_rowWindowEnd k s) (rowDue_of_rowAt hr hk hst hend)
  have closed (hk : rowKind r.w = 2) (hq : windowBusy s.chip k = false) : Does (.recvWindowClose k) s (recvClose k s.chip) :=
    does_of_runIf ha (exec_recvWindowClose k s) (by simp [rowDue_of_rowAt (kinds := [2]) hr (by simp [hk]) hst hend, hq])
  refine ⟨fun hk hsent => ?sent, fun hk hv hs => ?unsent, fun hk => ?plain, fun hk => ?possession, fun hk hq hb => ?bad, fun hk hq hb hd => ?kept⟩
  case sent =>
    have hdoes := ended (by obtain hk | hk := hk <;> simp [hk])
    rwa [doRowWindowEnd_send hr hk, sendEnd_complete _ _ hsent, rowAt_bump, hr] at hdoes
  case unsent =>
    have hdoes := ended (by obtain hk | hk := hk <;> simp [hk])
    rwa [doRowWindowEnd_send hr hk, sendEnd_unsent _ _ hv hs] at hdoes
  case plain =>
    have hdoes := ended (by obtain hk | hk | hk | hk := hk <;> simp [hk])
    rwa [doRowWindowEnd_plain hr hk] at hdoes
  case possession => exact doRowWindowEnd_possession hr hk ▸ ended (by simp [hk])
  case bad => exact recvClose_bad hr hb ▸ closed hk hq
  case kept => exact recvClose_kept hr hb hd ▸ closed hk hq

end Sys2Proof.Proofs
end

section
/-! SUPPORT. Line time: what entering a lock state changes, the clock inputs, and the epoch boundary. -/

namespace Sys2Proof.Proofs

open Sys2Proof.Machine Sys2Proof.Laws

/-! ### The lock state's register -/

/-- A field apart from STATE leaves the lock state. -/
theorem ltState_fset_apart (m : Chip) {f : Fld} (v : Nat) (h : f.off ≠ TT_LT_STAT_STATE.off ∨ f.lo ≤ f.hi ∧ TT_LT_STAT_STATE.hi < f.lo) :
    ltState (fset m f v) = ltState m := by
  by_cases ho : TT_LT_STAT_STATE.off = f.off
  · obtain h | ⟨hf, hlo⟩ := h
    · exact absurd ho.symm h
    · exact fget_fset_apart m f _ v hf ho (by decide) (.inl hlo)
  · exact fget_fset_ne m f _ v ho

theorem ltState_fset_state (m : Chip) {st : Nat} (h : st < 8) : ltState (fset m TT_LT_STAT_STATE st) = st := by
  rw [ltState, fget_fset m TT_LT_STAT_STATE st (by decide) (by decide)]
  exact Nat.mod_eq_of_lt h

theorem fon_lockLost_fset (m : Chip) : fon (fset m TT_LT_STAT_LOCK_LOST 1) TT_LT_STAT_LOCK_LOST = true := by
  rw [fon, fget_fset m TT_LT_STAT_LOCK_LOST 1 (by decide) (by decide)]
  decide

/-! ### What line time keeps for itself -/

/-- From a to b only line time's own state, its status and its control register change, and what is noted; LT goes on counting as it did. -/
structure LockMoves (a b : Chip) : Prop where
  rest : ∃ t l e, b = { a with csr := t, lt := l, err := e }
  count : b.lt.lt = a.lt.lt
  regs : ∀ off, off ≠ TT_LT_STAT_STATE.off → off ≠ TT_CTRL_ARM.off → csr b off = csr a off

namespace LockMoves

variable {a b c : Chip}

theorem refl (a : Chip) : LockMoves a a := ⟨⟨a.csr, a.lt, a.err, rfl⟩, rfl, fun _ _ _ => rfl⟩

theorem trans (h : LockMoves a b) (k : LockMoves b c) : LockMoves a c := by
  obtain ⟨t, l, e, rfl⟩ := h.rest
  obtain ⟨u, n, f, rfl⟩ := k.rest
  exact ⟨⟨u, n, f, rfl⟩, k.count.trans h.count, fun off hs hc => (k.regs off hs hc).trans (h.regs off hs hc)⟩

theorem ite {p : Prop} [Decidable p] (h : LockMoves a b) (k : LockMoves a c) : LockMoves a (if p then b else c) := by
  split <;> assumption

theorem fset (m : Chip) {f : Fld} (v : Nat) (h : f.off = TT_LT_STAT_STATE.off ∨ f.off = TT_CTRL_ARM.off) : LockMoves m (fset m f v) :=
  ⟨⟨_, m.lt, m.err, rfl⟩, rfl, fun _ hs hc => csr_setCsr_ne m _ fun ho => h.elim (fun hf => hs (ho.trans hf)) fun hf => hc (ho.trans hf)⟩

theorem lt (m : Chip) {l : LtState} (h : l.lt = m.lt.lt) : LockMoves m { m with lt := l } := ⟨⟨m.csr, l, m.err, rfl⟩, h, fun _ _ _ => rfl⟩

theorem notice (m : Chip) (code : Nat) (body : List Nat) : LockMoves m (notice m code body) := ⟨⟨m.csr, m.lt, _, rfl⟩, rfl, fun _ _ _ => rfl⟩

theorem mioClearArm (m : Chip) : LockMoves m (mioClearArm m) :=
  (lt m (l := { m.lt with armDue := m.lt.armDue || fon m TT_CTRL_ARM }) rfl).trans (fset _ _ (.inr rfl))

theorem rows (h : LockMoves a b) : b.rows = a.rows := by
  obtain ⟨t, l, e, rfl⟩ := h.rest
  rfl

theorem mb (h : LockMoves a b) : b.mb = a.mb := by
  obtain ⟨t, l, e, rfl⟩ := h.rest
  rfl

end LockMoves

/-! ### Entering a lock state -/

theorem ltEnter_same {m : Chip} {st : Nat} (h : ltState m = st) : ltEnter m st = m := if_pos h

/-- What leaving the present lock state for st notes: LOCK_LOST on an exit from SYSTEM other than to HOLDOVER, and ARM by R79. -/
def lockLeft (m : Chip) (st : Nat) : Chip :=
  let noted := if ltState m = 3 ∧ st ≠ 4 then fset m TT_LT_STAT_LOCK_LOST 1 else m
  if (ltState m = 3 ∧ st ≠ 4) ∨ (ltState m = 4 ∧ (st = 0 ∨ st = 1)) then mioClearArm noted else noted

/-- HOLDOVER counts its epochs from 0, and keeps the HOPS that it was entered with (R60, R61). -/
def heldReset (m : Chip) (st : Nat) : Chip := if st = 4 then { m with lt := { m.lt with held := 0, hopsBefore := fget m TT_LT_STAT_HOPS } } else m

/-- SYSTEM weighs its markers from 0 (R58). -/
def marksReset (m : Chip) (st : Nat) : Chip := if st = 3 then { m with lt := { m.lt with good := 0, bad := 0, extRef := false } } else m

/-- EPOCH keeps the epoch in which it was entered (R56). -/
def epochNoted (m : Chip) (st : Nat) : Chip := if st = 2 then { m with lt := { m.lt with epochAt := now m / 2 ^ 20 } } else m

/-- What line time counts anew on entering st. -/
def countsReset (m : Chip) (st : Nat) : Chip := epochNoted (marksReset (heldReset m st) st) st

theorem ltEnter_other {m : Chip} {st : Nat} (h : ltState m ≠ st) :
    ltEnter m st = notice (fset (countsReset (lockLeft m st) st) TT_LT_STAT_STATE st) 7 [csr (fset (countsReset (lockLeft m st) st) TT_LT_STAT_STATE st) TT_LT_STAT_STATE.off] :=
  if_neg h

theorem lockMoves_lockLeft (m : Chip) (st : Nat) : LockMoves m (lockLeft m st) := by
  have hnoted : LockMoves m (if ltState m = 3 ∧ st ≠ 4 then fset m TT_LT_STAT_LOCK_LOST 1 else m) := .ite (.fset m _ (.inl rfl)) (.refl m)
  exact .ite (hnoted.trans (.mioClearArm _)) hnoted

/-- Only line time's state changes, and LT goes on counting as it did. -/
def CountsMove (a b : Chip) : Prop := ∃ l : LtState, b = { a with lt := l } ∧ l.lt = a.lt.lt

theorem countsMove_countsReset (m : Chip) (st : Nat) : CountsMove m (countsReset m st) := by
  unfold countsReset epochNoted marksReset heldReset
  split <;> split <;> split <;> exact ⟨_, rfl, rfl⟩

theorem lockMoves_countsReset (m : Chip) (st : Nat) : LockMoves m (countsReset m st) := by
  obtain ⟨l, h, hl⟩ := countsMove_countsReset m st
  exact h ▸ .lt m hl

theorem csr_countsReset (m : Chip) (st off : Nat) : csr (countsReset m st) off = csr m off := by
  obtain ⟨l, h, -⟩ := countsMove_countsReset m st
  rw [h]
  rfl

theorem fon_mioClearArm (m : Chip) {f : Fld} (h : f.off ≠ TT_CTRL_ARM.off) : fon (mioClearArm m) f = fon m f := by
  rw [mioClearArm, fon, fget_fset_ne _ _ _ _ h]
  rfl

theorem fon_lockLost_lockLeft {m : Chip} {st : Nat} (h3 : ltState m = 3) (h4 : st ≠ 4) : fon (lockLeft m st) TT_LT_STAT_LOCK_LOST = true := by
  rw [lockLeft, if_pos (.inl ⟨h3, h4⟩), if_pos ⟨h3, h4⟩, fon_mioClearArm _ (by decide), fon_lockLost_fset]

/-- Entering a lock state is line time's own affair. -/
theorem lockMoves_ltEnter (m : Chip) (st : Nat) : LockMoves m (ltEnter m st) := by
  by_cases h : ltState m = st
  · rw [ltEnter_same h]
    exact .refl m
  · rw [ltEnter_other h]
    exact (((lockMoves_lockLeft m st).trans (lockMoves_countsReset _ st)).trans (.fset _ _ (.inl rfl))).trans (.notice _ _ _)

@[simp] theorem ltEnter_rows (m : Chip) (st : Nat) : (ltEnter m st).rows = m.rows := (lockMoves_ltEnter m st).rows

@[simp] theorem ltEnter_mb (m : Chip) (st : Nat) : (ltEnter m st).mb = m.mb := (lockMoves_ltEnter m st).mb

theorem ltState_ltEnter (m : Chip) {st : Nat} (h8 : st < 8) : ltState (ltEnter m st) = st := by
  by_cases h : ltState m = st
  · rw [ltEnter_same h, h]
  · rw [ltEnter_other h]
    exact ltState_fset_state _ h8

theorem fon_lockLost_ltEnter {m : Chip} {st : Nat} (h3 : ltState m = 3) (hs3 : st ≠ 3) (hs4 : st ≠ 4) : fon (ltEnter m st) TT_LT_STAT_LOCK_LOST = true := by
  rw [ltEnter_other (h3 ▸ hs3.symm)]
  change fon (fset _ TT_LT_STAT_STATE st) TT_LT_STAT_LOCK_LOST = true
  rw [fon, fget_fset_apart _ TT_LT_STAT_STATE TT_LT_STAT_LOCK_LOST _ (by decide) rfl (by decide) (by decide), fget, csr_countsReset, ← fget]
  exact fon_lockLost_lockLeft h3 hs4

theorem lockLeft_err (m : Chip) (st : Nat) : (lockLeft m st).err = m.err := by
  simp [lockLeft, mioClearArm, apply_ite Chip.err]

theorem countsReset_err (m : Chip) (st : Nat) : (countsReset m st).err = m.err := by
  obtain ⟨l, h, -⟩ := countsMove_countsReset m st
  rw [h]

/-- Every change of the lock state adds the LT_STATE notice. -/
theorem due_ltEnter {m : Chip} {st : Nat} (h : ltState m ≠ st) : ∃ b, (ltEnter m st).err.due = m.err.due ++ [(7, b)] := by
  have herr := (countsReset_err (lockLeft m st) st).trans (lockLeft_err m st)
  rw [ltEnter_other h, ← herr]
  exact ⟨_, rfl⟩

/-! ### The clock inputs -/

theorem doLtrefLock_enters {m : Chip} (h : ltState m = 0) (hw : m.lt.wanted = true) : doLtrefLock m = ltEnter (fset m TT_LT_STAT_LTREF_OK 1) 1 :=
  if_pos ⟨(ltState_fset_apart m 1 (.inr (by decide))).trans h, hw⟩

theorem doLtrefLock_stays {m : Chip} (h : ltState m ≠ 0 ∨ m.lt.wanted = false) : doLtrefLock m = fset m TT_LT_STAT_LTREF_OK 1 := by
  refine if_neg fun ⟨h0, hw⟩ => ?_
  rw [ltState_fset_apart m 1 (.inr (by decide))] at h0
  obtain h | h := h
  · exact h h0
  · exact Bool.false_ne_true (h.symm.trans hw)

theorem doLtrefLoss_enters {m : Chip} {st to_ : Nat} (h : ltState m = st) (hto : st = 3 ∧ to_ = 4 ∨ (st = 1 ∨ st = 2) ∧ to_ = 0) :
    doLtrefLoss m = ltEnter (fset { m with lt := { m.lt with extRef := false } } TT_LT_STAT_LTREF_OK 0) to_ := by
  have hst : ltState (fset { m with lt := { m.lt with extRef := false } } TT_LT_STAT_LTREF_OK 0) = st := (ltState_fset_apart _ 0 (.inr (by decide))).trans h
  rw [doLtrefLoss]
  obtain ⟨rfl, rfl⟩ | ⟨rfl | rfl, rfl⟩ := hto <;> simp only [hst]

theorem doLtepochLoss_eq (m : Chip) :
    doLtepochLoss m = if ltState m = 2 then ltEnter (fset { m with lt := { m.lt with extRef := false, lastPulse := none } } TT_LT_STAT_LTEPOCH_OK 0) 1
      else fset { m with lt := { m.lt with extRef := false, lastPulse := none } } TT_LT_STAT_LTEPOCH_OK 0 := by
  have hst : ltState (fset { m with lt := { m.lt with extRef := false, lastPulse := none } } TT_LT_STAT_LTEPOCH_OK 0) = ltState m :=
    ltState_fset_apart _ 0 (.inr (by decide))
  simp only [doLtepochLoss, hst]

theorem exec_holdoverExpire (s : State) : exec .holdoverExpire s = runIf s holdoverOver doHoldoverExpire := rfl

/-- Settles O10: entering a state is read off its parts, and each clock input enters the state that the present one names. -/
theorem lockStateFollowsClockInputs : Obligations.LockStateFollowsClockInputs := by
  refine ⟨fun m st h8 => ?enter, fun s ha => ?inputs⟩
  case enter =>
    exact ⟨ltEnter_same, ltState_ltEnter m h8, fon_lockLost_ltEnter, due_ltEnter, (lockMoves_ltEnter m st).count, ltEnter_rows m st,
      (lockMoves_ltEnter m st).regs⟩
  case inputs =>
    refine ⟨fun h hw => ?_, fun h => ?_, fun st to_ h hto => ?_, fun h => ?_, fun h => ?_, fun h hlim hext => ?_⟩
    · exact does_of_run ha rfl (doLtrefLock_enters h hw)
    · exact does_of_run ha rfl (doLtrefLock_stays h)
    · exact does_of_run ha rfl (doLtrefLoss_enters h hto)
    · exact does_of_run ha rfl ((doLtepochLoss_eq s.chip).trans (if_pos h))
    · exact does_of_run ha rfl ((doLtepochLoss_eq s.chip).trans (if_neg h))
    · change Does .holdoverExpire s (doHoldoverExpire s.chip)
      exact does_of_runIf ha (exec_holdoverExpire s) (by simp [holdoverOver, h, hlim, hext])

/-! ### The epoch boundary: the timetable stays -/

theorem kept_putResp (m : Chip) (i w : Nat) (ws : List Nat) : Kept m (putResp m i w ws) := by
  unfold putResp
  exact Kept.foldl_snd _ (fun _ _ => kept_setCsr _ _ _) ws (w, m)

/-- A response moves nothing of the timetable. -/
@[simp] theorem respondD_rows (m : Chip) (i st d : Nat) (pay : List Nat) : (respondD m i st d pay).rows = m.rows := by
  have hput := (kept_putResp m i 0 ([st * 2 ^ 16 + pay.length, reqWord m i 1, d] ++ pay)).rows
  unfold respondD
  dsimp only
  rw [(kept_msix _ _).rows]
  split <;> simpa [setMb] using hput

@[simp] theorem respond_rows (m : Chip) (i st : Nat) (pay : List Nat) : (respond m i st pay).rows = m.rows := respondD_rows m i st 0 pay

@[simp] theorem lockDone_rows (m : Chip) : (lockDone m).rows = m.rows := by
  unfold lockDone
  split
  · exact respond_rows _ _ _ _
  · rfl

@[simp] theorem ltAgree_rows (m : Chip) : (ltAgree m).rows = m.rows := by
  unfold ltAgree
  dsimp only
  split <;> simp

@[simp] theorem ltRoot_rows (m : Chip) : (ltRoot m).rows = m.rows := by
  unfold ltRoot
  split
  · simp
  · split <;> simp

@[simp] theorem ltWeigh_rows (m : Chip) : (ltWeigh m).rows = m.rows := by
  unfold ltWeigh
  dsimp only
  split
  case isTrue marked =>
    split <;> simp [apply_ite Chip.rows]
  case isFalse unmarked =>
    split
    · rfl
    · split <;> simp [apply_ite Chip.rows]

/-- Control flits queued on ports change the ports alone. -/
theorem foldl_sendCtl_ports (kind : Nat) (l : List Nat) (m : Chip) : ∃ ps, l.foldl (fun c p => sendCtl c p kind []) m = { m with ports := ps } := by
  induction l generalizing m with
  | nil => exact ⟨m.ports, rfl⟩
  | cons p l ih =>
    obtain ⟨ps, h⟩ := ih (sendCtl m p kind [])
    exact ⟨ps, h⟩

theorem sendMarks_ports (m : Chip) : ∃ ps, sendMarks m = { m with ports := ps } := by
  unfold sendMarks
  split
  · split
    · exact ⟨_, rfl⟩
    · exact ⟨m.ports, rfl⟩
  · exact foldl_sendCtl_ports 1 _ m

/-- What line time does of a boundary before its markers are sent. -/
def ltActed (m : Chip) : Chip :=
  let held := if ltState m = 4 then { m with lt := { m.lt with held := m.lt.held + 1 } } else m
  let acted := if fon held TT_CTRL_ROOT then ltRoot held else ltWeigh held
  { acted with lt := { acted.lt with marked := false, heard := [], lock := acted.lt.lock.map (fun q => { q with left := q.left - 1 }) } }

theorem ltEpoch_ports (m : Chip) : ∃ ps, ltEpoch m = { ltActed m with ports := ps } := by
  change ∃ ps, (if fon (ltActed m) TT_CTRL_ROOT then ltActed m else sendMarks (ltActed m)) = _
  split
  · exact ⟨_, rfl⟩
  · exact sendMarks_ports _

theorem ltActed_rows (m : Chip) : (ltActed m).rows = m.rows := by
  simp [ltActed, apply_ite Chip.rows]

/-- Line time's part of a boundary leaves the timetable, and has taken the epoch's markers. -/
theorem ltEpoch_done (m : Chip) : (ltEpoch m).rows = m.rows ∧ (ltEpoch m).lt.marked = false ∧ (ltEpoch m).lt.heard = [] := by
  obtain ⟨ps, h⟩ := ltEpoch_ports m
  rw [h]
  exact ⟨ltActed_rows m, rfl, rfl⟩

/-! ### The epoch boundary -/

/-- The number of the epoch that has begun is noted (R65). -/
def epochTaken (m : Chip) : Chip := { m with lt := { m.lt with hkEpoch := m.lt.lt / 2 ^ 20 } }

theorem exec_epochBoundary (s : State) : exec .epochBoundary s = runIf s epochDue doEpochBoundary := rfl

theorem exec_ttLockTimeout (s : State) : exec .ttLockTimeout s = runIf s lockLate doTtLockTimeout := rfl

theorem doEpochBoundary_early {m : Chip} (h : m.start.phase < 4) : doEpochBoundary m = epochTaken (ltEpoch (epochTaken m)) := if_pos h

theorem doEpochBoundary_started {m : Chip} (h : 4 ≤ m.start.phase) :
    doEpochBoundary m = powerEpoch (twinEpoch (if (epochTaken (ltEpoch (epochTaken (auditAll (newEpoch m))))).start.phase = 5
      then postDefaults (armSet (epochTaken (ltEpoch (epochTaken (auditAll (newEpoch m)))))) else epochTaken (ltEpoch (epochTaken (auditAll (newEpoch m)))))) :=
  if_neg (Nat.not_lt.mpr h)

theorem not_epochDue_of_taken {m : Chip} (h : m.lt.hkEpoch = m.lt.lt / 2 ^ 20) : epochDue m = false := by
  simp [epochDue, now, h]

theorem doTtLockTimeout_of_lock {m : Chip} {q : LockReq} (h : m.lt.lock = some q) :
    doTtLockTimeout m = respond { m with lt := { m.lt with lock := none } } q.m 0x0203 [csr m TT_LT_STAT_STATE.off] := by
  simp only [doTtLockTimeout, h]

/-- Settles O12: the phase of the start chooses what the boundary does, and the end of the step keeps line time and the timetable. -/
theorem epochBoundaryTaken : Obligations.EpochBoundaryTaken := by
  intro s ha
  refine ⟨fun hdue hphase => ?early, fun hdue hphase => ?started, fun q hq hleft => ?timeout⟩
  case early =>
    have hdoes := does_of_runIf ha (exec_epochBoundary s) hdue
    rw [doEpochBoundary_early hphase] at hdoes
    obtain ⟨hrows, hmarked, hheard⟩ := ltEpoch_done (epochTaken s.chip)
    refine ⟨_, hdoes, ?_⟩
    have htaken : (settle (epochTaken (ltEpoch (epochTaken s.chip)))).lt.hkEpoch = (settle (epochTaken (ltEpoch (epochTaken s.chip)))).lt.lt / 2 ^ 20 := by
      rw [settle_lt]
      rfl
    refine ⟨htaken, not_epochDue_of_taken htaken, ?_⟩
    simp only [settle_rows, settle_lt]
    exact ⟨hrows, hmarked, hheard⟩
  case started =>
    have hdoes := does_of_runIf ha (exec_epochBoundary s) hdue
    rwa [doEpochBoundary_started hphase] at hdoes
  case timeout =>
    have hdoes := does_of_runIf ha (exec_ttLockTimeout s) (by simp [lockLate, hq, hleft])
    rwa [doTtLockTimeout_of_lock hq] at hdoes

end Sys2Proof.Proofs
end

section
/-! SUPPORT. The commands of the timetable: what each answers when its checks pass. -/

namespace Sys2Proof.Proofs

open Sys2Proof.Machine Sys2Proof.Laws

/-! ### Commands of a mailbox -/

/-- A command that is ready in its mailbox does what its effect makes of its payload. -/
theorem does_of_runCmd {c : Instr} {s : State} {i code : Nat} {f : List Nat → Chip → Chip} (ha : acts s = true) (he : exec c s = runCmd s i code f)
    (hc : cmdReady s.chip i code = true) : Does c s (f (cmdPay s.chip i) s.chip) := by
  rw [Does, he, runCmd_ready ha hc]

theorem cmdReady_iff {m : Chip} {i code : Nat} : cmdReady m i code = true ↔ ∃ r, mbRun m i = some r ∧ r.code = code ∧ r.phase = 1 := by
  simp [cmdReady, Option.any_eq_true]

theorem mbRun_of_mb {a b : Chip} (h : b.mb = a.mb) (i : Nat) : mbRun b i = mbRun a i := by
  rw [mbRun, h, mbRun]

theorem cmdReady_of_mb {a b : Chip} (h : b.mb = a.mb) (i code : Nat) : cmdReady b i code = cmdReady a i code := by
  rw [cmdReady, mbRun_of_mb h, cmdReady]

theorem cmdGoing_of_mb {a b : Chip} (h : b.mb = a.mb) (i code : Nat) : cmdGoing b i code = cmdGoing a i code := by
  rw [cmdGoing, mbRun_of_mb h, cmdGoing]

theorem mbRun_setMb {m : Chip} {i : Nat} (h : i < m.mb.length) (r : Option MbRun) : mbRun (setMb m i r) i = r := by
  simp [mbRun, setMb, setAt, h]

theorem mbRun_lt {m : Chip} {i : Nat} {r : MbRun} (h : mbRun m i = some r) : i < m.mb.length := by
  by_contra hn
  simp [mbRun, List.getElem?_eq_none (Nat.not_lt.mp hn)] at h

theorem mbRun_modMb {m : Chip} {i : Nat} {r : MbRun} (f : MbRun → MbRun) (h : mbRun m i = some r) : mbRun (modMb m i f) i = some (f r) := by
  rw [modMb, mbRun_setMb (mbRun_lt h), h, Option.map_some]

/-- A command that goes on holds its mailbox. -/
theorem cmdGoing_cmdOn {m : Chip} {i code : Nat} (aux : List Nat) (h : cmdReady m i code = true) : cmdGoing (cmdOn m i aux) i code = true := by
  obtain ⟨r, hr, hcode, -⟩ := cmdReady_iff.mp h
  simp [cmdGoing, cmdOn, mbRun_modMb _ hr, hcode]

/-! ### TT.LOCK -/

/-- The lock state that TT.LOCK begins from: from EPOCH on it falls to what the clock inputs bear, and with LTREF UNLOCKED ends (R64). -/
def lockBegun (m : Chip) (isRoot : Bool) : Chip :=
  let m1 := fset m TT_CTRL_ROOT (b2n isRoot)
  let next := if !fon m1 TT_LT_STAT_LTREF_OK then 0 else if fon m1 TT_LT_STAT_LTEPOCH_OK then 2 else 1
  if ltState m1 ≥ 2 then ltEnter m1 next else if ltState m1 = 0 ∧ fon m1 TT_LT_STAT_LTREF_OK then ltEnter m1 1 else m1

theorem lockBegun_mb (m : Chip) (isRoot : Bool) : (lockBegun m isRoot).mb = m.mb := by
  simp [lockBegun, apply_ite Chip.mb]

/-- A lock of 64 epochs begins under the root of the payload. -/
def lockRequested (i : Nat) (p : List Nat) (m : Chip) : Chip :=
  { m with
    twin := { m.twin with lockWords := p.take 3 },
    lt := { m.lt with
      lock := some ⟨i, nth p 0, nth p 1 + bitsN (nth p 2) 11 0 * 2 ^ 32, 64⟩, wanted := true, rootEpoch := nth p 1 + bitsN (nth p 2) 11 0 * 2 ^ 32,
      parent := none, fresh := true, good := 0, bad := 0 } }

theorem doTtLock_begins {i : Nat} {p : List Nat} {m : Chip} (harm : fon m TT_CTRL_ARM = false)
    (hroot : moduleNum m ≠ some (nth p 0) ∨ now m / 2 ^ 20 + 64 ≤ nth p 1 + bitsN (nth p 2) 11 0 * 2 ^ 32) :
    doTtLock i p m = cmdOn (lockRequested i p (lockBegun m (moduleNum m == some (nth p 0)))) i [] := by
  have hlate : ¬ (moduleNum m == some (nth p 0) && decide (nth p 1 + bitsN (nth p 2) 11 0 * 2 ^ 32 < now m / 2 ^ 20 + 64)) = true := by
    obtain h | h := hroot
    · simp [h]
    · simp only [decide_eq_false (Nat.not_lt.mpr h), Bool.and_false, Bool.false_eq_true, not_false_iff]
  exact (if_neg (by simp [harm])).trans (if_neg hlate)

theorem exec_ttLock (i : Nat) (s : State) : exec (.ttLock i) s = runCmd s i 0x0201 (doTtLock i) := rfl

/-! ### TT.SCHEDULE and TT.POST -/

theorem firstIdx_none_of_any {α : Type} {l : List α} {p : α → Bool} (h : l.any p = false) : firstIdx l.length (fun k => (l[k]?).any p) = none := by
  rw [firstIdx, List.find?_eq_none]
  intro k hk
  rw [List.mem_range] at hk
  have hpk := List.any_eq_false.mp h l[k] (List.getElem_mem hk)
  simpa [hk] using hpk

section

variable {i : Nat} {p : List Nat} {m : Chip}

theorem doTtSchedule_refused {e : Nat × Nat} (hf : schFieldBad p = false)
    (hl : ((buildAll p (schSteps m p)).1.rows.any (fun r => r.len == 0 || decide (65535 < r.len) || rowTag r.w == 0)) = false)
    (hs : shapeBad m p (schSteps m p) (buildAll p (schSteps m p)).1 = false)
    (he : postChecks m ((buildAll p (schSteps m p)).1.rows.map (fun r => (r.w, r.par))) = some e) :
    doTtSchedule i p m = respondD m i e.1 e.2 [] := by
  simp only [doTtSchedule, hf, firstIdx_none_of_any hl, hs, he, Bool.false_eq_true, if_false]

theorem doTtSchedule_posts (hf : schFieldBad p = false)
    (hl : ((buildAll p (schSteps m p)).1.rows.any (fun r => r.len == 0 || decide (65535 < r.len) || rowTag r.w == 0)) = false)
    (hs : shapeBad m p (schSteps m p) (buildAll p (schSteps m p)).1 = false)
    (he : postChecks m ((buildAll p (schSteps m p)).1.rows.map (fun r => (r.w, r.par))) = none) :
    doTtSchedule i p m = respond ((buildAll p (schSteps m p)).1.rows.foldl (fun c r => addRow c r.row) (writeWork m p (schSteps m p) (buildAll p (schSteps m p)).1)) i 0
      ([(buildAll p (schSteps m p)).1.rows.length, (schTag p + (buildAll p (schSteps m p)).1.rows.length - 1) * 2 ^ 16 + schTag p] ++
        lohi ((buildAll p (schSteps m p)).2 * 64) ++ [workBytes (schSteps m p) (buildAll p (schSteps m p)).1]) := by
  simp only [doTtSchedule, hf, firstIdx_none_of_any hl, hs, he, Bool.false_eq_true, if_false]

theorem doTtPost_refused {e : Nat × Nat} (he : postChecks (readParams m (postRows p)).2 (readParams m (postRows p)).1 = some e) :
    doTtPost i p m = respondD (readParams m (postRows p)).2 i e.1 e.2 [] := by
  simp only [doTtPost, he]

theorem doTtPost_posts (he : postChecks (readParams m (postRows p)).2 (readParams m (postRows p)).1 = none) :
    doTtPost i p m = respond ((readParams m (postRows p)).1.foldl (fun c q => addRow c (newRow q.1 q.2 false)) (readParams m (postRows p)).2) i 0 [] := by
  simp only [doTtPost, he]

end

theorem exec_ttSchedule (i : Nat) (s : State) : exec (.ttSchedule i) s = runCmd s i 0x0203 (doTtSchedule i) := rfl

theorem exec_ttPost (i : Nat) (s : State) : exec (.ttPost i) s = runCmd s i 0x0204 (doTtPost i) := rfl

/-! ### TT.NOW, TT.CANCEL, TT.LIST and TT.ARM -/

theorem doTtCancel_found {i k : Nat} {p : List Nat} {m : Chip} {r : TtRow} (hr : (softRows m).find? (fun e => rowTag e.2.w == nth p 0) = some (k, r))
    (hspill : ∀ e ∈ rowsOf m, rowSpill e.2.w ≠ nth p 0) :
    doTtCancel i p m = respond (if r.st == .active then setRow m k (some { r with cancelled := true }) else retire m k r) i 0 [] := by
  have hfree : (rowsOf m).any (fun e => rowSpill e.2.w == nth p 0) = false := by simpa using hspill
  simp only [doTtCancel, hr, hfree, Bool.false_eq_true, if_false]

theorem doTtArm_allowed {i : Nat} {p : List Nat} {m : Chip} (h : nth p 0 ≠ 1 ∨ (ltLocked m = true ∧ fget m TWIN_STAT_STATE ≠ 6 ∧ fget m TWIN_STAT_STATE ≠ 7)) :
    doTtArm i p m = respond (fset { m with lt := { m.lt with armDue := false } } TT_CTRL_ARM (nth p 0)) i 0 [fget m TT_CTRL_ARM] := by
  refine (if_neg ?_).trans (if_neg ?_)
  · rintro ⟨h1, hunlocked⟩
    obtain h | ⟨hlocked, -⟩ := h
    · exact h h1
    · exact hunlocked hlocked
  · rintro ⟨h1, h67⟩
    obtain h | ⟨-, h6, h7⟩ := h
    · exact h h1
    · exact h67.elim h6 h7

theorem exec_ttNow (i : Nat) (s : State) : exec (.ttNow i) s = runCmd s i 0x0202 (doTtNow i) := rfl

theorem exec_ttCancel (i : Nat) (s : State) : exec (.ttCancel i) s = runCmd s i 0x0205 (doTtCancel i) := rfl

theorem exec_ttList (i : Nat) (s : State) : exec (.ttList i) s = runCmd s i 0x0206 (doTtList i) := rfl

theorem exec_ttArm (i : Nat) (s : State) : exec (.ttArm i) s = runCmd s i 0x0207 (doTtArm i) := rfl

/-- Settles O18: each command runs its effect on its payload, and the conditions of each clause pass the effect's checks or name the one that fails. -/
theorem timetableCommands : Obligations.TimetableCommands := by
  intro s ha i
  refine ⟨fun hc harm hroot => ?lock, fun hc => (does_of_runCmd ha (exec_ttNow i s) hc :), fun hc hf hl hs => ?schedule, fun hc => ?post,
    fun hc k r hr hspill => ?cancel, fun hc => (does_of_runCmd ha (exec_ttList i s) hc :), fun hc h => ?arm⟩
  case lock =>
    have hdoes := does_of_runCmd ha (exec_ttLock i s) hc
    rw [doTtLock_begins harm hroot] at hdoes
    have hready : cmdReady (lockRequested i (cmdPay s.chip i) (lockBegun s.chip (moduleNum s.chip == some (nth (cmdPay s.chip i) 0)))) i 0x0201 = true :=
      (cmdReady_of_mb (lockBegun_mb _ _) i 0x0201).trans hc
    refine ⟨_, hdoes, ?_⟩
    simp only [settle_lt, cmdGoing_of_mb (settle_mb _)]
    exact ⟨rfl, rfl, rfl, cmdGoing_cmdOn [] hready⟩
  case schedule =>
    have hdoes := does_of_runCmd ha (exec_ttSchedule i s) hc
    refine ⟨fun e he => ?_, fun he => ?_⟩
    · rwa [doTtSchedule_refused hf hl hs he] at hdoes
    · rwa [doTtSchedule_posts hf hl hs he] at hdoes
  case post =>
    have hdoes := does_of_runCmd ha (exec_ttPost i s) hc
    refine ⟨fun e he => ?_, fun he => ?_⟩
    · rwa [doTtPost_refused he] at hdoes
    · rwa [doTtPost_posts he] at hdoes
  case cancel =>
    have hdoes := does_of_runCmd ha (exec_ttCancel i s) hc
    rw [doTtCancel_found hr hspill] at hdoes
    refine ⟨fun hst => ?_, fun hst => ?_⟩
    · rwa [if_pos (by simp [hst])] at hdoes
    · rwa [if_neg (by simp [hst])] at hdoes
  case arm =>
    have hdoes := does_of_runCmd ha (exec_ttArm i s) hc
    rwa [doTtArm_allowed h] at hdoes

end Sys2Proof.Proofs
end

section
/-! SUPPORT. Control flow of the cores: what an instruction that issues does, and where each control instruction leaves its group. -/

namespace Sys2Proof.Proofs

open Sys2Proof.Machine Sys2Proof.Laws

/-! ### Issue -/

/-- An instruction that issues does what its effect makes of its word, its group and its block. -/
theorem does_of_issueOp {i : Instr} {s : State} {c slot : Nat} {word : BitVec 64} {g : Grp} {b : Blk} {ops : List Nat} {f : Nat → Grp → Blk → Chip → Chip}
    (h : Issues s c slot word g b) (he : exec i s = issueOp s c slot word ops f) (ho : iOp word.toNat ∈ ops) : Does i s (f word.toNat g b s.chip) := by
  rw [Does, he, issueOp_issues h ho]

/-! ### Registers -/

theorem rget_lt (g : Grp) (f t : Nat) : rget g f t < 2 ^ 32 := Nat.mod_lt _ (by decide)

theorem rget64_lt (g : Grp) (f t : Nat) : rget64 g f t < 2 ^ 64 := by
  have hlo := rget_lt g f t
  have hhi := rget_lt g (f + 1) t
  unfold rget64
  omega

theorem reg64_toNat (g : Grp) (f t : Nat) : (reg64 g f t).toNat = rget64 g f t := by
  rw [reg64, BitVec.toNat_ofNat, Nat.mod_eq_of_lt (rget64_lt g f t)]

/-! ### Branches, TRAP and BAR by what the acting threads are -/

section

variable {c slot w : Nat} {g : Grp} {b : Blk} {m : Chip}

theorem doBra_uniform (ht : acting w g = g.active) : doBra c slot w g b m = setGrp m c slot (some (settleGrp { g with pc := pcPlus g.pc (iTarget w) })) := by
  simp [doBra, braFull, braGrp, ht]

theorem doBra_untaken (ht : acting w g ≠ g.active) (h0 : acting w g = 0) : doBra c slot w g b m = setGrp m c slot (some (advance g)) := by
  have hlive : ¬ 0 = g.active := h0 ▸ ht
  simp [doBra, braFull, braGrp, h0, hlive]

/-- R113: the taken threads and the reconvergence point are pushed, and the threads that fall through go on. -/
theorem doBra_divergent (ht : acting w g ≠ g.active) (h0 : acting w g ≠ 0) (hroom : g.stack.length ≤ 30) :
    doBra c slot w g b m = setGrp m c slot (some (advance { g with
      active := g.active - acting w g, stack := (pcPlus g.pc (iTarget w), acting w g, false) :: (pcPlus g.pc (iReconv w), g.active, true) :: g.stack })) := by
  simp [doBra, braFull, braGrp, ht, h0, Nat.not_lt.mpr hroom]

theorem doBra_overflows (ht : acting w g ≠ g.active) (h0 : acting w g ≠ 0) (hfull : 30 < g.stack.length) :
    doBra c slot w g b m = fault m c slot 0x04 (lowest g.active) 0 0 := by
  simp [doBra, braFull, ht, h0, hfull]

theorem doTrap_taken (h0 : acting w g ≠ 0) : doTrap c slot w g b m = fault m c slot 0x0B (lowest (acting w g)) 0 (iImm w) := if_neg h0

theorem doTrap_untaken (h0 : acting w g = 0) : doTrap c slot w g b m = setGrp m c slot (some (advance g)) := if_pos h0

theorem barGrp_idle (h0 : acting w g = 0) : barGrp w g = advance g := if_pos h0

theorem barGrp_parks (h0 : acting w g ≠ 0) :
    barGrp w g = advance { g with active := g.active - acting w g, parked := g.parked ++ [(nextPc g, acting w g, iAux w % 4)] } := if_neg h0

theorem doBar_idle (h0 : acting w g = 0) : doBar c slot w g b m = barCheck (setGrp m c slot (some (advance g))) c g.blk := by
  rw [doBar, if_pos (.inl h0), barGrp_idle h0]

/-- The watchdog of barrier i runs when not every watchdog is another barrier's. -/
theorem any_wd_eq (b : Blk) (i : Nat) : b.wd.any (fun x => x.1 == i) = !b.wd.all (fun x => x.1 != i) := List.any_eq_not_all_not ..

/-- R122: the first to arrive starts the barrier's watchdog. -/
theorem doBar_first (h0 : acting w g ≠ 0) (hwd : b.wd.all (fun x => x.1 != iAux w % 4) = true) :
    doBar c slot w g b m = barCheck (modBlk (setGrp m c slot (some (advance { g with
      active := g.active - acting w g, parked := g.parked ++ [(nextPc g, acting w g, iAux w % 4)] }))) c g.blk
      (fun k => { k with wd := k.wd ++ [(iAux w % 4, m.ns, barLimit m b, g.pc, g.idx, lowest (acting w g))] })) c g.blk := by
  have hfirst : ¬ (acting w g = 0 ∨ b.wd.any (fun x => x.1 == iAux w % 4) = true) := by
    simp only [h0, any_wd_eq, hwd, Bool.not_true, Bool.false_eq_true, or_self, not_false_iff]
  rw [doBar, if_neg hfirst, barGrp_parks h0]

theorem doBar_later (h0 : acting w g ≠ 0) (hwd : b.wd.all (fun x => x.1 != iAux w % 4) = false) :
    doBar c slot w g b m = barCheck (setGrp m c slot (some (advance { g with
      active := g.active - acting w g, parked := g.parked ++ [(nextPc g, acting w g, iAux w % 4)] }))) c g.blk := by
  rw [doBar, if_pos (.inr (by rw [any_wd_eq, hwd, Bool.not_false])), barGrp_parks h0]

end

/-! ### The commands -/

section

variable (c slot : Nat) (word : BitVec 64) (s : State)

theorem exec_nop : exec (.nop c slot word) s = issueAlu s c slot word [0x00] (fun _ g => g) := rfl
theorem exec_bra : exec (.bra c slot word) s = issueOp s c slot word [0x01] (doBra c slot) := rfl
theorem exec_call : exec (.call c slot word) s = issueOp s c slot word [0x02] (doCall c slot) := rfl
theorem exec_jmp : exec (.jmp c slot word) s = issueOp s c slot word [0x03] (doJmp c slot) := rfl
theorem exec_exit : exec (.exit c slot word) s = issueOp s c slot word [0x04] (doExit c slot) := rfl
theorem exec_bar : exec (.bar c slot word) s = issueOp s c slot word [0x05] (doBar c slot) := rfl
theorem exec_trap : exec (.trap c slot word) s = issueOp s c slot word [0x06] (doTrap c slot) := rfl

end

/-- Settles O22: each instruction issues, and which threads act, the room of the reconvergence stack and the barrier's watchdog choose what it does. -/
theorem controlFlowInstructions : Obligations.ControlFlowInstructions := by
  intro s c slot word g b h
  dsimp only
  have bra (ho : iOp word.toNat = 0x01) := does_of_issueOp h (exec_bra c slot word s) (by simp [ho])
  have bar (ho : iOp word.toNat = 0x05) := does_of_issueOp h (exec_bar c slot word s) (by simp [ho])
  have trap (ho : iOp word.toNat = 0x06) := does_of_issueOp h (exec_trap c slot word s) (by simp [ho])
  refine ⟨fun ho => ?nop, fun ho ht => ?uniform, fun ho ht h0 => ?untaken, fun ho ht h0 hroom => ?divergent, fun ho ht h0 hfull => ?overflows,
    fun ho => ?call, fun ho => ?jmp, fun ho => ?exit, fun ho h0 => ?barIdle, fun ho h0 hwd => ?barFirst, fun ho h0 hwd => ?barLater,
    fun ho h0 => ?trapTaken, fun ho h0 => ?trapUntaken⟩
  case nop => exact (does_of_issueOp h (exec_nop c slot word s) (by simp [ho]) :)
  case uniform => exact doBra_uniform ht ▸ bra ho
  case untaken => exact doBra_untaken ht h0 ▸ bra ho
  case divergent => exact doBra_divergent ht h0 hroom ▸ bra ho
  case overflows => exact doBra_overflows ht h0 hfull ▸ bra ho
  case call => exact (does_of_issueOp h (exec_call c slot word s) (by simp [ho]) :)
  case jmp =>
    rw [reg64_toNat]
    exact (does_of_issueOp h (exec_jmp c slot word s) (by simp [ho]) :)
  case exit => exact (does_of_issueOp h (exec_exit c slot word s) (by simp [ho]) :)
  case barIdle => exact doBar_idle h0 ▸ bar ho
  case barFirst => exact doBar_first h0 hwd ▸ bar ho
  case barLater => exact doBar_later h0 hwd ▸ bar ho
  case trapTaken => exact doTrap_taken h0 ▸ trap ho
  case trapUntaken => exact doTrap_untaken h0 ▸ trap ho

end Sys2Proof.Proofs
end

section
/-! SUPPORT. Memory instructions of the cores: what each does when its addresses pass the checks, or when one fails. -/

namespace Sys2Proof.Proofs

open Sys2Proof.Machine Sys2Proof.Laws

/-! ### Address checks -/

/-- The acting threads with their addresses. -/
def actingAddrs (w : Nat) (g : Grp) : List (Nat × Nat) := (lanes (acting w g)).map (fun t => (t, effAddr w g t))

theorem map_fst_actingAddrs (w : Nat) (g : Grp) : (actingAddrs w g).map (·.1) = lanes (acting w g) := by
  simp [actingAddrs, Function.comp_def]

/-- The fault code of a thread's address in a load or store. -/
def accessCode (m : Chip) (w : Nat) (b : Blk) (a : Nat) : Option Nat := addrCode m (iForm w) a (2 ^ iSize w) (b.units.length * 512)

/-- No address fails its check, so no fault is raised. -/
theorem firstFault_of_good {ls : List (Nat × Nat)} {code : Nat → Option Nat} (h : ∀ l ∈ ls, code l.2 = none) : firstFault (laneFaults ls code) = none := by
  have hnil : laneFaults ls code = [] := List.filterMap_eq_nil_iff.mpr fun l hl => by rw [h l hl, Option.map_none]
  rw [hnil]
  rfl

/-! ### Loads, stores and UWAIT by what their addresses are -/

section

variable {c slot w : Nat} {g : Grp} {b : Blk} {m : Chip}

theorem doLd_faults {f : Nat × Nat × Nat} (h : firstFault (laneFaults (actingAddrs w g) (accessCode m w b)) = some f) :
    doLd c slot w g b m = fault m c slot f.1 f.2.1 f.2.2 0 := by
  unfold actingAddrs accessCode at h
  simp only [doLd, accBytes, h]

theorem doSt_faults {f : Nat × Nat × Nat} (h : firstFault (laneFaults (actingAddrs w g) (accessCode m w b)) = some f) :
    doSt c slot w g b m = fault m c slot f.1 f.2.1 f.2.2 0 := by
  unfold actingAddrs accessCode at h
  simp only [doSt, accBytes, h]

theorem doLd_good (h : ∀ l ∈ actingAddrs w g, accessCode m w b l.2 = none) :
    doLd c slot w g b m = if iForm w = 2 then scratchLoad c slot w g b (actingAddrs w g) m
      else loadGo c slot w g b ((actingAddrs w g).map (fun l => (l.1, lineKey m (iForm w) l.2 * 128 + l.2 % 128))) m := by
  have hgood := firstFault_of_good h
  unfold actingAddrs accessCode at hgood
  simp only [doLd, accBytes, hgood, actingAddrs]

theorem doSt_good (h : ∀ l ∈ actingAddrs w g, accessCode m w b l.2 = none) :
    doSt c slot w g b m = if iForm w = 2 then scratchGo c slot b ((actingAddrs w g).flatMap (fun l => storeData w g l.1 l.2)) m
      else storeGo c slot (iForm w) g (actingAddrs w g) ((actingAddrs w g).flatMap (fun l => storeData w g l.1 l.2)) m := by
  have hgood := firstFault_of_good h
  unfold actingAddrs accessCode at hgood
  simp only [doSt, accBytes, hgood, actingAddrs]

/-- R147: with no parity error in what it reads, a scratch load writes its registers at once. -/
theorem scratchLoad_good {ls : List (Nat × Nat)} (h : ∀ l ∈ ls, l0Parity (Machine.core m c) (scratchAt b.units l.2).1 (scratchAt b.units l.2).2 (2 ^ iSize w) = false) :
    scratchLoad c slot w g b ls m = setGrp m c slot (some (advance (ls.foldl (fun h l =>
      rputN (sizeRegs (iSize w)) h (iDst w) l.1 (extend (2 ^ iSize w) (iSext w) (leNat (scratchRead (Machine.core m c) b.units l.2 (2 ^ iSize w))))) g))) := by
  have hgood : ls.find? (fun l => l0Parity (Machine.core m c) (scratchAt b.units l.2).1 (scratchAt b.units l.2).2 (2 ^ iSize w)) = none :=
    List.find?_eq_none.mpr fun l hl => by simp [h l hl]
  simp only [scratchLoad, accBytes, hgood, List.foldl_map]

theorem doUld_good (h : addrCode m (iForm w) (effAddr w g 0) (2 ^ iSize w) 0 = none) :
    doUld c slot w g b m = loadGo c slot w g b [(0, lineKey m (iForm w) (effAddr w g 0) * 128 + effAddr w g 0 % 128)] m := by
  simp only [doUld, accBytes, h]

/-- R223: a word that UWAIT may wait on suspends the group. -/
theorem doUwait_good (hbuf : isBuf (rget64 g (iA w) 0) = true) (hfree : reservedBuf (rget64 g (iA w) 0) = false) (hal : rget64 g (iA w) 0 % 4 = 0) :
    doUwait c slot w g b m = setGrp m c slot (some { g with
      wait := .uwait (rget64 g (iA w) 0) (rget g (iB w) 0) (iPsel w) (m.ns + 2 ^ (if iAux w % 32 = 0 then 24 else iAux w % 32)) false }) := by
  simp [doUwait, hbuf, hfree, hal]

end

/-! ### The commands -/

section

variable (c slot : Nat) (word : BitVec 64) (s : State)

theorem exec_ld : exec (.ld c slot word) s = issueOp s c slot word [0xA0] (doLd c slot) := rfl
theorem exec_st : exec (.st c slot word) s = issueOp s c slot word [0xA1] (doSt c slot) := rfl
theorem exec_fence : exec (.fence c slot word) s = issueOp s c slot word [0xA2] (doFence c slot) := rfl
theorem exec_l0inv : exec (.l0inv c slot word) s = issueOp s c slot word [0xA3] (doL0inv c slot) := rfl
theorem exec_uld : exec (.uld c slot word) s = issueOp s c slot word [0xA4] (doUld c slot) := rfl
theorem exec_uwait : exec (.uwait c slot word) s = issueOp s c slot word [0xA5] (doUwait c slot) := rfl

end

/-- Settles O31: each instruction issues, and the checks of its addresses and its form choose what it does. -/
theorem loadsStoresAndFences : Obligations.LoadsStoresAndFences := by
  intro s c slot word g b h
  dsimp only
  have ld (ho : iOp word.toNat = 0xA0) := does_of_issueOp h (exec_ld c slot word s) (by simp [ho])
  have st (ho : iOp word.toNat = 0xA1) := does_of_issueOp h (exec_st c slot word s) (by simp [ho])
  refine ⟨fun ho hform hcode hpar => ?ldScratch, fun ho hform hcode _ => ?ldLines, fun ho hform hcode => ?stScratch, fun ho hform hcode => ?stLines,
    fun f hf => ⟨fun ho => ?ldFaults, fun ho => ?stFaults⟩, fun ho => ?fence, fun ho => ?l0inv, fun ho hcode _ => ?uld, fun ho hbuf hfree hal => ?uwait⟩
  case ldScratch => exact ((doLd_good hcode).trans (if_pos hform)).trans (scratchLoad_good hpar) ▸ ld ho
  case ldLines => exact (doLd_good hcode).trans (if_neg hform) ▸ ld ho
  case stScratch => exact (doSt_good hcode).trans (if_pos hform) ▸ st ho
  case stLines => exact ((doSt_good hcode).trans (if_neg hform) ▸ st ho :)
  case ldFaults => exact doLd_faults hf ▸ ld ho
  case stFaults => exact doSt_faults hf ▸ st ho
  case fence => exact (does_of_issueOp h (exec_fence c slot word s) (by simp [ho]) :)
  case l0inv => exact (does_of_issueOp h (exec_l0inv c slot word s) (by simp [ho]) :)
  case uld => exact doUld_good hcode ▸ does_of_issueOp h (exec_uld c slot word s) (by simp [ho])
  case uwait => exact doUwait_good hbuf hfree hal ▸ does_of_issueOp h (exec_uwait c slot word s) (by simp [ho])

end Sys2Proof.Proofs
end

section
/-! SUPPORT. Atomics and SIG: what leaves the core for each thread, and the operation performed at the buffer. -/

namespace Sys2Proof.Proofs

open Sys2Proof.Machine Sys2Proof.Laws

/-! ### What an atomic instruction sends -/

/-- What an atomic instruction acquires when its answers are there: nothing, or one more than its scope (R216, R226). -/
def atomAcquires (w : Nat) (g : Grp) : Nat := if iOrd w % 2 = 1 ∧ lanes (acting w g) ≠ [] then iScope w + 1 else 0

/-- The instruction waits for its answers: it returns values or acquires. -/
def atomWaits (w : Nat) (g : Grp) : Bool := (iRet w || atomAcquires w g != 0) && !(lanes (acting w g)).isEmpty

/-- Where the old values go. -/
def atomDst (w : Nat) : Nat := if iRet w then iDst w else 0xC0

/-- What the group keeps of an atomic instruction that waits. -/
def atomPend (w : Nat) (g : Grp) : Pend :=
  { pc := g.pc, dst := atomDst w, n := sizeRegs (iSize w), size := 2 ^ iSize w, threads := lanes (acting w g), acq := atomAcquires w g }

/-- The machine as the group has moved on and no atomic has left. -/
def atomIssued (c slot w : Nat) (g : Grp) (m : Chip) : Chip :=
  modGrp (draw m).2 c slot (fun h => advance (if atomWaits w g then { h with pend := h.pend ++ [atomPend w g] } else h))

/-- An operand of a thread's atomic, of the access's size. -/
def atomOperand (w : Nat) (g : Grp) (f t : Nat) : Nat := if 2 ^ iSize w = 8 then rget64 g f t else rget g f t

/-- Thread t's atomic of operation k leaves; m is the machine at issue. -/
def atomLeaves (c slot w : Nat) (g : Grp) (m : Chip) (k : Nat) (q : Chip) (t : Nat) : Chip :=
  atomSend q c slot g (lineKey m (iForm w) (effAddr w g t)) (effAddr w g t % 128) (2 ^ iSize w) k (0xB0 + k) 0 (atomOperand w g (iAtB w) t)
    (if k = 10 then atomOperand w g (iAtC w) t else 0) t (iRet w) (if atomWaits w g then some (atomDst w) else none)
    (failAt m (iForm w) (actingAddrs w g) (lineKey m (iForm w) (effAddr w g t)))

section

variable {c slot w : Nat} {g : Grp} {b : Blk} {m : Chip}

/-- R226: with every address good, the threads' atomics leave one by one in a free order. -/
theorem doAtom_good {k : Nat} (ho : iOp w = 0xB0 + k) (h : ∀ t ∈ lanes (acting w g), atomCode m (iForm w) (effAddr w g t) (2 ^ iSize w) = none) :
    doAtom c slot w g b m = (freeOrder (draw m).1 (lanes (acting w g))).foldl (atomLeaves c slot w g m k) (atomIssued c slot w g m) := by
  have hgood : firstFault (laneFaults (actingAddrs w g) (fun a => atomCode m (iForm w) a (2 ^ iSize w))) = none :=
    firstFault_of_good (List.forall_mem_map.mpr h)
  have hsub : 0xB0 + k - 0xB0 = k := Nat.add_sub_cancel_left _ _
  have hcas : (0xB0 + k = 0xBA) = (k = 10) := propext (by omega)
  rw [doAtom, ← actingAddrs]
  simp only [accBytes, hgood, map_fst_actingAddrs, ho, hsub, hcas]
  rfl

theorem sigOp_eq (k : Nat) : sigOp k = if k = 0 then 9 else if k = 1 then 0 else 5 := by
  unfold sigOp
  split <;> simp_all

theorem doSig_good (h : atomCode m 0 (effAddr w g 0) 4 = none) :
    doSig c slot w g b m = atomSend (modGrp m c slot advance) c slot g (effAddr w g 0 / 128) (effAddr w g 0 % 128) 4
      (if iSubop w = 0 then 9 else if iSubop w = 1 then 0 else 5) 0xBB (iSubop w) (rget g (iAtB w) 0) 0 0 false none (lowest g.active, effAddr w g 0) := by
  simp only [doSig, h, sigOp_eq]

end

/-! ### The operation at the buffer -/

/-- A machine word of n bits read as signed is the bit vector's signed value. -/
theorem sgn_toNat {n : Nat} (x : BitVec n) : sgn n x.toNat = x.toInt := by
  have hlt := x.isLt
  rw [sgn, Nat.mod_eq_of_lt hlt, BitVec.toInt_eq_toNat_cond]
  cases n with
  | zero => simp [BitVec.of_length_zero]
  | succ n =>
    have hhalf : x.toNat < 2 ^ (n + 1 - 1) ↔ 2 * x.toNat < 2 ^ (n + 1) := by
      rw [Nat.add_sub_cancel, Nat.pow_succ']
      omega
    simp only [hhalf, Int.ofNat_eq_natCast]

section

variable {n : Nat} (old a : BitVec (8 * n))

theorem atomOp_add (c : Nat) : atomOp 0 n old.toNat a.toNat c = (old + a).toNat := (BitVec.toNat_add old a).symm

theorem atomOp_smin (c : Nat) : atomOp 2 n old.toNat a.toNat c = (if a.slt old then a else old).toNat := by
  simp only [atomOp, sgn_toNat, BitVec.slt, decide_eq_true_eq, ← apply_ite BitVec.toNat, BitVec.toNat_mod_cancel]

theorem atomOp_smax (c : Nat) : atomOp 3 n old.toNat a.toNat c = (if old.slt a then a else old).toNat := by
  simp only [atomOp, sgn_toNat, BitVec.slt, decide_eq_true_eq, ← apply_ite BitVec.toNat, BitVec.toNat_mod_cancel]

theorem atomOp_umin (c : Nat) : atomOp 4 n old.toNat a.toNat c = (if a.ult old then a else old).toNat := by
  rw [atomOp, min_comm, min_def_lt]
  simp only [BitVec.ult, decide_eq_true_eq, ← apply_ite BitVec.toNat, BitVec.toNat_mod_cancel]

theorem atomOp_umax (c : Nat) : atomOp 5 n old.toNat a.toNat c = (if old.ult a then a else old).toNat := by
  rw [atomOp, max_def_lt]
  simp only [BitVec.ult, decide_eq_true_eq, ← apply_ite BitVec.toNat, BitVec.toNat_mod_cancel]

theorem atomOp_and (c : Nat) : atomOp 6 n old.toNat a.toNat c = (old &&& a).toNat := by
  rw [atomOp, ← BitVec.toNat_and, BitVec.toNat_mod_cancel]

theorem atomOp_or (c : Nat) : atomOp 7 n old.toNat a.toNat c = (old ||| a).toNat := by
  rw [atomOp, ← BitVec.toNat_or, BitVec.toNat_mod_cancel]

theorem atomOp_xor (c : Nat) : atomOp 8 n old.toNat a.toNat c = (old ^^^ a).toNat := by
  rw [atomOp, ← BitVec.toNat_xor, BitVec.toNat_mod_cancel]

theorem atomOp_exch (c : Nat) : atomOp 9 n old.toNat a.toNat c = a.toNat := a.toNat_mod_cancel

theorem atomOp_cas (b : BitVec (8 * n)) : atomOp 10 n old.toNat a.toNat b.toNat = (if old = b then a else old).toNat := by
  simp only [atomOp, BitVec.toNat_inj, ← apply_ite BitVec.toNat, BitVec.toNat_mod_cancel]

end

/-! ### The commands -/

/-- The atomic instructions by their operation. -/
def atomInstrs (c slot : Nat) (word : BitVec 64) : List (Nat × Instr) :=
  [(0, .atomAdd c slot word), (1, .atomFadd c slot word), (2, .atomSmin c slot word), (3, .atomSmax c slot word), (4, .atomUmin c slot word), (5, .atomUmax c slot word),
    (6, .atomAnd c slot word), (7, .atomOr c slot word), (8, .atomXor c slot word), (9, .atomExch c slot word), (10, .atomCas c slot word)]

/-- The atomic instructions share one effect, each under the opcode of its operation. -/
theorem exec_atom {c slot k : Nat} {word : BitVec 64} {i : Instr} (hi : (k, i) ∈ atomInstrs c slot word) (s : State) :
    exec i s = issueOp s c slot word [0xB0 + k] (doAtom c slot) := by
  simp only [atomInstrs, List.mem_cons, Prod.mk.injEq, List.not_mem_nil, or_false] at hi
  obtain ⟨rfl, rfl⟩ | ⟨rfl, rfl⟩ | ⟨rfl, rfl⟩ | ⟨rfl, rfl⟩ | ⟨rfl, rfl⟩ | ⟨rfl, rfl⟩ | ⟨rfl, rfl⟩ | ⟨rfl, rfl⟩ | ⟨rfl, rfl⟩ | ⟨rfl, rfl⟩ | ⟨rfl, rfl⟩ := hi <;> rfl

theorem exec_sig (c slot : Nat) (word : BitVec 64) (s : State) : exec (.sig c slot word) s = issueOp s c slot word [0xBB] (doSig c slot) := rfl

/-- Settles O32: the atomics of a group leave through one effect, SIG through its own, and the buffer's operations are those of bit vectors. -/
theorem atomicsAndSignals : Obligations.AtomicsAndSignals := by
  refine ⟨fun s c slot word g b h => ?sent, fun old a b => ?performed⟩
  case sent =>
    dsimp only
    refine ⟨fun k i hi ho hcode => ?atom, fun ho hcode => ?sig⟩
    case atom => exact (doAtom_good ho hcode ▸ does_of_issueOp h (exec_atom hi s) (by simp [ho]) :)
    case sig => exact doSig_good hcode ▸ does_of_issueOp h (exec_sig c slot word s) (by simp [ho])
  case performed =>
    exact ⟨atomOp_add (n := 4) old a _, rfl, atomOp_smin (n := 4) old a _, atomOp_smax (n := 4) old a _, atomOp_umin (n := 4) old a _, atomOp_umax (n := 4) old a _,
      atomOp_and (n := 4) old a _, atomOp_or (n := 4) old a _, atomOp_xor (n := 4) old a _, atomOp_exch (n := 4) old a _, atomOp_cas (n := 4) old a b⟩

end Sys2Proof.Proofs
end

section
/-! SUPPORT. Registers of the threads: how a group reads after a register is written in one thread, and in every acting thread. -/

namespace Sys2Proof.Proofs

open Sys2Proof.Machine Sys2Proof.Laws

/-! ### Masks -/

/-- The model's test of a bit is the library's. -/
theorem tb_eq_testBit (w i : Nat) : tb w i = w.testBit i := by
  rw [tb, Nat.testBit_eq_decide_div_mod_eq, Nat.shiftRight_eq_div_pow]
  rfl

theorem mem_lanes {mask t : Nat} : t ∈ lanes mask ↔ t < 64 ∧ mask.testBit t = true := by
  simp [lanes, tb_eq_testBit]

/-! ### Writes to a table, one after the other -/

/-- A table after the writes of a list. -/
def tputs (vs : List (Nat × Nat)) (x : Tab Nat) : Tab Nat := vs.foldl (fun x p => tput 0 p.1 p.2 x) x

/-- A key reads as what the list writes there, if all its writes there agree, and as before where it writes nothing. -/
theorem tget_tputs {vs : List (Nat × Nat)} {k v : Nat} (hv : ∀ p ∈ vs, p.1 = k → p.2 = v) (x : Tab Nat) :
    tget 0 k (tputs vs x) = if k ∈ vs.map Prod.fst then v else tget 0 k x := by
  induction vs generalizing x with
  | nil => rfl
  | cons p vs ih =>
    obtain ⟨hp, hvs⟩ := List.forall_mem_cons.mp hv
    rw [tputs, List.foldl_cons, ← tputs, ih hvs]
    simp only [List.map_cons, List.mem_cons]
    by_cases hk : k = p.1
    · simp [← hk, hp hk.symm]
    · simp only [hk, false_or, tget_tput_ne _ _ hk]

theorem tget_tputs_of_not_mem {vs : List (Nat × Nat)} {k : Nat} (h : ∀ p ∈ vs, p.1 ≠ k) (x : Tab Nat) : tget 0 k (tputs vs x) = tget 0 k x := by
  rw [tget_tputs (v := 0) fun p hp he => absurd he (h p hp), if_neg]
  simpa using fun v hp => h (k, v) hp rfl

/-! ### DST of the acting threads -/

/-- The writes of a v register in the threads of a mask. -/
def regWrites (mask dst : Nat) (val : Nat → Nat) : List (Nat × Nat) := (lanes mask).map (fun t => (64 * dst + t, val t % 2 ^ 32))

theorem foldl_rput_v {dst : Nat} (h : dst < 0x80) (val : Nat → Nat) (ts : List Nat) (g : Grp) :
    (ts.map (fun t => (t, val t))).foldl (fun h p => rput h dst p.1 p.2) g = { g with v := tputs (ts.map (fun t => (64 * dst + t, val t % 2 ^ 32))) g.v } := by
  induction ts generalizing g with
  | nil => rfl
  | cons t ts ih =>
    simp only [List.map_cons, List.foldl_cons, rput, if_pos h] at ih ⊢
    exact ih _

theorem perThread_v (g : Grp) (mask : Nat) {dst : Nat} (h : dst < 0x80) (val : Nat → Nat) :
    perThread g mask dst val = { g with v := tputs (regWrites mask dst val) g.v } := foldl_rput_v h val _ g

/-- ZERO discards (R177). -/
theorem perThread_zero (g : Grp) (mask : Nat) (val : Nat → Nat) : perThread g mask 0xC0 val = g := List.foldl_fixed' (fun _ => rfl) _

theorem rget_v (g : Grp) {f : Nat} (h : f < 0x80) (t : Nat) : rget g f t = tget 0 (64 * f + t) g.v % 2 ^ 32 := by
  rw [rget, if_pos h]

/-- Registers that a write of v registers leaves as they are read as before. -/
theorem rget_with_v {g : Grp} {x : Tab Nat} {f t : Nat} (h : f < 0x80 → tget 0 (64 * f + t) x = tget 0 (64 * f + t) g.v) : rget { g with v := x } f t = rget g f t := by
  unfold rget
  split
  · next hf => rw [h hf]
  · rfl

theorem rget_perThread_same (g : Grp) (mask : Nat) {dst : Nat} (h : dst < 0x80) (val : Nat → Nat) {t : Nat} (ht : t < 64) :
    rget (perThread g mask dst val) dst t = if mask.testBit t then val t % 2 ^ 32 else rget g dst t := by
  have hval : ∀ p ∈ regWrites mask dst val, p.1 = 64 * dst + t → p.2 = val t % 2 ^ 32 := by
    simp only [regWrites, List.forall_mem_map]
    intro u _ he
    rw [Nat.add_left_cancel he]
  have hmem : 64 * dst + t ∈ (regWrites mask dst val).map Prod.fst ↔ mask.testBit t = true := by
    simp [regWrites, mem_lanes, ht]
  rw [perThread_v g mask h, rget_v _ h, tget_tputs hval, rget_v g h]
  simp only [hmem]
  split
  · exact Nat.mod_mod _ _
  · rfl

theorem rget_perThread_ne (g : Grp) (mask : Nat) {dst : Nat} (h : dst < 0x80) (val : Nat → Nat) {f t : Nat} (ht : t < 64) (hf : f ≠ dst) :
    rget (perThread g mask dst val) f t = rget g f t := by
  rw [perThread_v g mask h]
  refine rget_with_v fun _ => tget_tputs_of_not_mem ?_ _
  simp only [regWrites, List.forall_mem_map, mem_lanes]
  omega

/-- Settles O21: the writes to a v register in the threads of the mask are writes to keys of their own, and ZERO discards. -/
theorem threadResultTouchesOnlyDst : Obligations.ThreadResultTouchesOnlyDst := by
  intro g mask d val
  refine ⟨fun hd => ⟨fun t ht => ?same, fun f t ht hf => ?other, ?frame⟩, fun hd => ?zero⟩
  case same => exact rget_perThread_same g mask hd val ht
  case other => exact rget_perThread_ne g mask hd val ht hf
  case frame => exact ⟨_, perThread_v g mask hd val⟩
  case zero => exact hd ▸ perThread_zero g mask val

end Sys2Proof.Proofs
end

section
/-! SUPPORT. Instructions with one result per thread: the operands of formats R and I, and the integer operations as those of bit vectors. -/

namespace Sys2Proof.Proofs

open Sys2Proof.Machine Sys2Proof.Laws

/-! ### Operands -/

theorem reg32_toNat (g : Grp) (f t : Nat) : (reg32 g f t).toNat = rget g f t := by
  rw [reg32, BitVec.toNat_ofNat, Nat.mod_eq_of_lt (rget_lt g f t)]

/-- Format I of the integer instructions (R191). -/
abbrev ImmInt (w : Nat) : Prop := 0x20 ≤ iOp w ∧ iOp w ≤ 0x2F

/-- B and C are the threads' operands beside A: SRC_B and SRC_C, or in format I the immediate and the old DST (R191). -/
structure Operands (w : Nat) (g : Grp) (B C : Nat → BitVec 32) : Prop where
  b : ∀ t, srcB w g t = (B t).toNat
  c : ∀ t, srcC w g t = (C t).toNat

theorem operands_int {w : Nat} {g : Grp} {B C : Nat → BitVec 32} (ho : iOp w < 0x50)
    (hI : ImmInt w → ∀ t, B t = BitVec.ofNat 32 (iImm w) ∧ C t = reg32 g (iDst w) t)
    (hR : ¬ ImmInt w → ∀ t, B t = reg32 g (iB w) t ∧ C t = reg32 g (iC w) t) : Operands w g B C := by
  have himm : iImm w % 2 ^ 32 = iImm w := Nat.mod_eq_of_lt (bitsN_lt w 31 0)
  have hfp : ¬ (0x50 ≤ iOp w ∧ iOp w ≤ 0x54) := by omega
  by_cases h : ImmInt w
  · exact ⟨fun t => by rw [srcB, if_pos (.inl h), (hI h t).1, BitVec.toNat_ofNat, himm], fun t => by rw [srcC, if_pos (.inl h), (hI h t).2, reg32_toNat]⟩
  · have hn := not_or.mpr ⟨h, hfp⟩
    exact ⟨fun t => by rw [srcB, if_neg hn, (hR h t).1, reg32_toNat], fun t => by rw [srcC, if_neg hn, (hR h t).2, reg32_toNat]⟩

/-- An instruction whose effect is on its own group alone. -/
theorem does_of_issueAlu {i : Instr} {s : State} {c slot : Nat} {word : BitVec 64} {g : Grp} {b : Blk} {ops : List Nat} {f : Nat → Grp → Grp}
    (h : Issues s c slot word g b) (he : exec i s = issueAlu s c slot word ops f) (ho : iOp word.toNat ∈ ops) :
    Does i s (setGrp s.chip c slot (some (advance (f word.toNat g)))) := by
  rw [Does, he, issueAlu_issues h ho]

/-- What an instruction with one result per thread writes, its operation stated on bit vectors. -/
theorem writes_alu3 {i : Instr} {s : State} {c slot : Nat} {word : BitVec 64} {g : Grp} {b : Blk} {ops : List Nat} {f : Nat → Nat → Nat → Nat → Nat} {B C : Nat → BitVec 32}
    {val : BitVec 32 → BitVec 32 → BitVec 32 → Nat} (h : Issues s c slot word g b) (he : exec i s = issueAlu s c slot word ops (alu3 f)) (ho : iOp word.toNat ∈ ops)
    (hBC : Operands word.toNat g B C) (hf : ∀ x y z : BitVec 32, f word.toNat x.toNat y.toNat z.toNat = val x y z) :
    Writes i s c slot word g (fun t => val (reg32 g (iA word.toNat) t) (B t) (C t)) := by
  have hd := does_of_issueAlu h he ho
  simp only [alu3, hBC.b, hBC.c, ← reg32_toNat, hf] at hd
  exact hd

/-- AUX[0] is there in format R alone. -/
theorem aux0_eq {w : Nat} (h : 0x10 ≤ iOp w ∧ iOp w ≤ 0x2F) : aux0 w = (decide (¬ ImmInt w) && w.testBit 0) := by
  have hclass : iOp w / 16 = 1 ↔ ¬ ImmInt w := by omega
  simp only [aux0, hclass, tb_eq_testBit]

theorem aux0_iff {w : Nat} (h : 0x10 ≤ iOp w ∧ iOp w ≤ 0x2F) : aux0 w = true ↔ ¬ ImmInt w ∧ w.testBit 0 = true := by
  rw [aux0_eq h, Bool.and_eq_true, decide_eq_true_eq]

/-! ### Arithmetic -/

theorem unsgn_eq_ofInt (n : Nat) (v : Int) : unsgn n v = (BitVec.ofInt n v).toNat := (BitVec.toNat_ofInt ..).symm

theorem satS32_eq (v : Int) : satS32 v = (BitVec.ofInt 32 (max (-2 ^ 31) (min (2 ^ 31 - 1) v))).toNat := by
  have hclamp : (if v > 2147483647 then 2147483647 else if v < -2147483648 then -2147483648 else v) = max (-2 ^ 31) (min (2 ^ 31 - 1) v) := by
    split
    · omega
    · split <;> omega
  rw [satS32, hclamp, unsgn_eq_ofInt]

section

variable {w : Nat} (x y : BitVec 32)

theorem opIadd_wraps (h : iSat w = false) : opIadd w x.toNat y.toNat = (x + y).toNat := by
  rw [opIadd, h, BitVec.toNat_add]
  rfl

theorem opIadd_saturates (h : iSat w = true) :
    opIadd w x.toNat y.toNat = (BitVec.ofInt 32 (max (-2 ^ 31) (min (2 ^ 31 - 1) (x.toInt + y.toInt)))).toNat := by
  rw [opIadd, if_pos h, sgn_toNat, sgn_toNat, satS32_eq]

theorem opIsub_wraps (h : iSat w = false) : opIsub w x.toNat y.toNat = (x - y).toNat := by
  have hy := y.isLt
  rw [opIsub, h, BitVec.toNat_sub]
  simp only [Bool.false_eq_true, if_false]
  congr 1
  omega

theorem opIsub_saturates (h : iSat w = true) :
    opIsub w x.toNat y.toNat = (BitVec.ofInt 32 (max (-2 ^ 31) (min (2 ^ 31 - 1) (x.toInt - y.toInt)))).toNat := by
  rw [opIsub, if_pos h, sgn_toNat, sgn_toNat, satS32_eq]

/-- The high word of the product of sign-extended or of zero-extended operands. -/
theorem opImulhi_eq (signed : Bool) : opImulhi signed x.toNat y.toNat =
    if signed then ((x.signExtend 64 * y.signExtend 64) >>> 32).toNat else ((x.zeroExtend 64 * y.zeroExtend 64) >>> 32).toNat := by
  cases signed with
  | true =>
    have hprod : unsgn 64 (x.toInt * y.toInt) = (x.signExtend 64 * y.signExtend 64).toNat := by
      rw [unsgn_eq_ofInt, BitVec.ofInt_mul]
      rfl
    simp only [opImulhi, sgn_toNat, hprod, BitVec.toNat_ushiftRight, Nat.shiftRight_eq_div_pow, if_true]
  | false =>
    have hlt : x.toNat * y.toNat < 2 ^ 32 * 2 ^ 32 := Nat.mul_lt_mul'' x.isLt y.isLt
    have hprod : (x.zeroExtend 64 * y.zeroExtend 64).toNat = x.toNat * y.toNat := by
      rw [BitVec.toNat_mul, BitVec.toNat_setWidth_of_le (by decide), BitVec.toNat_setWidth_of_le (by decide), Nat.mod_eq_of_lt (b := 2 ^ 64) hlt]
    simp only [opImulhi, hprod, BitVec.toNat_ushiftRight, Nat.shiftRight_eq_div_pow, Bool.false_eq_true, if_false]
    exact Nat.mod_eq_of_lt (Nat.div_lt_of_lt_mul hlt)

theorem mul_add_toNat (z : BitVec 32) : (x.toNat * y.toNat + z.toNat) % 2 ^ 32 = (x * y + z).toNat := by
  rw [BitVec.toNat_add, BitVec.toNat_mul, Nat.mod_add_mod]

theorem opMin_eq (uns : Bool) : opMin uns x.toNat y.toNat = if uns then min x.toNat y.toNat else if y.toInt < x.toInt then y.toNat else x.toNat := by
  simp only [opMin, sgn_toNat]

theorem opMax_eq (uns : Bool) : opMax uns x.toNat y.toNat = if uns then max x.toNat y.toNat else if x.toInt < y.toInt then y.toNat else x.toNat := by
  simp only [opMax, sgn_toNat]

end

/-- Format I has no SAT. -/
theorem iSat_unless_imm {w o : Nat} (h : iOp w = o ∨ iSat w = false) : iSat (if iOp w = o then 0 else w) = false := by
  split
  · rfl
  · next ho => exact h.resolve_left ho

/-! ### The commands -/

section

variable (c slot : Nat) (word : BitVec 64) (s : State)

theorem exec_iadd : exec (.iadd c slot word) s = issueAlu s c slot word [0x10, 0x20] (alu3 (fun w a b _ => opIadd (if iOp w = 0x20 then 0 else w) a b)) := rfl
theorem exec_isub : exec (.isub c slot word) s = issueAlu s c slot word [0x11, 0x21] (alu3 (fun w a b _ => opIsub (if iOp w = 0x21 then 0 else w) a b)) := rfl
theorem exec_imul : exec (.imul c slot word) s = issueAlu s c slot word [0x12, 0x22] (alu3 (fun _ a b _ => a * b % 2 ^ 32)) := rfl
theorem exec_imulhi : exec (.imulhi c slot word) s = issueAlu s c slot word [0x13, 0x23] (alu3 (fun w a b _ => opImulhi (aux0 w) a b)) := rfl
theorem exec_imac : exec (.imac c slot word) s = issueAlu s c slot word [0x14, 0x24] (alu3 (fun _ a b c => (a * b + c) % 2 ^ 32)) := rfl
theorem exec_imin : exec (.imin c slot word) s = issueAlu s c slot word [0x15, 0x25] (alu3 (fun w a b _ => opMin (aux0 w) a b)) := rfl
theorem exec_imax : exec (.imax c slot word) s = issueAlu s c slot word [0x16, 0x26] (alu3 (fun w a b _ => opMax (aux0 w) a b)) := rfl
theorem exec_iadd64 : exec (.iadd64 c slot word) s = issueAlu s c slot word [0x36]
    (fun w g => perThread64 g (acting w g) (iDst w) (fun t => (rget64 g (iA w) t + rget64 g (iB w) t) % 2 ^ 64)) := rfl

end

/-- Settles O23: each operation of the model is the bit vectors' at the operands of the word's format. -/
theorem integerArithmetic : Obligations.IntegerArithmetic := by
  intro s c slot word g b h
  dsimp only
  refine ⟨fun B C hI hR => ?arith, fun ho => ?iadd64⟩
  case arith =>
    have hBC (ho : iOp word.toNat < 0x50) := operands_int ho hI hR
    refine ⟨fun ho hsat => ?iadd, fun ho hsat => ?iaddSat, fun ho hsat => ?isub, fun ho hsat => ?isubSat, fun ho => ?imul, fun ho => ?imulhi, fun ho => ?imac,
      fun ho => ?imin, fun ho => ?imax⟩
    case iadd =>
      have hwrap := iSat_unless_imm (hsat.imp_left fun hi : ImmInt _ => ho.resolve_left (by omega))
      exact (writes_alu3 h (exec_iadd ..) (List.mem_pair.mpr ho) (hBC (by omega)) (fun x y _ => opIadd_wraps x y hwrap) :)
    case iaddSat =>
      exact (writes_alu3 h (exec_iadd ..) (by simp [ho]) (hBC (by omega)) (fun x y _ => by simp only [ho]; exact opIadd_saturates x y hsat) :)
    case isub =>
      have hwrap := iSat_unless_imm (hsat.imp_left fun hi : ImmInt _ => ho.resolve_left (by omega))
      exact (writes_alu3 h (exec_isub ..) (List.mem_pair.mpr ho) (hBC (by omega)) (fun x y _ => opIsub_wraps x y hwrap) :)
    case isubSat =>
      exact (writes_alu3 h (exec_isub ..) (by simp [ho]) (hBC (by omega)) (fun x y _ => by simp only [ho]; exact opIsub_saturates x y hsat) :)
    case imul => exact (writes_alu3 h (exec_imul ..) (List.mem_pair.mpr ho) (hBC (by omega)) (fun x y _ => (BitVec.toNat_mul x y).symm) :)
    case imulhi =>
      exact (writes_alu3 h (exec_imulhi ..) (List.mem_pair.mpr ho) (hBC (by omega)) (fun x y _ => (opImulhi_eq x y _).trans (if_congr (aux0_iff (by omega)) rfl rfl)) :)
    case imac =>
      exact (writes_alu3 h (exec_imac ..) (List.mem_pair.mpr ho) (hBC (by omega)) mul_add_toNat :)
    case imin =>
      exact (writes_alu3 h (exec_imin ..) (List.mem_pair.mpr ho) (hBC (by omega)) (fun x y _ => (opMin_eq x y _).trans (if_congr (aux0_iff (by omega)) rfl rfl)) :)
    case imax =>
      exact (writes_alu3 h (exec_imax ..) (List.mem_pair.mpr ho) (hBC (by omega)) (fun x y _ => (opMax_eq x y _).trans (if_congr (aux0_iff (by omega)) rfl rfl)) :)
  case iadd64 =>
    have hd := does_of_issueAlu h (exec_iadd64 c slot word s) (List.mem_singleton.mpr ho)
    simp only [← reg64_toNat, ← BitVec.toNat_add] at hd
    exact hd

end Sys2Proof.Proofs
end

section
/-! SUPPORT. Logic, shifts, counts, bit fields, moves and cross-lane reads: the operations by their bits, and what each instruction writes. -/

namespace Sys2Proof.Proofs

open Sys2Proof.Machine Sys2Proof.Laws

/-! ### Shifts and counts -/

section

variable (x y : BitVec 32)

theorem opShl_eq : opShl x.toNat y.toNat = (x <<< (y.toNat % 64)).toNat := by
  rw [opShl, BitVec.toNat_shiftLeft, Nat.shiftLeft_eq]
  split
  · next hn => exact (Nat.mod_eq_zero_of_dvd ((Nat.pow_dvd_pow 2 hn).mul_left _)).symm
  · rfl

/-- A signed word shifted by 32 or more is copies of its sign, as when shifted by 32. -/
theorem toInt_shiftRight_min (n : Nat) : x.toInt / 2 ^ min n 32 = x.toInt >>> n := by
  have hlo := BitVec.le_toInt x
  have hhi := BitVec.toInt_lt (x := x)
  obtain hn | hn := Nat.le_total n 32
  · rw [Nat.min_eq_left hn, Int.shiftRight_eq_div_pow]
    norm_cast
  · obtain ⟨k, rfl⟩ := Nat.exists_eq_add_of_le hn
    have hdiv : x.toInt >>> (32 : Nat) = x.toInt / 2 ^ 32 := Int.shiftRight_eq_div_pow _ 32
    rw [Nat.min_eq_right hn, Int.shiftRight_add, hdiv]
    obtain h | h : x.toInt / 2 ^ 32 = 0 ∨ x.toInt / 2 ^ 32 = -1 := by omega
    · rw [h, Int.zero_shiftRight]
    · rw [h]
      exact congrArg Int.negSucc (Nat.zero_shiftRight k).symm

theorem opShr_eq (arith : Bool) : opShr arith x.toNat y.toNat = if arith then (x.sshiftRight (y.toNat % 64)).toNat else (x >>> (y.toNat % 64)).toNat := by
  cases arith with
  | true =>
    simp only [opShr, sgn_toNat, unsgn_eq_ofInt, toInt_shiftRight_min, if_true]
    rfl
  | false =>
    simp only [opShr, BitVec.toNat_ushiftRight, Nat.shiftRight_eq_div_pow, Bool.false_eq_true, if_false]
    split
    · next hn => exact (Nat.div_eq_of_lt (x.isLt.trans_le (Nat.pow_le_pow_right (by decide) hn))).symm
    · rfl

theorem popN_eq_countP (n v : Nat) : popN n v = (List.range n).countP (fun k => v.testBit k) := by
  induction n generalizing v with
  | zero => rfl
  | succ n ih =>
    have hbit : v % 2 = if v.testBit 0 then 1 else 0 := by
      rw [Nat.testBit_zero]
      obtain h | h := Nat.mod_two_eq_zero_or_one v <;> simp [h]
    rw [popN, ih, List.range_succ_eq_map, List.countP_cons, List.countP_map, hbit, Nat.add_comm]
    simp only [Function.comp_def, Nat.testBit_succ]

theorem popN_toNat : popN 32 x.toNat = (List.range 32).countP (fun k => x.getLsbD k) := popN_eq_countP 32 x.toNat

theorem opClz_eq : opClz x.toNat = if x = 0#32 then 32 else 31 - Nat.log2 x.toNat := by
  have hzero : x.toNat = 0 ↔ x = 0#32 := BitVec.toNat_inj (y := 0#32)
  simp only [opClz, hzero]

end

/-! ### Bit fields -/

/-- BEXT (R190): the field's bits, and above them copies of its top bit when asked. -/
theorem testBit_opBext (signed : Bool) (a b : Nat) {k : Nat} (hk : k < 32) :
    (opBext signed a b).testBit k =
      if k < bitsN b 13 8 then a.testBit (b % 32 + k) else (signed && decide (bitsN b 13 8 ≠ 0) && a.testBit (b % 32 + bitsN b 13 8 - 1)) := by
  rw [opBext]
  generalize b % 32 = p
  generalize bitsN b 13 8 = n
  have hfield (j : Nat) : (a / 2 ^ p % 2 ^ n).testBit j = (decide (j < n) && a.testBit (p + j)) := by
    rw [Nat.testBit_mod_two_pow, Nat.testBit_div_two_pow, Nat.add_comm]
  have hlt : a / 2 ^ p % 2 ^ n < 2 ^ n := Nat.mod_lt _ (Nat.two_pow_pos n)
  split
  · next hs =>
    simp only [Bool.and_eq_true, bne_iff_ne, decide_eq_true_eq, tb_eq_testBit, hfield] at hs
    obtain ⟨⟨⟨hsigned, hn0⟩, hn32⟩, -, htop⟩ := hs
    have hcopies : 2 ^ 32 - 2 ^ n = 2 ^ n * (2 ^ (32 - n) - 1) := by
      rw [Nat.mul_sub, ← Nat.pow_add, Nat.add_sub_cancel' hn32.le, Nat.mul_one]
    rw [hcopies, Nat.testBit_two_pow_mul_add _ hlt, hfield, Nat.testBit_two_pow_sub_one]
    split
    · next hkn => simp [hkn]
    · have hin : k - n < 32 - n := by omega
      rw [Nat.add_sub_assoc (Nat.pos_of_ne_zero hn0)]
      simp [hin, hsigned, hn0, htop]
  · next hs =>
    rw [Nat.testBit_mod_two_pow, hfield]
    split
    · next hkn => simp [hk, hkn]
    · next hkn =>
      have hn32 : n < 32 := by omega
      by_cases hn0 : n = 0
      · simp [hn0]
      · have hin : n - 1 < n := by omega
        simp only [tb_eq_testBit, hfield, hn32, hin, decide_true, Bool.and_true, Bool.true_and, bne_iff_ne.mpr hn0] at hs
        rw [Nat.add_sub_assoc (Nat.pos_of_ne_zero hn0), decide_eq_true hn0, Bool.and_true, Bool.eq_false_iff.mpr hs, decide_eq_false hkn, Bool.false_and, Bool.and_false]

/-- BINS (R190): the field's bits come from a, the others from c. -/
theorem testBit_opBins (a b c : Nat) {k : Nat} (hk : k < 32) :
    (opBins a b c).testBit k = if b % 32 ≤ k ∧ k < b % 32 + bitsN b 13 8 then a.testBit (k - b % 32) else c.testBit k := by
  rw [opBins]
  generalize hp : b % 32 = p
  generalize bitsN b 13 8 = n
  split
  · rw [if_neg (by omega)]
  · rw [testBit_setBitsN _ _ _ _ _ (by omega)]
    exact if_congr (by omega) rfl rfl

/-! ### Bytes put together -/

theorem sumN_succ (n : Nat) (f : Nat → Nat) : sumN (n + 1) f = sumN n f + f n := by
  rw [sumN, List.range_succ, List.foldl_concat, ← sumN]

/-- A sum of bytes each at its own place: it lies below the place after the last, and each byte reads back. -/
theorem bitsN_sumN_bytes {f : Nat → Nat} (hf : ∀ i, f i < 2 ^ 8) (n : Nat) :
    sumN n (fun i => f i * 2 ^ (8 * i)) < 2 ^ (8 * n) ∧ ∀ k, k < n → bitsN (sumN n (fun i => f i * 2 ^ (8 * i))) (8 * k + 7) (8 * k) = f k := by
  induction n with
  | zero => exact ⟨Nat.two_pow_pos _, fun k hk => absurd hk (Nat.not_lt_zero k)⟩
  | succ n ih =>
    obtain ⟨hlt, hread⟩ := ih
    have hsum : sumN (n + 1) (fun i => f i * 2 ^ (8 * i)) = 2 ^ (8 * n) * f n + sumN n (fun i => f i * 2 ^ (8 * i)) := by
      rw [sumN_succ, Nat.mul_comm, Nat.add_comm]
    refine ⟨?below, fun k hk => Nat.eq_of_testBit_eq fun j => ?byte⟩
    case below =>
      have hstep : 2 ^ (8 * n) * f n + 2 ^ (8 * n) ≤ 2 ^ (8 * n) * 2 ^ 8 := Nat.mul_le_mul_left _ (hf n)
      rw [hsum, Nat.mul_succ, Nat.pow_add]
      omega
    case byte =>
      have hcut (j : Nat) : (f k).testBit j = (decide (j < 8) && (f k).testBit j) := by
        rw [← Nat.testBit_mod_two_pow, Nat.mod_eq_of_lt (hf k)]
      have hwidth : 8 * k + 7 + 1 - 8 * k = 8 := by omega
      rw [testBit_bitsN, hsum, Nat.testBit_two_pow_mul_add _ hlt, hwidth]
      obtain hkn | rfl := Nat.lt_succ_iff_lt_or_eq.mp hk
      · rw [← hread k hkn, testBit_bitsN, hwidth]
        by_cases hj : j < 8
        · rw [if_pos (by omega)]
        · simp [hj]
      · rw [hcut j, if_neg (by omega), Nat.add_sub_cancel_left]

/-- Byte i of BSEL's result: the byte of b:a that nibble i of c names, or 0 (R190). -/
def selByte (a b c i : Nat) : Nat :=
  let n := bitsN c (4 * i + 3) (4 * i)
  if 8 ≤ n then 0 else bitsN (a + 2 ^ 32 * b) (8 * n + 7) (8 * n)

theorem opBsel_eq (a b c : Nat) : opBsel a b c = sumN 4 (fun i => selByte a b c i * 2 ^ (8 * i)) := by
  simp only [opBsel, selByte, ite_mul, Nat.zero_mul, ge_iff_le]

theorem selByte_lt (a b c i : Nat) : selByte a b c i < 2 ^ 8 := by
  rw [selByte]
  split
  · exact Nat.two_pow_pos 8
  · exact (bitsN_lt _ _ _).trans_eq (congrArg (2 ^ ·) (by omega))

theorem bitsN_opBsel (a b c : Nat) {k : Nat} (hk : k < 4) : bitsN (opBsel a b c) (8 * k + 7) (8 * k) = selByte a b c k := by
  rw [opBsel_eq]
  exact (bitsN_sumN_bytes (selByte_lt a b c) 4).2 k hk

/-! ### The commands -/

section

variable (c slot : Nat) (word : BitVec 64) (s : State)

theorem exec_shl : exec (.shl c slot word) s = issueAlu s c slot word [0x17, 0x27] (alu3 (fun _ a b _ => opShl a b)) := rfl
theorem exec_shr : exec (.shr c slot word) s = issueAlu s c slot word [0x18, 0x28] (alu3 (fun w a b _ => opShr (aux0 w) a b)) := rfl
theorem exec_andI : exec (.andI c slot word) s = issueAlu s c slot word [0x19, 0x29] (alu3 (fun _ a b _ => a &&& b)) := rfl
theorem exec_orI : exec (.orI c slot word) s = issueAlu s c slot word [0x1A, 0x2A] (alu3 (fun _ a b _ => a ||| b)) := rfl
theorem exec_xorI : exec (.xorI c slot word) s = issueAlu s c slot word [0x1B, 0x2B] (alu3 (fun _ a b _ => a ^^^ b)) := rfl
theorem exec_pcnt : exec (.pcnt c slot word) s = issueAlu s c slot word [0x1C] (alu3 (fun _ a _ _ => popN 32 a)) := rfl
theorem exec_clz : exec (.clz c slot word) s = issueAlu s c slot word [0x1D] (alu3 (fun _ a _ _ => opClz a)) := rfl
theorem exec_bext : exec (.bext c slot word) s = issueAlu s c slot word [0x1E, 0x2E] (alu3 (fun w a b _ => opBext (aux0 w) a b)) := rfl
theorem exec_bins : exec (.bins c slot word) s = issueAlu s c slot word [0x1F, 0x2F] (alu3 (fun _ a b c => opBins a b c)) := rfl
theorem exec_mov : exec (.mov c slot word) s = issueAlu s c slot word [0x30] (alu3 (fun _ a _ _ => a)) := rfl
theorem exec_movi : exec (.movi c slot word) s = issueAlu s c slot word [0x31] (fun w g => perThread g (acting w g) (iDst w) (fun _ => iImm w)) := rfl
theorem exec_sel : exec (.sel c slot word) s = issueAlu s c slot word [0x32]
    (fun w g => perThread g (acting w g) (iDst w) (fun t => if predOf g (iPsel w) t then rget g (iA w) t else rget g (iB w) t)) := rfl
theorem exec_bsel : exec (.bsel c slot word) s = issueAlu s c slot word [0x33] (alu3 (fun _ a b c => opBsel a b c)) := rfl
theorem exec_xlane : exec (.xlane c slot word) s = issueAlu s c slot word [0x34] doXlane := rfl
theorem exec_rdsp : exec (.rdsp c slot word) s = issueOp s c slot word [0x35] (doRdsp c slot) := rfl

end

/-- Settles O24: logic and shifts are the bit vectors', and the bit fields are read off their bits. -/
theorem logicAndBitFields : Obligations.LogicAndBitFields := by
  intro s c slot word g b h
  dsimp only
  intro B C hI hR
  have hBC (ho : iOp word.toNat < 0x50) := operands_int ho hI hR
  refine ⟨fun ho => ?andI, fun ho => ?orI, fun ho => ?xorI, fun ho => ?shl, fun ho => ?shr, fun ho => ?pcnt, fun ho => ?clz,
    fun ho => ?bext, fun ho => ?bins⟩
  case andI => exact (writes_alu3 h (exec_andI ..) (List.mem_pair.mpr ho) (hBC (by omega)) (fun x y _ => (BitVec.toNat_and x y).symm) :)
  case orI => exact (writes_alu3 h (exec_orI ..) (List.mem_pair.mpr ho) (hBC (by omega)) (fun x y _ => (BitVec.toNat_or x y).symm) :)
  case xorI => exact (writes_alu3 h (exec_xorI ..) (List.mem_pair.mpr ho) (hBC (by omega)) (fun x y _ => (BitVec.toNat_xor x y).symm) :)
  case shl => exact (writes_alu3 h (exec_shl ..) (List.mem_pair.mpr ho) (hBC (by omega)) (fun x y _ => opShl_eq x y) :)
  case shr =>
    exact (writes_alu3 h (exec_shr ..) (List.mem_pair.mpr ho) (hBC (by omega)) (fun x y _ => (opShr_eq x y _).trans (if_congr (aux0_iff (by omega)) rfl rfl)) :)
  case pcnt => exact (writes_alu3 h (exec_pcnt ..) (List.mem_singleton.mpr ho) (hBC (by omega)) (fun x _ _ => popN_toNat x) :)
  case clz => exact (writes_alu3 h (exec_clz ..) (List.mem_singleton.mpr ho) (hBC (by omega)) (fun x _ _ => opClz_eq x) :)
  case bext =>
    refine ⟨_, (writes_alu3 h (exec_bext ..) (List.mem_pair.mpr ho) (hBC (by omega)) (fun _ _ _ => rfl) :), fun t k hk => ?_⟩
    rw [testBit_opBext _ _ _ hk, aux0_eq (by omega)]
    rfl
  case bins =>
    refine ⟨_, (writes_alu3 h (exec_bins ..) (List.mem_pair.mpr ho) (hBC (by omega)) (fun _ _ _ => rfl) :), fun t k hk => ?_⟩
    exact testBit_opBins _ _ _ hk

/-! ### Predicates and operands of format R -/

theorem predOf_eq_testBit (g : Grp) (i t : Nat) : predOf g i t = (tget 0 i g.p).testBit t := tb_eq_testBit _ _

theorem srcB_reg {w : Nat} (g : Grp) (h : ¬ (0x20 ≤ iOp w ∧ iOp w ≤ 0x2F ∨ 0x50 ≤ iOp w ∧ iOp w ≤ 0x54)) (t : Nat) : srcB w g t = rget g (iB w) t := if_neg h

theorem srcC_reg {w : Nat} (g : Grp) (h : ¬ (0x20 ≤ iOp w ∧ iOp w ≤ 0x2F ∨ 0x50 ≤ iOp w ∧ iOp w ≤ 0x54)) (t : Nat) : srcC w g t = rget g (iC w) t := if_neg h

/-- Settles O25: each instruction writes its threads' values, and BSEL's result is read off byte by byte. -/
theorem movesAndLaneInstructions : Obligations.MovesAndLaneInstructions := by
  intro s c slot word g b h
  dsimp only
  refine ⟨fun ho => ?mov, fun ho => ?movi, fun ho => ?sel, fun ho => ?bsel, fun ho => ?xlane, fun ho => ?rdsp⟩
  case mov => exact (does_of_issueAlu h (exec_mov c slot word s) (List.mem_singleton.mpr ho) :)
  case movi => exact (does_of_issueAlu h (exec_movi c slot word s) (List.mem_singleton.mpr ho) :)
  case sel =>
    have hd := does_of_issueAlu h (exec_sel c slot word s) (List.mem_singleton.mpr ho)
    simp only [predOf_eq_testBit] at hd
    exact hd
  case bsel =>
    refine ⟨_, (does_of_issueAlu h (exec_bsel c slot word s) (List.mem_singleton.mpr ho) :), fun t k hk => ?_⟩
    rw [bitsN_opBsel _ _ _ hk, srcB_reg g (by omega), srcC_reg g (by omega)]
    rfl
  case xlane =>
    have hd := does_of_issueAlu h (exec_xlane c slot word s) (List.mem_singleton.mpr ho)
    simp only [doXlane, tb_eq_testBit] at hd
    exact hd
  case rdsp => exact (does_of_issueOp h (exec_rdsp c slot word s) (List.mem_singleton.mpr ho) :)

end Sys2Proof.Proofs
end

section
/-! SUPPORT. Floating-point and packed instructions by the format of their word, and rounding of what a format holds exactly. -/

namespace Sys2Proof.Proofs

open Sys2Proof.Machine Sys2Proof.Laws

/-! ### Operands and modifiers of formats R and I -/

/-- Format I of the floating-point instructions. -/
abbrev ImmFp (w : Nat) : Prop := 0x50 ≤ iOp w ∧ iOp w ≤ 0x54

theorem operands_fp {w : Nat} {g : Grp} {B C : Nat → Nat} (ho : 0x40 ≤ iOp w) (hI : ImmFp w → ∀ t, B t = iImm w ∧ C t = rget g (iDst w) t)
    (hR : ¬ ImmFp w → ∀ t, B t = rget g (iB w) t ∧ C t = rget g (iC w) t) (t : Nat) : srcB w g t = B t ∧ srcC w g t = C t := by
  have hint : ¬ (0x20 ≤ iOp w ∧ iOp w ≤ 0x2F) := by omega
  by_cases h : ImmFp w
  · obtain ⟨hB, hC⟩ := hI h t
    exact ⟨by rw [srcB, if_pos (.inr h), hB], by rw [srcC, if_pos (.inr h), hC]⟩
  · obtain ⟨hB, hC⟩ := hR h t
    exact ⟨by rw [srcB_reg g (not_or.mpr ⟨hint, h⟩), hB], by rw [srcC_reg g (not_or.mpr ⟨hint, h⟩), hC]⟩

/-- The rounding mode of a word: RND of format I for its opcodes, else RND of format R. -/
def rndOf (w : Nat) : Nat := if iOp w < 0x50 ∨ 0x55 ≤ iOp w then iRnd w else iRndI w

theorem fpRnd_eq (w : Nat) : fpRnd w = rndOf w := by
  unfold fpRnd rndOf
  split
  · rw [if_neg (by omega)]
  · rw [if_pos (by omega)]

/-- Cutting a word to n bits leaves the bits below n. -/
theorem tb_mod_two_pow (w : Nat) {n i : Nat} (h : i < n) : tb (w % 2 ^ n) i = tb w i := by
  rw [tb_eq_testBit, tb_eq_testBit, Nat.testBit_mod_two_pow, decide_eq_true h, Bool.true_and]

theorem src_plain (f : Fmt) (w : Nat) : f.src false false false w = f.decode w := rfl

theorem dst_plain (f : Fmt) (rnd : Nat) (v : Fv) : f.dst rnd false false v = f.round rnd v := rfl

/-! ### Results -/

/-- The FP32 result of an exact operation: with the modifiers of format R, or rounded alone in format I (R195 to R199). -/
def fpResult (op : Fv → Fv → Fv → Fv) (w a b c : Nat) : Nat :=
  if iOp w < 0x50 then
    fp32.dst (iRnd w) (iFtz w) (iSat w) (op (fp32.src (iFtz w) (iAbsA w) (iNegA w) a) (fp32.src (iFtz w) false (iNegB w) b) (fp32.src (iFtz w) false false c))
  else fp32.round (iRndI w) (op (fp32.decode a) (fp32.decode b) (fp32.decode c))

theorem fp32Op_eq {w : Nat} (h : iOp w ≤ 0x54) (op : FpOp) (a b c : Nat) : fp32Op op w a b c = fpResult (op (rndOf w)) w a b c := by
  by_cases hR : iOp w < 0x50
  · have hn : ¬ (0x50 ≤ iOp w ∧ iOp w ≤ 0x54) := by omega
    have hrnd : iRnd w = rndOf w := (if_pos (.inl hR)).symm
    simp (disch := decide) only [fp32Op, fpResult, fpMods, fpRnd_eq, hrnd, if_neg hn, if_pos hR, iFtz, iSat, iAbsA, iNegA, iNegB, tb_mod_two_pow]
  · have hI : 0x50 ≤ iOp w ∧ iOp w ≤ 0x54 := by omega
    have hrnd : iRndI w = rndOf w := (if_neg (by omega)).symm
    have hzero (i : Nat) : tb 0 i = false := by rw [tb_eq_testBit, Nat.zero_testBit]
    simp only [fp32Op, fpResult, fpMods, fpRnd_eq, hrnd, if_pos hI, if_neg hR, iFtz, iSat, iAbsA, iNegA, iNegB, hzero, src_plain, dst_plain]

/-- The two 16-bit results of an exact operation (R201). -/
def pkResult (op : Fv → Fv → Fv → Fv) (w a b c : Nat) : Nat :=
  let f := if w.testBit 0 then bf16 else fp16
  let e (x k : Nat) : Nat := bitsN x (16 * k + 15) (16 * k)
  let r (k : Nat) : Nat := f.dst (iRnd w) (iFtz w) (iSat w)
    (op (f.src (iFtz w) (iAbsA w) (iNegA w) (e a k)) (f.src (iFtz w) false (iNegB w) (e b k)) (f.src (iFtz w) false false (e c k)))
  r 0 + 2 ^ 16 * r 1

theorem pkOp_eq {w : Nat} (h : 0x55 ≤ iOp w) (op : FpOp) (a b c : Nat) : pkOp op w a b c = pkResult (op (rndOf w)) w a b c := by
  have hrnd : rndOf w = iRnd w := if_pos (.inr h)
  have helem (x k : Nat) : bitsN x (16 * k + 15) (16 * k) = x / 2 ^ (16 * k) % 65536 := by
    rw [bitsN, Nat.shiftRight_eq_div_pow, show 16 * k + 15 + 1 - 16 * k = 16 by omega]
    rfl
  simp only [pkOp, pkResult, hrnd, helem, tb_eq_testBit]
  rfl

section

variable {i : Instr} {s : State} {c slot : Nat} {word : BitVec 64} {g : Grp} {b : Blk} {B C : Nat → Nat} {op : FpOp}

theorem writes_fp32 {o o' : Nat} (h : Issues s c slot word g b) (he : exec i s = issueAlu s c slot word [o, o'] (alu3 (fp32Op op)))
    (ho : iOp word.toNat = o ∨ iOp word.toNat = o') (hop : iOp word.toNat ≤ 0x54) (hBC : ∀ t, srcB word.toNat g t = B t ∧ srcC word.toNat g t = C t) :
    Writes i s c slot word g (fun t => fpResult (op (rndOf word.toNat)) word.toNat (rget g (iA word.toNat) t) (B t) (C t)) := by
  have hd := does_of_issueAlu h he (List.mem_pair.mpr ho)
  simp only [alu3, fp32Op_eq hop, (hBC _).1, (hBC _).2] at hd
  exact hd

theorem writes_pk {o : Nat} (h : Issues s c slot word g b) (he : exec i s = issueAlu s c slot word [o] (alu3 (pkOp op)))
    (ho : iOp word.toNat = o) (hop : 0x55 ≤ iOp word.toNat) (hBC : ∀ t, srcB word.toNat g t = B t ∧ srcC word.toNat g t = C t) :
    Writes i s c slot word g (fun t => pkResult (op (rndOf word.toNat)) word.toNat (rget g (iA word.toNat) t) (B t) (C t)) := by
  have hd := does_of_issueAlu h he (List.mem_singleton.mpr ho)
  simp only [alu3, pkOp_eq hop, (hBC _).1, (hBC _).2] at hd
  exact hd

end

/-! ### The commands -/

section

variable (c slot : Nat) (word : BitVec 64) (s : State)

theorem exec_fadd : exec (.fadd c slot word) s = issueAlu s c slot word [0x40, 0x50] (alu3 (fp32Op fpAdd)) := rfl
theorem exec_fmul : exec (.fmul c slot word) s = issueAlu s c slot word [0x41, 0x51] (alu3 (fp32Op fpMul)) := rfl
theorem exec_fmac : exec (.fmac c slot word) s = issueAlu s c slot word [0x42, 0x52] (alu3 (fp32Op fpMac)) := rfl
theorem exec_fmin : exec (.fmin c slot word) s = issueAlu s c slot word [0x43, 0x53] (alu3 (fp32Op fpMin)) := rfl
theorem exec_fmax : exec (.fmax c slot word) s = issueAlu s c slot word [0x44, 0x54] (alu3 (fp32Op fpMax)) := rfl
theorem exec_pkadd : exec (.pkadd c slot word) s = issueAlu s c slot word [0x60] (alu3 (pkOp fpAdd)) := rfl
theorem exec_pkmul : exec (.pkmul c slot word) s = issueAlu s c slot word [0x61] (alu3 (pkOp fpMul)) := rfl
theorem exec_pkmac : exec (.pkmac c slot word) s = issueAlu s c slot word [0x62] (alu3 (pkOp fpMac)) := rfl
theorem exec_pkmin : exec (.pkmin c slot word) s = issueAlu s c slot word [0x63] (alu3 (pkOp fpMin)) := rfl
theorem exec_pkmax : exec (.pkmax c slot word) s = issueAlu s c slot word [0x64] (alu3 (pkOp fpMax)) := rfl

end

/-- Settles O26: every instruction rounds one exact operation once, by the format of its word. -/
theorem floatingPointInstructions : Obligations.FloatingPointInstructions := by
  intro s c slot word g b h
  dsimp only
  intro B C hI hR
  have hBC (ho : 0x40 ≤ iOp word.toNat) := operands_fp ho hI hR
  refine ⟨fun ho => ?fadd, fun ho => ?fmul, fun ho => ?fmac, fun ho => ?fmin, fun ho => ?fmax,
    fun ho => ?pkadd, fun ho => ?pkmul, fun ho => ?pkmac, fun ho => ?pkmin, fun ho => ?pkmax⟩
  case fadd => exact (writes_fp32 h (exec_fadd ..) ho (by omega) (hBC (by omega)) :)
  case fmul => exact (writes_fp32 h (exec_fmul ..) ho (by omega) (hBC (by omega)) :)
  case fmac => exact (writes_fp32 h (exec_fmac ..) ho (by omega) (hBC (by omega)) :)
  case fmin => exact (writes_fp32 h (exec_fmin ..) ho (by omega) (hBC (by omega)) :)
  case fmax => exact (writes_fp32 h (exec_fmax ..) ho (by omega) (hBC (by omega)) :)
  case pkadd => exact (writes_pk h (exec_pkadd ..) ho (by omega) (hBC (by omega)) :)
  case pkmul => exact (writes_pk h (exec_pkmul ..) ho (by omega) (hBC (by omega)) :)
  case pkmac => exact (writes_pk h (exec_pkmac ..) ho (by omega) (hBC (by omega)) :)
  case pkmin => exact (writes_pk h (exec_pkmin ..) ho (by omega) (hBC (by omega)) :)
  case pkmax => exact (writes_pk h (exec_pkmax ..) ho (by omega) (hBC (by omega)) :)

/-! ### Rounding what a format holds -/

section

variable {f : Fmt} {rnd : Nat} {s : Bool} {t : Nat} {q : Int}

/-- A value on the format's grid, normal or of the least exponent, is its own grid point. -/
theorem grid_of_onGrid (ht : t < 2 ^ (f.mb + 1)) (hq : 2 ^ f.mb ≤ t ∧ 1 - (f.bias : Int) - f.mb ≤ q ∨ t ≠ 0 ∧ q = 1 - (f.bias : Int) - f.mb) : f.grid rnd s t q = (t, q) := by
  have hexp : max ((Nat.log2 t : Int) + q - f.mb) (1 - (f.bias : Int) - f.mb) = q := by
    obtain ⟨hnormal, hq⟩ | ⟨h0, hq⟩ := hq
    · have hlog : Nat.log2 t = f.mb := (Nat.log2_eq_iff (by have := Nat.two_pow_pos f.mb; omega)).mpr ⟨hnormal, ht⟩
      omega
    · have hlog : Nat.log2 t < f.mb + 1 := (Nat.log2_lt h0).mpr ht
      omega
  simp [Fmt.grid, hexp]

/-- The bits of a grid point's magnitude: the fraction alone, or with the exponent above it. -/
def gridBits (f : Fmt) (t : Nat) (q : Int) : Nat := if t < 2 ^ f.mb then t else (q + f.mb + f.bias).toNat * 2 ^ f.mb + (t - 2 ^ f.mb)

theorem round_of_onGrid (h0 : t ≠ 0) (ht : t < 2 ^ (f.mb + 1)) (hq : 2 ^ f.mb ≤ t ∧ 1 - (f.bias : Int) - f.mb ≤ q ∨ q = 1 - (f.bias : Int) - f.mb)
    (hb : gridBits f t q ≤ f.maxBits) : f.round rnd (.num s t q) = f.signed s (gridBits f t q) := by
  have hmag : f.magBits t q = some (gridBits f t q) := by
    unfold gridBits at hb ⊢
    simp only [Fmt.magBits, h0, Nat.not_le.mpr ht, if_false, hb, if_true]
  simp only [Fmt.round, h0, grid_of_onGrid ht (hq.imp_right fun hq => ⟨h0, hq⟩), hmag, if_false]

end

/-! ### The fields of a code -/

/-- The exponent field of a code. -/
def expField (f : Fmt) (w : Nat) : Nat := bitsN w (f.eb + f.mb - 1) f.mb

section

variable {f : Fmt} {w : Nat}

theorem expField_eq (heb : 1 ≤ f.eb) : expField f w = w / 2 ^ f.mb % 2 ^ f.eb := by
  rw [expField, bitsN, Nat.shiftRight_eq_div_pow, show f.eb + f.mb - 1 + 1 - f.mb = f.eb by omega]

theorem expField_le (heb : 1 ≤ f.eb) : expField f w ≤ 2 ^ f.eb - 1 := by
  rw [expField_eq heb]
  exact Nat.le_sub_one_of_lt (Nat.mod_lt _ (Nat.two_pow_pos _))

/-- A code is its sign, its exponent field and its fraction. -/
theorem signed_fields (heb : 1 ≤ f.eb) (hw : w < 2 ^ f.width) : f.signed (tb w (f.eb + f.mb)) (expField f w * 2 ^ f.mb + w % 2 ^ f.mb) = w := by
  have hmag : expField f w * 2 ^ f.mb + w % 2 ^ f.mb = w % 2 ^ (f.eb + f.mb) := by
    rw [expField_eq heb, Nat.add_comm f.eb, Nat.pow_add, Nat.mod_mul]
    ring
  have hsign : (if tb w (f.eb + f.mb) then 2 ^ (f.eb + f.mb) else 0) = 2 ^ (f.eb + f.mb) * (w / 2 ^ (f.eb + f.mb)) := by
    have hlt : w / 2 ^ (f.eb + f.mb) < 2 := Nat.div_lt_of_lt_mul (hw.trans_eq (by rw [Fmt.width]; ring))
    rw [tb, Nat.shiftRight_eq_div_pow]
    obtain h | h := Nat.le_one_iff_eq_zero_or_eq_one.mp (Nat.le_of_lt_succ hlt)
    · simp [h]
    · simp [h]
  rw [Fmt.signed, hmag, hsign, Nat.div_add_mod]

theorem maxBits_succ (hk : f.kind = .ieee) (heb : 1 ≤ f.eb) : f.maxBits + 1 = (2 ^ f.eb - 1) * 2 ^ f.mb := by
  have hpos : 0 < (2 ^ f.eb - 1) * 2 ^ f.mb := Nat.mul_pos (Nat.sub_pos_of_lt (Nat.one_lt_two_pow (by omega))) (Nat.two_pow_pos _)
  rw [Fmt.maxBits, hk]
  exact Nat.sub_add_cancel hpos

/-- Below the top exponent the magnitude's bits are those of a finite value. -/
theorem fields_le_maxBits (hk : f.kind = .ieee) (heb : 1 ≤ f.eb) (hx : expField f w ≠ 2 ^ f.eb - 1) : expField f w * 2 ^ f.mb + w % 2 ^ f.mb ≤ f.maxBits := by
  have hr : w % 2 ^ f.mb < 2 ^ f.mb := Nat.mod_lt _ (Nat.two_pow_pos _)
  have hstep : (expField f w + 1) * 2 ^ f.mb ≤ (2 ^ f.eb - 1) * 2 ^ f.mb := Nat.mul_le_mul_right _ (Nat.lt_of_le_of_ne (expField_le heb) hx)
  rw [← maxBits_succ hk heb, Nat.succ_mul] at hstep
  omega

/-! ### Decoding by the exponent field -/

theorem decode_top (hk : f.kind = .ieee) (hx : expField f w = 2 ^ f.eb - 1) :
    f.decode w = if w % 2 ^ f.mb = 0 then .inf (tb w (f.eb + f.mb)) else .nan := if_pos ⟨hk, hx⟩

theorem decode_least (hk : f.kind = .ieee) (htop : expField f w ≠ 2 ^ f.eb - 1) (hx : expField f w = 0) :
    f.decode w = .num (tb w (f.eb + f.mb)) (w % 2 ^ f.mb) (1 - (f.bias : Int) - f.mb) := by
  rw [hx] at htop
  unfold expField at hx
  simp only [Fmt.decode, hk, htop, hx, true_and, reduceCtorEq, false_and, if_true, if_false]

theorem decode_normal (hk : f.kind = .ieee) (htop : expField f w ≠ 2 ^ f.eb - 1) (hx : expField f w ≠ 0) :
    f.decode w = .num (tb w (f.eb + f.mb)) (2 ^ f.mb + w % 2 ^ f.mb) ((expField f w : Int) - f.bias - f.mb) := by
  unfold expField at htop hx ⊢
  simp only [Fmt.decode, hk, htop, hx, true_and, reduceCtorEq, false_and, if_false]

/-- Rounding a decoded code of an IEEE format gives the code back, in every mode, but for NaN (R195). -/
theorem round_decode (hk : f.kind = .ieee) (heb : 1 ≤ f.eb) (hw : w < 2 ^ f.width) (hn : f.decode w ≠ .nan) (rnd : Nat) : f.round rnd (f.decode w) = w := by
  have hr : w % 2 ^ f.mb < 2 ^ f.mb := Nat.mod_lt _ (Nat.two_pow_pos _)
  have hfields := signed_fields heb hw
  by_cases htop : expField f w = 2 ^ f.eb - 1
  case pos =>
    rw [decode_top hk htop] at hn ⊢
    have hr0 : w % 2 ^ f.mb = 0 := by
      by_contra h
      exact hn (if_neg h)
    rw [htop, hr0, Nat.add_zero, ← maxBits_succ hk heb] at hfields
    rw [if_pos hr0]
    exact hfields
  case neg =>
    have hbits := fields_le_maxBits hk heb htop
    by_cases hx : expField f w = 0
    case pos =>
      rw [hx, Nat.zero_mul, Nat.zero_add] at hfields hbits
      rw [decode_least hk htop hx]
      by_cases hr0 : w % 2 ^ f.mb = 0
      · rw [hr0] at hfields ⊢
        exact hfields
      · have hg : gridBits f (w % 2 ^ f.mb) (1 - (f.bias : Int) - f.mb) = w % 2 ^ f.mb := if_pos hr
        rw [round_of_onGrid hr0 (by omega) (.inr rfl) (by rwa [hg]), hg, hfields]
    case neg =>
      have hg : gridBits f (2 ^ f.mb + w % 2 ^ f.mb) ((expField f w : Int) - f.bias - f.mb) = expField f w * 2 ^ f.mb + w % 2 ^ f.mb := by
        rw [gridBits, if_neg (by omega), Nat.add_sub_cancel_left, show ((expField f w : Int) - f.bias - f.mb + f.mb + f.bias).toNat = expField f w by omega]
      rw [decode_normal hk htop hx, round_of_onGrid (by omega) (by omega) (.inl ⟨by omega, by omega⟩) (by rwa [hg]), hg, hfields]

end

/-- Settles O27: the three formats are IEEE formats, and each has one canonical NaN. -/
theorem roundingKeepsRepresentableValues : Obligations.RoundingKeepsRepresentableValues := by
  intro f rnd w hf hw
  obtain ⟨hk, heb⟩ : f.kind = .ieee ∧ 1 ≤ f.eb := by obtain rfl | rfl | rfl := hf <;> decide
  have hnan : f.nanBits = if f = fp32 then 0x7FC00000 else if f = fp16 then 0x7E00 else 0x7FC0 := by obtain rfl | rfl | rfl := hf <;> decide
  exact ⟨fun h => round_decode hk heb hw h rnd, fun h => by rw [h]; exact hnan⟩

end Sys2Proof.Proofs
end

section
/-! SUPPORT. Predicates and uniform results: how the predicates read after a write, and what each instruction leaves of its group. -/

namespace Sys2Proof.Proofs

open Sys2Proof.Machine Sys2Proof.Laws

/-! ### Masks made bit by bit -/

theorem maskN_succ (n : Nat) (p : Nat → Bool) : maskN (n + 1) p = maskN n p + if p n then 2 ^ n else 0 := by
  rw [maskN, List.range_succ, List.foldl_concat, ← maskN]

theorem maskN_lt (n : Nat) (p : Nat → Bool) : maskN n p < 2 ^ n := by
  induction n with
  | zero => exact Nat.one_pos
  | succ n ih =>
    rw [maskN_succ, Nat.pow_succ]
    split <;> omega

theorem testBit_maskN (n : Nat) (p : Nat → Bool) (i : Nat) : (maskN n p).testBit i = (decide (i < n) && p i) := by
  induction n with
  | zero => simp [maskN]
  | succ n ih =>
    obtain h | h := Nat.lt_or_ge n i
    · rw [Nat.testBit_lt_two_pow ((maskN_lt (n + 1) p).trans_le (Nat.pow_le_pow_right Nat.two_pos h)), decide_eq_false (by omega), Bool.false_and]
    · have hsum : maskN (n + 1) p = 2 ^ n * (p n).toNat + maskN n p := by
        rw [maskN_succ, Nat.add_comm]
        cases p n <;> simp
      rw [hsum, Nat.testBit_two_pow_mul_add _ (maskN_lt n p), ih]
      obtain h | rfl := Nat.lt_or_eq_of_le h
      · simp [h, Nat.lt_succ_of_lt h]
      · cases p i <;> simp

theorem testBit_predMask (mask : Nat) (f : Nat → Bool) (t : Nat) : (predMask mask f).testBit t = (decide (t < 64) && (mask.testBit t && f t)) := by
  rw [predMask, testBit_maskN, tb_eq_testBit]

/-! ### Writing a predicate -/

/-- The predicates after predicate i takes the bits given in the threads of a mask. -/
def predsAfter (p : Tab Nat) (i mask bits : Nat) : Tab Nat :=
  tput 0 i ((tget 0 i p &&& (allThreads - mask % 2 ^ 64)) ||| (bits &&& (mask % 2 ^ 64))) p

theorem setPreds_eq (g : Grp) (i mask bits : Nat) : setPreds g i mask bits = { g with p := predsAfter g.p i mask bits } := rfl

theorem tget_predsAfter_ne (p : Tab Nat) {i k : Nat} (mask bits : Nat) (h : k ≠ i) : tget 0 k (predsAfter p i mask bits) = tget 0 k p := tget_tput_ne _ _ h _

theorem testBit_predsAfter (p : Tab Nat) (i mask bits : Nat) {t : Nat} (ht : t < 64) :
    (tget 0 i (predsAfter p i mask bits)).testBit t = if mask.testBit t then bits.testBit t else (tget 0 i p).testBit t := by
  have hmask : (mask % 2 ^ 64).testBit t = mask.testBit t := by rw [Nat.testBit_mod_two_pow, decide_eq_true ht, Bool.true_and]
  have hrest : (allThreads - mask % 2 ^ 64).testBit t = !mask.testBit t := by
    rw [allThreads, Nat.sub_sub, Nat.add_comm, Nat.testBit_two_pow_sub_succ (Nat.mod_lt _ (Nat.two_pow_pos 64)), hmask, decide_eq_true ht, Bool.true_and]
  rw [predsAfter, tget_tput_same, Nat.testBit_or, Nat.testBit_and, Nat.testBit_and, hmask, hrest]
  cases mask.testBit t <;> simp

/-! ### Instructions that set one predicate -/

/-- The predicates q differ from those of g in predicate j of the threads of a mask alone, where each takes its value. -/
def SetsPred (g : Grp) (mask j : Nat) (val : Nat → Bool) (q : Tab Nat) : Prop :=
  (∀ t, t < 64 → (tget 0 j q).testBit t = if mask.testBit t then val t else (tget 0 j g.p).testBit t) ∧ ∀ k, k ≠ j → tget 0 k q = tget 0 k g.p

theorem setsPred_predsAfter (g : Grp) (mask j : Nat) {bits : Nat} {val : Nat → Bool} (h : ∀ t, t < 64 → mask.testBit t = true → bits.testBit t = val t) :
    SetsPred g mask j val (predsAfter g.p j mask bits) := by
  refine ⟨fun t ht => ?_, fun k hk => tget_predsAfter_ne _ _ _ hk⟩
  rw [testBit_predsAfter _ _ _ _ ht]
  split
  · next hm => exact h t ht hm
  · rfl

/-- An instruction that sets predicate j in the threads of a mask changes nothing else of its group. -/
theorem sets_pred_of_issueAlu {i : Instr} {s : State} {c slot : Nat} {word : BitVec 64} {g : Grp} {b : Blk} {ops : List Nat} {f : Nat → Grp → Grp} {mask j bits : Nat}
    {val : Nat → Bool} (h : Issues s c slot word g b) (he : exec i s = issueAlu s c slot word ops f) (ho : iOp word.toNat ∈ ops)
    (hf : f word.toNat g = { g with p := predsAfter g.p j mask bits }) (hv : ∀ t, t < 64 → mask.testBit t = true → bits.testBit t = val t) :
    ∃ q, Does i s (setGrp s.chip c slot (some (advance { g with p := q }))) ∧ SetsPred g mask j val q :=
  ⟨_, hf ▸ does_of_issueAlu h he ho, setsPred_predsAfter g _ _ hv⟩

theorem testBit_predMask_acting {mask : Nat} (f : Nat → Bool) {t : Nat} (ht : t < 64) (hm : mask.testBit t = true) : (predMask mask f).testBit t = f t := by
  rw [testBit_predMask, hm, decide_eq_true ht, Bool.true_and, Bool.true_and]

/-- A mask that is all threads or none by one decision. -/
theorem testBit_all_or_none {mask : Nat} (p : Prop) [Decidable p] {t : Nat} (hm : mask.testBit t = true) : (if p then mask else 0).testBit t = decide p := by
  split
  · next hp => rw [hm, decide_eq_true hp]
  · next hp => rw [Nat.zero_testBit, decide_eq_false hp]

/-- R207: the whole comparison in thread t. -/
theorem cmpResult_eq (w : Nat) (g : Grp) (x : Nat → Bool) (t : Nat) : cmpResult w g x t = combine (iAux w / 32 % 4) (x t) ((tget 0 (iPsel w) g.p).testBit t) := by
  rw [cmpResult, predOf_eq_testBit]

/-- PCOMB's combination of two predicates (R208). -/
def pcombine (k : Nat) (x y : Bool) : Bool := if k = 0 then x && y else if k = 1 then x || y else x != y

section

variable (w : Nat) (g : Grp)

theorem doIcmp_eq : doIcmp w g = { g with p := predsAfter g.p (iDst w % 8) (acting w g) (predMask (acting w g) (fun t =>
    combine (iAux w / 32 % 4) (cmpInt (iAux w % 16) (w.testBit 4) (rget g (iA w) t) (rget g (iB w) t)) ((tget 0 (iPsel w) g.p).testBit t))) } := by
  simp only [doIcmp, setPreds_eq, funext (cmpResult_eq w g _), tb_eq_testBit]

theorem doFcmp_eq : doFcmp w g = { g with p := predsAfter g.p (iDst w % 8) (acting w g) (predMask (acting w g) (fun t =>
    combine (iAux w / 32 % 4) (cmpFp (iAux w % 16) (fp32.src (iFtz w) (iAbsA w) (iNegA w) (rget g (iA w) t)) (fp32.src (iFtz w) false (iNegB w) (rget g (iB w) t)))
      ((tget 0 (iPsel w) g.p).testBit t))) } := by
  simp only [doFcmp, setPreds_eq, funext (cmpResult_eq w g _)]

theorem doPcomb_eq : doPcomb w g = { g with p := predsAfter g.p (iDst w % 8) (acting w g) (predMask (acting w g) (fun t =>
    pcombine (iAux w) ((tget 0 (iA w % 8) g.p).testBit t != iNegA w) ((tget 0 (iB w % 8) g.p).testBit t != iNegB w))) } := by
  have hcode : iAux w = 0 ∨ iAux w = 1 ∨ ∃ n, iAux w = n + 2 := by
    obtain h | h | h : iAux w = 0 ∨ iAux w = 1 ∨ 2 ≤ iAux w := by omega
    · exact .inl h
    · exact .inr (.inl h)
    · exact .inr (.inr (Nat.exists_eq_add_of_le' h))
  obtain h | h | ⟨n, h⟩ := hcode <;> simp [doPcomb, pcombine, h, setPreds_eq, predOf_eq_testBit]

theorem doPgrp_or (h : iAux w = 0) : doPgrp w g =
    { g with p := predsAfter g.p (iDst w % 8) (acting w g) (if tget 0 (iA w % 8) g.p &&& acting w g ≠ 0 then acting w g else 0) } := by
  rw [doPgrp, h]
  rfl

theorem doPgrp_and (h : iAux w = 1) : doPgrp w g =
    { g with p := predsAfter g.p (iDst w % 8) (acting w g) (if tget 0 (iA w % 8) g.p &&& acting w g = acting w g then acting w g else 0) } := by
  rw [doPgrp, h]
  rfl

theorem doPgrp_mask (h : iAux w = 2) : doPgrp w g = rput64 g (iDst w) 0 (tget 0 (iA w % 8) g.p &&& acting w g) := by
  rw [doPgrp, h]
  rfl

end

/-! ### V2P -/

/-- The predicates after V2P has gone through those below n. -/
def v2pPreds (w : Nat) (g : Grp) : Nat → Tab Nat
  | 0 => g.p
  | n + 1 => if (iAux w).testBit n then predsAfter (v2pPreds w g n) n (acting w g) (predMask (acting w g) (fun t => (rget g (iA w) t).testBit n)) else v2pPreds w g n

theorem doV2p_eq (w : Nat) (g : Grp) : doV2p w g = { g with p := v2pPreds w g 8 } := by
  have hfold (n : Nat) : (List.range n).foldl (fun h i => if tb (iAux w) i then setPreds h i (acting w g) (predMask (acting w g) (fun t => tb (rget g (iA w) t) i)) else h) g =
      { g with p := v2pPreds w g n } := by
    induction n with
    | zero => rfl
    | succ n ih =>
      rw [List.range_succ, List.foldl_concat, ih, v2pPreds]
      simp only [tb_eq_testBit]
      split <;> rfl
  exact hfold 8

/-- R210: a predicate is written at its own turn alone. -/
theorem testBit_v2pPreds (w : Nat) (g : Grp) (n i : Nat) {t : Nat} (ht : t < 64) :
    (tget 0 i (v2pPreds w g n)).testBit t =
      if i < n ∧ ((acting w g).testBit t && (iAux w).testBit i) = true then (rget g (iA w) t).testBit i else (tget 0 i g.p).testBit t := by
  induction n with
  | zero => simp [v2pPreds]
  | succ n ih =>
    rw [v2pPreds]
    by_cases hi : i = n
    · subst hi
      rw [if_neg (by omega)] at ih
      split
      · next hsel =>
        rw [testBit_predsAfter _ _ _ _ ht, ih]
        by_cases hact : (acting w g).testBit t = true
        · simp [hact, hsel, testBit_predMask_acting _ ht hact]
        · simp [hact]
      · next hsel => simp [ih, hsel]
    · have hkeep : tget 0 i (if (iAux w).testBit n then predsAfter (v2pPreds w g n) n (acting w g) (predMask (acting w g) (fun t => (rget g (iA w) t).testBit n))
          else v2pPreds w g n) = tget 0 i (v2pPreds w g n) := by
        split
        · exact tget_predsAfter_ne _ _ _ hi
        · rfl
      rw [hkeep, ih]
      exact if_congr (and_congr_left' (by omega)) rfl rfl

/-! ### The commands -/

section

variable (c slot : Nat) (word : BitVec 64) (s : State)

theorem exec_icmp : exec (.icmp c slot word) s = issueAlu s c slot word [0x80] doIcmp := rfl
theorem exec_fcmp : exec (.fcmp c slot word) s = issueAlu s c slot word [0x81] doFcmp := rfl
theorem exec_pcomb : exec (.pcomb c slot word) s = issueAlu s c slot word [0x82] doPcomb := rfl
theorem exec_pgrp : exec (.pgrp c slot word) s = issueAlu s c slot word [0x83] doPgrp := rfl
theorem exec_p2v : exec (.p2v c slot word) s = issueAlu s c slot word [0x84] (fun w g => perThread g (acting w g) (iDst w) (fun t => maskN 8 (fun i => predOf g i t))) := rfl
theorem exec_v2p : exec (.v2p c slot word) s = issueAlu s c slot word [0x85] doV2p := rfl

end

/-- Settles O29: each instruction writes one predicate in the acting threads, or for V2P one after the other, and P2V gathers their bits. -/
theorem predicateInstructions : Obligations.PredicateInstructions := by
  intro s c slot word g b h
  dsimp only
  have pgrp (ho : iOp word.toNat = 0x83) := does_of_issueAlu h (exec_pgrp c slot word s) (List.mem_singleton.mpr ho)
  refine ⟨fun ho => ?icmp, fun ho => ?fcmp, fun ho => ?pcomb, fun ho hx => ?pgrpOr, fun ho hx => ?pgrpAnd, fun ho hx => ?pgrpMask, fun ho => ?p2v, fun ho => ?v2p⟩
  case icmp => exact sets_pred_of_issueAlu h (exec_icmp ..) (List.mem_singleton.mpr ho) (doIcmp_eq _ g) fun _ => testBit_predMask_acting _
  case fcmp => exact sets_pred_of_issueAlu h (exec_fcmp ..) (List.mem_singleton.mpr ho) (doFcmp_eq _ g) fun _ => testBit_predMask_acting _
  case pcomb => exact sets_pred_of_issueAlu h (exec_pcomb ..) (List.mem_singleton.mpr ho) (doPcomb_eq _ g) fun _ => testBit_predMask_acting _
  case pgrpOr => exact sets_pred_of_issueAlu h (exec_pgrp ..) (List.mem_singleton.mpr ho) (doPgrp_or _ g hx) fun _ _ => testBit_all_or_none _
  case pgrpAnd => exact sets_pred_of_issueAlu h (exec_pgrp ..) (List.mem_singleton.mpr ho) (doPgrp_and _ g hx) fun _ _ => testBit_all_or_none _
  case pgrpMask => exact doPgrp_mask _ g hx ▸ pgrp ho
  case p2v =>
    refine ⟨_, (does_of_issueAlu h (exec_p2v c slot word s) (List.mem_singleton.mpr ho) :), fun t => ⟨maskN_lt _ _, fun i hi => ?_⟩⟩
    rw [testBit_maskN, decide_eq_true hi, Bool.true_and, predOf_eq_testBit]
  case v2p =>
    refine ⟨_, doV2p_eq _ g ▸ does_of_issueAlu h (exec_v2p c slot word s) (List.mem_singleton.mpr ho), fun i t hi ht => ?_⟩
    rw [testBit_v2pPreds _ _ _ _ ht]
    exact if_congr (and_iff_right hi) rfl rfl

/-! ### Uniform instructions -/

section

variable (x y : BitVec 32)

theorem sub_toNat : (x.toNat + 2 ^ 32 - y.toNat) % 2 ^ 32 = (x - y).toNat := by
  have hy := y.isLt
  rw [BitVec.toNat_sub]
  congr 1
  omega

theorem opShr_logical : opShr false x.toNat y.toNat = (x >>> (y.toNat % 64)).toNat := opShr_eq x y false

end

/-- What a uniform instruction of two operands writes, its operation stated on bit vectors. -/
theorem does_uni2 {i : Instr} {s : State} {c slot : Nat} {word : BitVec 64} {g : Grp} {b : Blk} {o : Nat} {f : Nat → Nat → Nat} {val : BitVec 32 → BitVec 32 → Nat}
    (h : Issues s c slot word g b) (he : exec i s = issueAlu s c slot word [o] (uni2 f)) (ho : iOp word.toNat = o) (hf : ∀ x y : BitVec 32, f x.toNat y.toNat = val x y) :
    Does i s (setGrp s.chip c slot (some (advance (rput g (iDst word.toNat) 0 (val (reg32 g (iA word.toNat) 0) (reg32 g (iB word.toNat) 0)))))) := by
  have hd := does_of_issueAlu h he (List.mem_singleton.mpr ho)
  simp only [uni2, ← reg32_toNat, hf] at hd
  exact hd

/-- R207: one comparison, in every live thread. -/
theorem doUcmp_eq (w : Nat) (g : Grp) : doUcmp w g = { g with p := predsAfter g.p (iDst w % 8) g.live (predMask g.live (fun t =>
    combine (iAux w / 32 % 4) (cmpInt (iAux w % 16) (w.testBit 4) (rget g (iA w) 0) (rget g (iB w) 0)) ((tget 0 (iPsel w) g.p).testBit t))) } := by
  simp only [doUcmp, setPreds_eq, funext (cmpResult_eq w g _), tb_eq_testBit]

section

variable {c slot w : Nat} {g : Grp} {b : Blk} {m : Chip}

theorem doUrdsp_lt (h : iAux w = 9) : doUrdsp c slot w g b m = setGrp m c slot (some (advance (rput64 g (iDst w) 0 (specialReg m c g b 9)))) := by
  simp only [doUrdsp, h, if_true]

theorem doUrdsp_single (h : iAux w ≠ 9) : doUrdsp c slot w g b m = setGrp m c slot (some (advance (rput g (iDst w) 0 (specialReg m c g b (iAux w))))) := by
  simp only [doUrdsp, h, if_false]

end

section

variable (c slot : Nat) (word : BitVec 64) (s : State)

theorem exec_uadd : exec (.uadd c slot word) s = issueAlu s c slot word [0x90] (uni2 (fun a b => (a + b) % 2 ^ 32)) := rfl
theorem exec_usub : exec (.usub c slot word) s = issueAlu s c slot word [0x91] (uni2 (fun a b => (a + 2 ^ 32 - b) % 2 ^ 32)) := rfl
theorem exec_umul : exec (.umul c slot word) s = issueAlu s c slot word [0x92] (uni2 (fun a b => a * b % 2 ^ 32)) := rfl
theorem exec_uand : exec (.uand c slot word) s = issueAlu s c slot word [0x93] (uni2 (fun a b => a &&& b)) := rfl
theorem exec_uor : exec (.uor c slot word) s = issueAlu s c slot word [0x94] (uni2 (fun a b => a ||| b)) := rfl
theorem exec_uxor : exec (.uxor c slot word) s = issueAlu s c slot word [0x95] (uni2 (fun a b => a ^^^ b)) := rfl
theorem exec_ushl : exec (.ushl c slot word) s = issueAlu s c slot word [0x96] (uni2 opShl) := rfl
theorem exec_ushr : exec (.ushr c slot word) s = issueAlu s c slot word [0x97] (uni2 (opShr false)) := rfl
theorem exec_umov : exec (.umov c slot word) s = issueAlu s c slot word [0x98] (fun w g => rput g (iDst w) 0 (rget g (iA w) 0)) := rfl
theorem exec_umovi : exec (.umovi c slot word) s = issueAlu s c slot word [0x99] (fun w g => rput g (iDst w) 0 (iImm w)) := rfl
theorem exec_uadd64 : exec (.uadd64 c slot word) s = issueAlu s c slot word [0x9A]
    (fun w g => rput64 g (iDst w) 0 ((rget64 g (iA w) 0 + rget64 g (iB w) 0) % 2 ^ 64)) := rfl
theorem exec_ucmp : exec (.ucmp c slot word) s = issueAlu s c slot word [0x9B] doUcmp := rfl
theorem exec_urdsp : exec (.urdsp c slot word) s = issueOp s c slot word [0x9C] (doUrdsp c slot) := rfl

end

/-- Settles O30: each operation is the bit vectors' at the group's operands, and UCMP writes one predicate in the live threads. -/
theorem uniformInstructions : Obligations.UniformInstructions := by
  intro s c slot word g b h
  dsimp only
  have urdsp (ho : iOp word.toNat = 0x9C) := does_of_issueOp h (exec_urdsp c slot word s) (List.mem_singleton.mpr ho)
  refine ⟨fun ho => ?uadd, fun ho => ?usub, fun ho => ?umul, fun ho => ?uand, fun ho => ?uor, fun ho => ?uxor, fun ho => ?ushl, fun ho => ?ushr, fun ho => ?umov,
    fun ho => ?umovi, fun ho => ?uadd64, fun ho => ?ucmp, fun ho hx => ?urdspLt, fun ho hx => ?urdspSingle⟩
  case uadd => exact (does_uni2 h (exec_uadd ..) ho fun x y => (BitVec.toNat_add x y).symm :)
  case usub => exact (does_uni2 h (exec_usub ..) ho sub_toNat :)
  case umul => exact (does_uni2 h (exec_umul ..) ho fun x y => (BitVec.toNat_mul x y).symm :)
  case uand => exact (does_uni2 h (exec_uand ..) ho fun x y => (BitVec.toNat_and x y).symm :)
  case uor => exact (does_uni2 h (exec_uor ..) ho fun x y => (BitVec.toNat_or x y).symm :)
  case uxor => exact (does_uni2 h (exec_uxor ..) ho fun x y => (BitVec.toNat_xor x y).symm :)
  case ushl => exact (does_uni2 h (exec_ushl ..) ho opShl_eq :)
  case ushr => exact (does_uni2 h (exec_ushr ..) ho opShr_logical :)
  case umov =>
    rw [reg32_toNat]
    exact (does_of_issueAlu h (exec_umov c slot word s) (List.mem_singleton.mpr ho) :)
  case umovi => exact (does_of_issueAlu h (exec_umovi c slot word s) (List.mem_singleton.mpr ho) :)
  case uadd64 =>
    have hd := does_of_issueAlu h (exec_uadd64 c slot word s) (List.mem_singleton.mpr ho)
    simp only [← reg64_toNat, ← BitVec.toNat_add] at hd
    exact hd
  case ucmp =>
    rw [reg32_toNat, reg32_toNat]
    exact sets_pred_of_issueAlu h (exec_ucmp ..) (List.mem_singleton.mpr ho) (doUcmp_eq _ g) fun _ => testBit_predMask_acting _
  case urdspLt => exact doUrdsp_lt hx ▸ urdsp ho
  case urdspSingle => exact doUrdsp_single hx ▸ urdsp ho

end Sys2Proof.Proofs
end

section
/-! SUPPORT. Tile instructions: how a tile reads after its elements are written, and what joins the matrix unit. -/

namespace Sys2Proof.Proofs

open Sys2Proof.Machine Sys2Proof.Laws

/-! ### Elements of a tile -/

/-- The elements of tile t that acting threads own, with their values, in the order they are written. -/
def tileWrites (t act : Nat) (val : Nat → Nat → Nat) : List (Nat × Nat) :=
  (List.range 32).flatMap (fun j => ((List.range 32).filter (fun i => tb act (tileOwner i j))).map (fun i => (1024 * t + 32 * i + j, val i j)))

theorem tileWrite_eq (g : Grp) (t act : Nat) (val : Nat → Nat → Nat) : tileWrite g t act val = { g with tiles := tputs (tileWrites t act val) g.tiles } := rfl

theorem mem_tileWrites {t act : Nat} {val : Nat → Nat → Nat} {p : Nat × Nat} :
    p ∈ tileWrites t act val ↔ ∃ j, j < 32 ∧ ∃ i, (i < 32 ∧ act.testBit (i % 2 * 32 + j) = true) ∧ (1024 * t + 32 * i + j, val i j) = p := by
  simp only [tileWrites, List.mem_flatMap, List.mem_map, List.mem_filter, List.mem_range, tb_eq_testBit, tileOwner]

theorem tileAt_tileWrite_same (g : Grp) (t act : Nat) (val : Nat → Nat → Nat) {i j : Nat} (hi : i < 32) (hj : j < 32) :
    tileAt (tileWrite g t act val) t i j = if act.testBit (i % 2 * 32 + j) then val i j else tileAt g t i j := by
  have hplace {i' j' : Nat} (hi' : i' < 32) (hj' : j' < 32) (he : 1024 * t + 32 * i' + j' = 1024 * t + 32 * i + j) : i' = i ∧ j' = j := by omega
  have hval : ∀ p ∈ tileWrites t act val, p.1 = 1024 * t + 32 * i + j → p.2 = val i j := by
    intro p hp he
    obtain ⟨j', hj', i', ⟨hi', -⟩, rfl⟩ := mem_tileWrites.mp hp
    obtain ⟨rfl, rfl⟩ := hplace hi' hj' he
    rfl
  have hmem : 1024 * t + 32 * i + j ∈ (tileWrites t act val).map Prod.fst ↔ act.testBit (i % 2 * 32 + j) = true := by
    constructor
    · intro h
      obtain ⟨p, hp, he⟩ := List.mem_map.mp h
      obtain ⟨j', hj', i', ⟨hi', hown⟩, rfl⟩ := mem_tileWrites.mp hp
      obtain ⟨rfl, rfl⟩ := hplace hi' hj' he
      exact hown
    · exact fun hown => List.mem_map_of_mem (f := Prod.fst) (mem_tileWrites.mpr ⟨j, hj, i, ⟨hi, hown⟩, rfl⟩)
  rw [tileWrite_eq, tileAt, tget_tputs hval]
  exact if_congr hmem rfl rfl

theorem tileAt_tileWrite_ne (g : Grp) {t u : Nat} (act : Nat) (val : Nat → Nat → Nat) (hu : u ≠ t) {i j : Nat} (hi : i < 32) (hj : j < 32) :
    tileAt (tileWrite g t act val) u i j = tileAt g u i j := by
  rw [tileWrite_eq, tileAt, tget_tputs_of_not_mem, tileAt]
  intro p hp
  obtain ⟨j', hj', i', ⟨hi', -⟩, rfl⟩ := mem_tileWrites.mp hp
  dsimp only
  omega

/-- The group h is g with the elements of tile t that acting threads own taking their values (R247). -/
def TakesTile (g : Grp) (act t : Nat) (val : Nat → Nat → Nat) (h : Grp) : Prop :=
  ∃ x, h = { g with tiles := x } ∧
    (∀ i j, i < 32 → j < 32 → tileAt h t i j = if act.testBit (i % 2 * 32 + j) then val i j else tileAt g t i j) ∧
    (∀ u i j, u < 4 → u ≠ t → i < 32 → j < 32 → tileAt h u i j = tileAt g u i j)

theorem takesTile_tileWrite (g : Grp) (t act : Nat) (val : Nat → Nat → Nat) : TakesTile g act t val (tileWrite g t act val) :=
  ⟨_, tileWrite_eq g t act val, fun _ _ hi hj => tileAt_tileWrite_same g t act val hi hj, fun _ _ _ _ hu hi hj => tileAt_tileWrite_ne g act val hu hi hj⟩

/-! ### Registers and the tile -/

/-- A source that is ZERO for every register of its run reads 0 (R177). -/
theorem rget_run (g : Grp) (a k t : Nat) : rget g (if a = 0xC0 then 0xC0 else a + k) t = if a = 0xC0 then 0 else rget g (a + k) t := by
  split
  · rfl
  · rfl

/-- The group after TRD has written the first n registers. -/
def trdFirst (w : Nat) (g : Grp) (n : Nat) : Grp :=
  (List.range n).foldl (fun h r => perThread h (acting w g) (if iDst w = 0xC0 then 0xC0 else iDst w + r) (fun t => tileAt g (iAux w % 4) (2 * r + t / 32) (t % 32))) g

theorem trdFirst_succ (w : Nat) (g : Grp) (n : Nat) : trdFirst w g (n + 1) =
    perThread (trdFirst w g n) (acting w g) (if iDst w = 0xC0 then 0xC0 else iDst w + n) (fun t => tileAt g (iAux w % 4) (2 * n + t / 32) (t % 32)) := by
  rw [trdFirst, List.range_succ, List.foldl_concat, ← trdFirst]

theorem trdFirst_zero {w : Nat} (h : iDst w = 0xC0) (g : Grp) (n : Nat) : trdFirst w g n = g := by
  induction n with
  | zero => rfl
  | succ n ih => rw [trdFirst_succ, if_pos h, perThread_zero, ih]

theorem trdFirst_frame {w n : Nat} (hd : iDst w + n ≤ 0x80) (g : Grp) : ∃ x, trdFirst w g n = { g with v := x } := by
  induction n with
  | zero => exact ⟨g.v, rfl⟩
  | succ n ih =>
    obtain ⟨x, hx⟩ := ih (by omega)
    rw [trdFirst_succ, if_neg (by omega), perThread_v _ _ (by omega), hx]
    exact ⟨_, rfl⟩

/-- R231: register r holds rows 2 r and 2 r + 1 once it is written. -/
theorem rget_trdFirst {w n : Nat} (hd : iDst w + n ≤ 0x80) (g : Grp) {r t : Nat} (ht : t < 64) :
    rget (trdFirst w g n) (iDst w + r) t =
      if r < n ∧ (acting w g).testBit t = true then tileAt g (iAux w % 4) (2 * r + t / 32) (t % 32) % 2 ^ 32 else rget g (iDst w + r) t := by
  induction n with
  | zero => simp [trdFirst]
  | succ n ih =>
    rw [trdFirst_succ, if_neg (by omega)]
    by_cases hr : r = n
    · subst hr
      rw [rget_perThread_same _ _ (by omega) _ ht, ih (by omega)]
      simp
    · rw [rget_perThread_ne _ _ (by omega) _ ht (by omega), ih (by omega)]
      exact if_congr (and_congr_left' (by omega)) rfl rfl

/-! ### Effects with every thread acting, or in masked-zero mode -/

section

variable {c slot w : Nat} {g : Grp} {b : Blk} {m : Chip}

theorem not_divergent (h : acting w g = 2 ^ 64 - 1 ∨ b.masked = true) : divergent w g b = false := by
  obtain h | h := h
  · simp [divergent, h, allThreads]
  · simp [divergent, h]

theorem tileOp_acts (h : acting w g = 2 ^ 64 - 1 ∨ b.masked = true) (f : Grp → Grp) : tileOp c slot w f g b m = setGrp m c slot (some (advance (f g))) := by
  rw [tileOp, not_divergent h]
  rfl

theorem doTzero_good (h : acting w g = 2 ^ 64 - 1 ∨ b.masked = true) :
    doTzero c slot w g b m = setGrp m c slot (some (advance (tileWrite g (iTd w) (acting w g) (fun _ _ => 0)))) := tileOp_acts h _

theorem doTrd_good (h : acting w g = 2 ^ 64 - 1 ∨ b.masked = true) : doTrd c slot w g b m = setGrp m c slot (some (advance (trdFirst w g 16))) := tileOp_acts h (trdGrp w)

theorem doTwr_good (h : acting w g = 2 ^ 64 - 1 ∨ b.masked = true) :
    doTwr c slot w g b m = setGrp m c slot (some (advance (tileWrite g (iAux w % 4) (acting w g)
      (fun i j => if iA w = 0xC0 then 0 else rget g (iA w + i / 2) (i % 2 * 32 + j))))) := by
  simp only [doTwr, tileOp_acts h, rget_run, tileOwner]

/-- Bytes of an element that TST stores (R232). -/
def tstElem (w : Nat) : Nat := if iSize w = 0 then 4 else 2

/-- R232: with every row's address good and the first on a line, TST stores the tile's bytes. -/
theorem doTst_good (hall : acting w g = 2 ^ 64 - 1 ∨ b.masked = true) (h0 : acting w g ≠ 0) (hal : effAddr w g 0 % 128 = 0)
    (hcode : ∀ i, i < 32 → addrCode m (iForm w) (effAddr w g 0 + i * 32 * tstElem w) 1 (b.units.length * 512 - (32 * tstElem w - 1)) = none) :
    doTst c slot w g b m = if iForm w = 2 then scratchGo c slot b (tstBytes w g (effAddr w g 0)) m
      else storeGo c slot (iForm w) g [(lowest (acting w g), effAddr w g 0)] (tstBytes w g (effAddr w g 0)) m := by
  have hnone : (List.range 32).filterMap (fun i => (addrCode m (iForm w) (effAddr w g 0 + i * 32 * tstElem w) 1 (b.units.length * 512 - (32 * tstElem w - 1))).map
      (fun x => (x, (0 : Nat), (0 : Nat)))) = [] :=
    List.filterMap_eq_nil_iff.mpr fun i hi => by rw [hcode i (List.mem_range.mp hi), Option.map_none]
  unfold tstElem at hnone
  simp only [doTst, not_divergent hall, h0, hnone, firstFault, List.foldl_nil, hal, ne_eq, not_true, Bool.false_eq_true, if_false]

/-- An MMA of a class as it joins the matrix unit: its operands as they read at issue (R260 to R262, R266, R267). -/
def mmaJoins (slot w : Nat) (g : Grp) (b : Blk) (cl : MmaClass) (m : Chip) : MmaOp :=
  let n := mmaRegs cl (iSparse w)
  let act := acting w g
  let bf := fragment g (iTb w) n.2.1 act 0
  ⟨slot, w, fragment g (iTa w) n.1 act 0, bf, fragment g (iMeta w) n.2.2.1 act (metaSub (iSparse w)), fragment g (iScale w) n.2.2.2 act 0x7F7F7F7F, act, b.masked,
    if iZskip w && fon m MU_CTRL_ZSKIP_EN then zeroBlocks (iFmtB w) (mmaKl cl (iSparse w)) cl.bbits bf else []⟩

theorem doMma_good {cl : MmaClass} (hall : acting w g = 2 ^ 64 - 1 ∨ b.masked = true) (hcl : mmaClass (iFmtA w) (iFmtB w) = some cl) (h0 : acting w g ≠ 0)
    (hmeta : metaFails (iSparse w) (acting w g) (fragment g (iMeta w) (mmaRegs cl (iSparse w)).2.2.1 (acting w g) (metaSub (iSparse w))) = []) :
    doMma c slot w g b m = modCore (setGrp m c slot (some (advance g))) c (fun k => { k with mmas := k.mmas ++ [mmaJoins slot w g b cl m] }) := by
  simp only [doMma, hcl, not_divergent hall, hmeta, h0, Bool.false_eq_true, if_false]
  rfl

end

/-! ### Cores -/

theorem core_modCore_same (m : Chip) (c : Nat) (f : Core → Core) : Machine.core (modCore m c f) c = f (Machine.core m c) := tget_tput_same _ _ _ _

theorem core_settle (m : Chip) (c : Nat) : Machine.core (settle m) c = Machine.core m c := by
  rw [Machine.core, settle_cores, Machine.core]

theorem mmas_setGrp (m : Chip) (c slot : Nat) (g : Option Grp) : (Machine.core (setGrp m c slot g) c).mmas = (Machine.core m c).mmas := by
  rw [setGrp, core_modCore_same]

theorem groups_setGrp (m : Chip) (c slot : Nat) (g : Option Grp) : (Machine.core (setGrp m c slot g) c).groups = tput none slot g (Machine.core m c).groups := by
  rw [setGrp, core_modCore_same]

/-! ### The commands -/

section

variable (c slot : Nat) (word : BitVec 64) (s : State)

theorem exec_mma : exec (.mma c slot word) s = issueOp s c slot word [0xC0] (doMma c slot) := rfl
theorem exec_tzero : exec (.tzero c slot word) s = issueOp s c slot word [0xC1] (doTzero c slot) := rfl
theorem exec_trd : exec (.trd c slot word) s = issueOp s c slot word [0xC2] (doTrd c slot) := rfl
theorem exec_twr : exec (.twr c slot word) s = issueOp s c slot word [0xC3] (doTwr c slot) := rfl
theorem exec_tst : exec (.tst c slot word) s = issueOp s c slot word [0xC4] (doTst c slot) := rfl

end

/-- Settles O33: with no divergence, TZERO and TWR write the owned elements, TRD the registers one after the other, TST its bytes, and an MMA joins the unit. -/
theorem tileInstructions : Obligations.TileInstructions := by
  intro s c slot word g b h
  dsimp only
  intro hall
  have trd (ho : iOp word.toNat = 0xC2) := does_of_issueOp h (exec_trd c slot word s) (List.mem_singleton.mpr ho)
  rw [doTrd_good hall] at trd
  refine ⟨fun ho => ?tzero, fun ho => ?twr, fun ho hd => ?trd, fun ho hd => ?trdZero, fun ho h0 hal hcode => ?tst, fun cl ho hcl h0 hmeta => ?mma⟩
  case tzero =>
    have hd := does_of_issueOp h (exec_tzero c slot word s) (List.mem_singleton.mpr ho)
    exact ⟨_, doTzero_good hall ▸ hd, takesTile_tileWrite g _ _ _⟩
  case twr =>
    have hd := does_of_issueOp h (exec_twr c slot word s) (List.mem_singleton.mpr ho)
    exact ⟨_, doTwr_good hall ▸ hd, takesTile_tileWrite g _ _ _⟩
  case trd =>
    obtain ⟨x, hx⟩ := trdFirst_frame hd g
    refine ⟨_, trd ho, by rw [hx], by rw [hx], by rw [hx], fun r t hr ht => ?_⟩
    rw [rget_trdFirst hd g ht]
    exact if_congr (and_iff_right hr) rfl rfl
  case trdZero => exact trdFirst_zero hd g 16 ▸ trd ho
  case tst =>
    have hd := does_of_issueOp h (exec_tst c slot word s) (List.mem_singleton.mpr ho)
    rw [doTst_good hall h0 hal hcode] at hd
    exact hd
  case mma =>
    have hd := does_of_issueOp h (exec_mma c slot word s) (List.mem_singleton.mpr ho)
    rw [doMma_good hall hcl h0 hmeta] at hd
    refine ⟨mmaJoins slot word.toNat g b cl s.chip, _, hd, ?_, ?_, rfl, rfl, rfl, rfl, rfl⟩
    · dsimp only
      rw [core_settle, core_modCore_same, mmas_setGrp]
    · dsimp only
      rw [grp, core_settle, core_modCore_same, groups_setGrp, tget_tput_same]

end Sys2Proof.Proofs
end

section
/-! SUPPORT. Lines and requests at their homes: what a write to a line in the cells leaves, and how a slice or a stack serves its next request. -/

namespace Sys2Proof.Proofs

open Sys2Proof.Machine Sys2Proof.Laws

/-! ### A line without wrong bits -/

theorem decodeBuf_clean (n : Nat) {l : Line} (herrs : l.errs = []) (hpoison : l.poison = false) : decodeBuf n l = { ln := l } := by
  obtain ⟨data, wb, poison, errs⟩ := l
  subst herrs hpoison
  rfl

theorem decodeHbm_clean {l : Line} (herrs : l.errs = []) (hpoison : l.poison = false) : decodeHbm l = { ln := l } := by
  obtain ⟨data, wb, poison, errs⟩ := l
  subst herrs hpoison
  rfl

/-! ### Reads outside the cache regions -/

/-- What a stack's read delivers of a line that is not parked and was written since its pseudo-channel was left undefined, if it was (R468). -/
theorem hbmGot_stored {m : Chip} {ln : Nat} (hpark : parkedCopy m ln = none) (hknown : lineLost m ln = true → (tget {} ln m.lmeta).known = true) :
    hbmGot m ln = decodeHbm (rawLine m ln) := by
  have hkept : ¬ (lineLost m ln && !(tget {} ln m.lmeta).known) = true := by
    cases hlost : lineLost m ln with
    | false => simp
    | true => simp [hknown hlost]
  simp only [hbmGot, hpark]
  rw [if_neg hkept]

/-- A stored line without wrong bits is delivered as it is stored (R280, R434). -/
theorem readLine_clean {m : Chip} {ln : Nat} {mioto : Bool} (hbad : badAddress m (ln * 128) mioto = false) (hback : backing m (ln * 128) = none)
    (hpark : parkedCopy m ln = none) (hknown : lineLost m ln = true → (tget {} ln m.lmeta).known = true)
    {l : Line} (hraw : rawLine m ln = l) (herrs : l.errs = []) (hpoison : l.poison = false) : (readLine m ln mioto).1 = { ln := l } := by
  subst hraw
  unfold readLine
  rw [if_neg (by simp [hbad])]
  split
  · simp only [readBufLine, hpark, Option.getD_none]
    exact decodeBuf_clean _ herrs hpoison
  · simp only [hback]
    exact (hbmGot_stored hpark hknown).trans (decodeHbm_clean herrs hpoison)

/-! ### Writes outside the cache regions -/

theorem flipBuf_unarmed {m : Chip} (h : fon m BUF_FLIP_CTRL_ARM = false) (g : Nat) (l : Line) : flipBuf m g l = (l, m) := by
  simp [flipBuf, h]

theorem flipHbm_unarmed {m : Chip} (h : fon m HBM_FLIP_CTRL_ARM = false) (g : Nat) (l : Line) : flipHbm m g l = (l, m) := by
  simp [flipHbm, h]

/-- Twin tracking notes a write in its own state alone (R706). -/
theorem noteWrite_twin (m : Chip) (ln : Nat) : ∃ t, noteWrite m ln = { m with twin := t } := by
  unfold noteWrite
  dsimp only
  split
  · exact ⟨m.twin, rfl⟩
  · exact ⟨_, rfl⟩

/-- With no flip armed a line that is not poisoned is stored as it comes. -/
theorem storeCell_unarmed {m : Chip} {l : Line} (ln : Nat) (hbuf : fon m BUF_FLIP_CTRL_ARM = false) (hhbm : fon m HBM_FLIP_CTRL_ARM = false)
    (hpoison : l.poison = false) : storeCell m ln l = noteWrite (setRawLine m ln l) ln := by
  simp [storeCell, flipBuf_unarmed hbuf, flipHbm_unarmed hhbm, hpoison]

theorem writeCell_open {m : Chip} {ln : Nat} (h : pathShut m (pathOf (ln * 128)) = false) (l : Line) : writeCell m ln l = storeCell m ln l := by
  simp [writeCell, h]

theorem writeLine_unbacked {m : Chip} {ln : Nat} {mioto : Bool} (hbad : badAddress m (ln * 128) mioto = false) (hback : backing m (ln * 128) = none) (l : Line) :
    writeLine m ln l mioto = (.good, writeCell m ln l) := by
  simp [writeLine, putLine, hbad, hback]

/-- Settles O34: the write stores the line in the cells and notes it for the twin, neither of which moves the line's home, and the read finds the line there. -/
theorem writtenLineReadsBack : Obligations.WrittenLineReadsBack := by
  intro m ln l hlen herrs hpoison hwb hbad hback hpark hpath hbuf hhbm
  dsimp only
  obtain ⟨t, ht⟩ := noteWrite_twin (setRawLine m ln l) ln
  rw [writeLine_unbacked hbad hback, writeCell_open hpath, storeCell_unarmed ln hbuf hhbm hpoison, ht]
  have hknown : (tget {} ln (setRawLine m ln l).lmeta).known = lineLost m ln := congrArg LineMeta.known (tget_tput_same _ _ _ _)
  have hread : (readLine { setRawLine m ln l with twin := t } ln false).1 = { ln := l } :=
    readLine_clean (m := { setRawLine m ln l with twin := t }) hbad hback hpark hknown.trans (rawLine_setRawLine m ln l hlen) herrs hpoison
  rw [hread]
  exact ⟨rfl, rfl, rfl, hwb, fun k hk => rawLine_setRawLine_ne m ln k l hlen hk, rfl, rfl, rfl⟩

/-! ### Serving the next request -/

theorem serve_unbacked {m : Chip} {r : Req} (hback : backing m (r.line * 128) = none) (hroom : r.kind = .read ∨ sidingFull m r.line = false) : serve m r = perform m r := by
  simp only [serve, hback]
  refine if_neg fun ⟨hkind, hfull⟩ => ?_
  obtain hread | hfree := hroom
  · exact hkind hread
  · simp [hfree] at hfull

theorem serve_hit {m : Chip} {r : Req} {k : Nat} (hback : backing m (r.line * 128) = some k) (hhit : (cacheGet m k r.line).isSome = true) : serve m r = perform m r := by
  simp only [serve, hback]
  exact if_pos hhit

/-- A miss of a line that is not in the eviction buffer waits for its fill, a full-line write excepted (R293, R296). -/
theorem serve_miss {m : Chip} {r : Req} {k : Nat} (hback : backing m (r.line * 128) = some k) (hmiss : cacheGet m k r.line = none)
    (hev : (evOf m (k / 4)).any (fun p => p.line == r.line) = false) (hkind : r.kind ≠ .write) :
    serve m r = modReq (bump m BUF_MISS_CTR 1) r.id (fun q => { q with st := 1 }) := by
  simp [serve, hback, hmiss, hev, hkind]

theorem serveSlice_next {m : Chip} {g : Nat} {ks : List ReqKind} {r : Req} (hnext : sliceNext m g ks = some r) (hready : deviceReady m (r.line * 128) 128 = true) :
    serveSlice g ks m = serve m r := by
  simp [serveSlice, hnext, hready]

/-- A stack below level 3 performs its next request, unless that is a write with no room in the siding (R306, R455). -/
theorem serveStack_next {m : Chip} {d : Nat} {ks : List ReqKind} {r : Req} (hnext : stackNext m d ks = some r) (hlevel : fget m (HBMs_STAT_LEVEL d) ≠ 3)
    (hready : deviceReady m (r.line * 128) 128 = true) (hroom : r.kind = .read ∨ sidingFull m r.line = false) : serveStack d ks m = perform m r := by
  have hopen : ¬ (r.kind != .read && sidingFull m r.line) = true := by
    obtain h | h := hroom <;> simp [h]
  simp [serveStack, hlevel, hnext, hready, hopen]

theorem exec_slice {g : Nat} {k : ReqKind} {i : Instr}
    (h : (k, i) ∈ [(ReqKind.read, Instr.sliceRead g), (.write, .sliceWrite g), (.partialWrite, .slicePartialWrite g), (.atomic, .collectAtomic g), (.reduce, .collectReduce g)])
    (s : State) : exec i s = run s (serveSlice g [k]) := by
  simp only [List.mem_cons, Prod.mk.injEq, List.not_mem_nil, or_false] at h
  obtain ⟨rfl, rfl⟩ | ⟨rfl, rfl⟩ | ⟨rfl, rfl⟩ | ⟨rfl, rfl⟩ | ⟨rfl, rfl⟩ := h <;> rfl

theorem exec_stack {d : Nat} {k : ReqKind} {i : Instr} (h : (k, i) ∈ [(ReqKind.read, Instr.hbmRead d), (.write, .hbmWrite d), (.partialWrite, .hbmPartialWrite d)])
    (s : State) : exec i s = run s (serveStack d [k]) := by
  simp only [List.mem_cons, Prod.mk.injEq, List.not_mem_nil, or_false] at h
  obtain ⟨rfl, rfl⟩ | ⟨rfl, rfl⟩ | ⟨rfl, rfl⟩ := h <;> rfl

/-! ### Promotion of class D -/

theorem promoteDue_of_mem {m : Chip} {r : Req} {log2 : Nat} (hr : r ∈ m.reqs) (hcls : r.cls = 3) (hage : 2 ^ log2 ≤ 2 * (m.ns - r.since)) : promoteDue m r.id log2 = true :=
  List.any_eq_true.mpr ⟨r, hr, by simp [hcls, hage]⟩

theorem exec_sliceClassDPromote (g id : Nat) (s : State) : exec (.sliceClassDPromote g id) s =
    runIf s (fun m => promoteDue m id (fget m BUF_CTRL_PROMOTE_LOG2) && m.reqs.any (fun r => r.id == id && servingSlice m r.line == some g)) (doClassDPromote id) := rfl

theorem exec_hbmClassDPromote (d id : Nat) (s : State) : exec (.hbmClassDPromote d id) s =
    runIf s (fun m => promoteDue m id (fget m HBM_CTRL_PROMOTE_LOG2) && m.reqs.any (fun r => r.id == id && isHbm (r.line * 128) && stackOf (r.line * 128) == d)) (doClassDPromote id) := rfl

theorem does_sliceClassDPromote {s : State} {r : Req} {g : Nat} (ha : acts s = true) (hr : r ∈ s.chip.reqs) (hcls : r.cls = 3) (hg : servingSlice s.chip r.line = some g)
    (hage : 2 ^ fget s.chip BUF_CTRL_PROMOTE_LOG2 ≤ 2 * (s.chip.ns - r.since)) :
    Does (.sliceClassDPromote g r.id) s (modReq s.chip r.id (fun q => { q with cls := 2 })) := by
  have hserves : s.chip.reqs.any (fun q => q.id == r.id && servingSlice s.chip q.line == some g) = true := List.any_eq_true.mpr ⟨r, hr, by simp [hg]⟩
  have hdoes := does_of_runIf ha (exec_sliceClassDPromote g r.id s) (Bool.and_eq_true_iff.mpr ⟨promoteDue_of_mem hr hcls hage, hserves⟩)
  exact hdoes

theorem does_hbmClassDPromote {s : State} {r : Req} {d : Nat} (ha : acts s = true) (hr : r ∈ s.chip.reqs) (hcls : r.cls = 3) (hhbm : isHbm (r.line * 128) = true)
    (hd : stackOf (r.line * 128) = d) (hage : 2 ^ fget s.chip HBM_CTRL_PROMOTE_LOG2 ≤ 2 * (s.chip.ns - r.since)) :
    Does (.hbmClassDPromote d r.id) s (modReq s.chip r.id (fun q => { q with cls := 2 })) := by
  have hserves : s.chip.reqs.any (fun q => q.id == r.id && isHbm (q.line * 128) && stackOf (q.line * 128) == d) = true := List.any_eq_true.mpr ⟨r, hr, by simp [hhbm, hd]⟩
  have hdoes := does_of_runIf ha (exec_hbmClassDPromote d r.id s) (Bool.and_eq_true_iff.mpr ⟨promoteDue_of_mem hr hcls hage, hserves⟩)
  exact hdoes

/-! ### What performing a request does -/

section

variable {m : Chip} {r : Req}

theorem perform_read (h : r.kind = .read) :
    perform m r = answer (readLine (dropReq m r.id) r.line false).2 r (readLine (dropReq m r.id) r.line false).1.fate (readLine (dropReq m r.id) r.line false).1.ln 0 := by
  simp only [perform, h]

theorem perform_write (h : r.kind = .write) :
    perform m r = answer (writeLine (dropReq m r.id) r.line r.ln false).2 r (writeLine (dropReq m r.id) r.line r.ln false).1 r.ln 0 := by
  simp only [perform, h]

theorem perform_partialWrite (h : r.kind = .partialWrite) (hwho : r.who ≠ .fix) :
    perform m r = (let w := partialWrite (dropReq m r.id) r.line r.ln.data r.mask (r.ln.wb == crc32c r.ln.data) false
      answer w.2 r w.1 (failLine (dropReq m r.id) r.line r.ln w.1) 0) := by
  simp only [perform, h, hwho, if_false]

/-- Nobody waits for the answer of a correction write-back. -/
theorem answer_fix (h : r.who = .fix) (f : Fate) (l : Line) (val : Nat) : answer m r f l val = m := by
  simp only [answer, h]

/-- A correction write-back puts back what the line holds, and keeps what was poisoned or bad as poisoned (R315, R319, R320). -/
theorem perform_fix (h : r.kind = .partialWrite) (hwho : r.who = .fix) (hbad : badAddress (dropReq m r.id) (r.line * 128) true = false) :
    perform m r = (let c := dropReq m r.id
      let g := peekLine c r.line
      let f := storedFate g
      putLine (noteWb (noteRmw c r.line) r.line f) r.line
        (if f = .good then goodLine g.ln.data else if f = .poisoned then { g.ln with errs := [], poison := true } else poisonLine g.ln.data)) := by
  simp only [perform, h, answer_fix hwho]
  simp [hwho, hbad]

theorem perform_atomic (h : r.kind = .atomic) :
    perform m r = (let w := atomicAt (dropReq m r.id) r.line r.op r.size r.at_ r.a r.b
      answer w.2.2 r w.1 (failLine (dropReq m r.id) r.line r.ln w.1) w.2.1) := by
  simp only [perform, h]

theorem perform_reduce (h : r.kind = .reduce) :
    perform m r = (let w := reduceAt (dropReq m r.id) r.line r.op r.size r.ln
      answer w.2 r w.1 (if wbOk r.ln then failLine (dropReq m r.id) r.line r.ln w.1 else r.ln) 0) := by
  simp only [perform, h]

end

/-- Settles O35: a slice's or stack's command serves the request that is next, the line's home choosing how, and what performing does goes by the request's kind. -/
theorem slicesAndStacksServeRequests : Obligations.SlicesAndStacksServeRequests := by
  refine ⟨fun s ha r => ⟨?slice, ?stack, ?promote⟩,
    fun m r => ⟨perform_read, perform_write, perform_partialWrite, perform_fix, perform_atomic, perform_reduce⟩⟩
  case slice =>
    intro g k i hi hnext hkind hready
    have hdoes {c : Chip} (h : serve s.chip r = c) : Does i s c := does_of_run ha (exec_slice hi s) ((serveSlice_next hnext hready).trans h)
    exact ⟨fun hback hroom => hdoes (serve_unbacked hback (hkind ▸ hroom)), fun j hback hhit => hdoes (serve_hit hback hhit),
      fun j hback hmiss hev hk => hdoes (serve_miss hback hmiss hev (hkind ▸ hk))⟩
  case stack =>
    intro d k i hi hnext hkind hlevel hready hroom
    exact does_of_run ha (exec_stack hi s) (serveStack_next hnext hlevel hready (hkind ▸ hroom))
  case promote =>
    intro hr hcls
    exact ⟨fun g hg hage => does_sliceClassDPromote ha hr hcls hg hage, fun d hhbm hd hage => does_hbmClassDPromote ha hr hcls hhbm hd hage⟩

end Sys2Proof.Proofs
end

section
/-! SUPPORT. The counts of a scrub, and a register beyond 32 bits that they cut. -/

namespace Sys2Proof.Proofs

open Sys2Proof.Machine Sys2Proof.Laws

/-- A counter's low word is cut to 32 bits even by an increment of 0. -/
theorem csr_bump_zero {m : Chip} {o : Nat} (h : cget m o < 2 ^ 48) : csr (bump m o 0) o = csr m o % 2 ^ 32 := by
  rw [bump, if_pos (by simpa using h), setCtr, csr_setCsr_ne _ _ (by omega), csr_setCsr, Nat.add_zero, cget, Nat.add_mul_mod_self_left]

/-- A scrub adds to BUF_CE the number of words corrected, also where that is 0. -/
theorem doBufScrubLine_good {m : Chip} {half ln : Nat} {q : Scrub} {got : Got} (hq : bufScrub m half = some q) (hread : scrubRead m q.next = some (ln, got))
    (hcorr : got.corr = 0) (hfate : storedFate got = .good) (hleft : 2 ≤ q.left) :
    doBufScrubLine half m = setBufScrub (bump { m with freeCtr := m.freeCtr + 1 } BUF_CE_CTR 0) half (some (scrubCount q (ln * 128) 0 .good)) := by
  have hmore : (scrubCount q (ln * 128) 0 .good).left ≠ 0 := by
    simp only [scrubCount]
    omega
  simp only [doBufScrubLine, hq, hread, hcorr, hfate]
  simp [hmore, scrubRecord]

/-- A command has one outcome: two machines that it makes end their step alike. -/
theorem settle_eq_of_does {c : Instr} {s : State} {a b : Chip} (ha : Does c s a) (hb : Does c s b) : settle a = settle b := by
  have h := ha.symm.trans hb
  simpa using h

/-- The end of a quiet machine's step leaves BUF_CE. -/
theorem csr_settle_bufCe {m : Chip} (hm : Quiet m) : csr (settle m) BUF_CE_CTR = csr m BUF_CE_CTR := by
  obtain ⟨-, hregs, -⟩ := quietStepEnd m hm
  exact hregs _ (by decide) (by decide) (by decide)

/-- A step that has added 0 to BUF_CE ends as one that has not only where its low word fits 32 bits. -/
theorem bufCe_fits_of_settle_eq {m : Chip} (hm : Quiet m) (hsmall : cget m BUF_CE_CTR < 2 ^ 48) {half : Nat} {q : Option Scrub}
    (h : settle (setBufScrub (bump m BUF_CE_CTR 0) half q) = settle (setBufScrub m half q)) : csr m BUF_CE_CTR % 2 ^ 32 = csr m BUF_CE_CTR := by
  have hbump : Quiet (setBufScrub (bump m BUF_CE_CTR 0) half q) := by
    rw [bump, if_pos (by simpa using hsmall)]
    exact hm
  calc csr m BUF_CE_CTR % 2 ^ 32
    _ = csr (setBufScrub (bump m BUF_CE_CTR 0) half q) BUF_CE_CTR := (csr_bump_zero hsmall).symm
    _ = csr (settle (setBufScrub m half q)) BUF_CE_CTR := by rw [← csr_settle_bufCe hbump, h]
    _ = csr m BUF_CE_CTR := csr_settle_bufCe (m := setBufScrub m half q) hm

/-- A scrub for mailbox 0 with two lines left, the next one at the foot of BD-N's half. -/
def wideScrub : Scrub := { m := 0, next := 0xE00000000000 / 128, left := 2 }

/-- A module at READY that scrubs two lines from the foot of BD-N's half on, with 2 ^ 32 where BUF_CE_LO has 32 bits. -/
def wideCounter : State :=
  { board := { vin := true, vsb := true, rails := true }
    chip := { start := { phase := 5, completed := true }, csr := [(BUF_CE_CTR, 2 ^ 32)]
              buf := { scrub := [some wideScrub, none] } } }

/-- Refutes O36: a scrub that reads a good line adds 0 to BUF_CE, which cuts a register of 2 ^ 32 to 32 bits, while the scrub's clause leaves every register. The statement
takes every state; it lacks the premise that the register file is one that setCsr leaves. -/
theorem not_bufferEventsAndCommands : ¬ Obligations.BufferEventsAndCommands := by
  rintro ⟨hevents, -⟩
  have ha : acts wideCounter = true := by decide
  obtain ⟨-, -, -, -, -, -, -, -, hscrub, -⟩ := hevents wideCounter ha
  have hq : bufScrub wideCounter.chip 0 = some wideScrub := rfl
  have hread : scrubRead wideCounter.chip wideScrub.next = some (wideScrub.next, { ln := zeroLine }) := by decide +kernel
  have hfate : storedFate { ln := zeroLine } = .good := by decide +kernel
  have hmodel : Does (.bufScrubLine 0) wideCounter _ := does_of_run ha rfl (doBufScrubLine_good hq hread rfl hfate (Nat.le_refl 2))
  have hstated := (hscrub 0 wideScrub _ _ hq hread rfl hfate).1 (Nat.le_refl 2)
  have hfits := bufCe_fits_of_settle_eq ⟨rfl, rfl, rfl⟩ (by decide) (settle_eq_of_does hmodel hstated)
  exact absurd hfits (by decide)

end Sys2Proof.Proofs
end

section
/-! SUPPORT. The consist: what each event of a descriptor or of a wagon does where its conditions hold. -/

namespace Sys2Proof.Proofs

open Sys2Proof.Machine Sys2Proof.Laws

/-! ### Events and commands by what their effect makes -/

theorem does_of_event {c : Instr} {s : State} {cond : Chip → Bool} {f : Chip → Chip} {m : Chip} (ha : acts s = true) (he : exec c s = runIf s cond f)
    (hc : cond s.chip = true) (hf : f s.chip = m) : Does c s m :=
  hf ▸ does_of_runIf ha he hc

theorem does_of_command {c : Instr} {s : State} {i code : Nat} {f : List Nat → Chip → Chip} {m : Chip} (ha : acts s = true) (he : exec c s = runCmd s i code f)
    (hc : cmdReady s.chip i code = true) (hf : f (cmdPay s.chip i) s.chip = m) : Does c s m :=
  hf ▸ does_of_runCmd ha he hc

/-! ### A descriptor that waits -/

theorem doConWaitPoll_good {m : Chip} {d id a : Nat} {x : Desc} (hx : desc m d id = some x) (hwait : dWait x.w = some a) (hready : deviceReady m a 4 = true)
    (hgood : (loadWord m a false).2.1 = none) :
    doConWaitPoll d id m = if nth x.w 11 ≤ (loadWord m a false).1 then conStart (loadWord m a false).2.2 d id else (loadWord m a false).2.2 := by
  simp [doConWaitPoll, hx, hwait, hready, hgood]

/-! ### Lines that return to Fetch -/

section

variable {m : Chip} {d id wid pos : Nat} {r : Resp} {w : Wagon} {x : Desc}
variable (hr : fetchResp m d id = some (r, wid, pos)) (hw : (conDie m d).wagons.find? (fun w => w.id == wid) = some w) (hx : desc m d w.desc = some x)

include hr hw hx

theorem doFetchLineReturn_good (hfate : r.fate = .good) (hwb : wbOk r.ln = true) :
    doFetchLineReturn d id m = lineIn { m with resps := m.resps.filter (fun x => x != r) } d w pos r.ln := by
  simp [doFetchLineReturn, hr, hw, hx, hfate, hwb]

/-- A line whose waybill does not match is counted, and fails the descriptor with CON_WAYBILL (R350). -/
theorem doFetchLineReturn_waybill (hfate : r.fate = .good) (hwb : wbOk r.ln = false) :
    doFetchLineReturn d id m = conEnd (recFate (bump { m with resps := m.resps.filter (fun x => x != r) } CON_WBILL_CTR 1) 5 d (ownDesc x) w.idx r.line
      { ln := r.ln, fate := .waybill }) d w.desc 4 w.idx := by
  simp [doFetchLineReturn, hr, hw, hx, hfate, hwb]

/-- A line that its home could not deliver fails the descriptor with CON_SOURCE (R351). -/
theorem doFetchLineReturn_source (hfate : r.fate = .uncorrectable ∨ r.fate = .poisoned) :
    doFetchLineReturn d id m = conEnd (recFate { m with resps := m.resps.filter (fun x => x != r) } 5 d (ownDesc x) w.idx r.line
      { ln := r.ln, fate := r.fate }) d w.desc 5 w.idx := by
  obtain hfate | hfate := hfate <;> simp [doFetchLineReturn, hr, hw, hx, hfate]

end

/-! ### Expand -/

section

variable {m : Chip} {d e : Nat} {w : Wagon}

theorem doExpandWagon_record {x : Desc} {r : Record} (hw : expandNext m d = some w) (hx : desc m d w.desc = some x)
    (hr : (parseRecord x.w w.idx (wagonBytes w)).filter (fun r => lastOk x.w w.idx ((w.src - dSrc x.w / 128) * 128 + w.off) r.length) = some r) :
    doExpandWagon d e m = modWagon m d w.id (fun v => { v with st := 2, engine := e, todo := expandOps x.w w.idx r }) := by
  simp only [doExpandWagon, hw, hx, hr]

/-- A wagon whose record breaks a rule is counted, and fails the descriptor with CON_FORMAT (R360, R361). -/
theorem doExpandWagon_format {x : Desc} (hw : expandNext m d = some w) (hx : desc m d w.desc = some x)
    (hr : (parseRecord x.w w.idx (wagonBytes w)).filter (fun r => lastOk x.w w.idx ((w.src - dSrc x.w / 128) * 128 + w.off) r.length) = none) :
    doExpandWagon d e m = conMove (conEnd (bump m CON_FORMAT_CTR 1) d w.desc 3 w.idx) d := by
  simp only [doExpandWagon, hw, hx, hr]

theorem doExpandHand_granted (hw : (conDie m d).wagons.find? (fun w => w.st == 2 && w.engine == e) = some w) (htab : 0 < tabOf m d 2)
    (hrec : reclaiming m d 2 = false) : doExpandHand d e m = fetchIssue (handWagon m d w w.todo) d := by
  simp [doExpandHand, hw, htab, hrec]

end

/-! ### Stage -/

/-- A wagon leaves Stage with its operations acknowledged: it and its descriptor's retired wagons are counted, and its tablet returns (R331, R341). -/
def retireWagon (d id did : Nat) (m : Chip) : Chip :=
  let m1 := modCon (bump m CON_WAGON_CTR 1) d (fun c => { c with wagons := c.wagons.filter (fun v => v.id != id), retired := c.retired + 1 })
  modDesc (tabBack m1 d 2 1) d did (fun x => { x with retired := x.retired + 1 })

section

variable {m : Chip} {d id : Nat} {w : Wagon} (hw : (conDie m d).wagons.find? (fun w => w.id == id && w.st == 3) = some w)

include hw

theorem doStageWagonWrite_issues {x : Desc} (hx : desc m d w.desc = some x) :
    doStageWagonWrite d id m = (let q := stageIssue d x.w id w.todo m
      modWagon q.2.2 d id (fun v => { v with todo := q.1, issued := v.issued ++ q.2.1, acks := v.acks + q.2.1.length })) := by
  simp only [doStageWagonWrite, hw, hx]

theorem doStageWagonRetire_failed (hfail : w.failed = true) : doStageWagonRetire d id m = conMove (conEnd m d w.desc 5 w.idx) d := by
  simp [doStageWagonRetire, hw, hfail]

theorem doStageWagonRetire_acked (hfail : w.failed = false) (htodo : w.todo = []) (hacks : w.acks = 0) :
    doStageWagonRetire d id m = conMove (if (desc (retireWagon d id w.desc m) d w.desc).any (fun x => x.retired == dWagons x.w)
      then conEnd (retireWagon d id w.desc m) d w.desc 0 noBad else retireWagon d id w.desc m) d := by
  simp only [doStageWagonRetire, hw]
  exact (if_neg (by simp [hfail])).trans (if_pos ⟨htodo, hacks⟩)

end

/-! ### Reclaim -/

theorem conNote_mb (m : Chip) : (conNote m).mb = m.mb := rfl

/-- A hand-off as its reclaim leaves it: the tablets not held are available, those of the slices all, and the reclaim is counted (R382). -/
def reclaimed (d h : Nat) (m : Chip) : Chip :=
  conNote (bump (modCon m d (fun c => { c with
    avail := if h < 3 then setAt c.avail h (tabTotal h - tabsHeld m d h) else c.avail
    sliceOut := if h = 3 then [] else c.sliceOut
    reclaim := c.reclaim.filter (· != h) })) CON_RECLAIM_CTR 1)

theorem reclaimed_mb (d h : Nat) (m : Chip) : (reclaimed d h m).mb = m.mb := by
  rw [reclaimed, conNote_mb, bump_mb, modCon_mb]

/-- With no CON.RESET under way nobody waits for the reclaim's end. -/
theorem doConsistReclaimDone_noReset {m : Chip} {d h : Nat} (hreset : ∀ i, cmdGoing m i 0x0403 = false) : doConsistReclaimDone d h m = conMove (reclaimed d h m) d := by
  have hnone : firstIdx 4 (fun i => cmdGoing (reclaimed d h m) i 0x0403 && nth (cmdAux (reclaimed d h m) i) 0 == d) = none := by
    simp [firstIdx, cmdGoing_of_mb (reclaimed_mb d h m), hreset]
  unfold reclaimed at hnone ⊢
  simp only [doConsistReclaimDone, hnone, ite_self]

/-! ### Regulators -/

/-- A regulator that holds no request gains its credits and does nothing beside (R385). -/
theorem doRegulatorRefill_nothingHeld {m : Chip} {k : Nat} (hmode : fget m (CON_REGk_CFG_MODE k) ≠ 0) (hheld : ∀ r ∈ m.reqs, r.st ≠ 4 ∨ r.reg ≠ k) :
    doRegulatorRefill k m = { m with
      credits := tput 0 k (min (8 * fget m (CON_REGk_CFG_RATE k)) (tget 0 k m.credits + 4 * fget m (CON_REGk_CFG_RATE k))) m.credits,
      refillAt := tput 0 k m.ns m.refillAt } := by
  have hnone : m.reqs.filter (fun r => r.st == 4 && r.reg == k) = [] := by
    rw [List.filter_eq_nil_iff]
    intro r hr
    obtain h | h := hheld r hr <;> simp [h]
  simp only [doRegulatorRefill, if_neg hmode, hnone, List.map_nil, releaseHeldReqs]

/-! ### The events -/

theorem exec_conDescriptorAccept (n : Nat) (s : State) : exec (.conDescriptorAccept n) s = runIf s (fun m => conWants m n) (doConDescriptorAccept n) := rfl

theorem exec_conWaitPoll (d id : Nat) (s : State) : exec (.conWaitPoll d id) s = runIf s (fun m => (desc m d id).any (fun x => !x.run)) (doConWaitPoll d id) := rfl

theorem exec_conWaitTimeout (d id : Nat) (s : State) : exec (.conWaitTimeout d id) s = runIf s (fun m => conLate m d id) (doConWaitTimeout d id) := rfl

theorem exec_fetchWagonStart (d : Nat) (s : State) : exec (.fetchWagonStart d) s = runIf s (fun m => fetchReady m d) (doFetchWagonStart d) := rfl

theorem exec_expandWagon (d e : Nat) (s : State) : exec (.expandWagon d e) s = runIf s (fun m => firstIdx 64 (engineIdle m d) == some e) (doExpandWagon d e) := rfl

theorem exec_stageWagonWrite (d id : Nat) (s : State) : exec (.stageWagonWrite d id) s = runIf s (fun m => !reclaiming m d 3) (doStageWagonWrite d id) := rfl

theorem exec_consistReclaimDone (d h : Nat) (s : State) :
    exec (.consistReclaimDone d h) s = runIf s (fun m => reclaiming m d h && !inFlight m d h) (doConsistReclaimDone d h) := rfl

theorem exec_regulatorRefill (k : Nat) (s : State) : exec (.regulatorRefill k) s = runIf s (fun m => refillDue m k) (doRegulatorRefill k) := rfl

/-- Settles O38: each event runs its effect where its condition holds, and the state of the descriptor, the wagon or the line chooses what the effect does. -/
theorem consistMovesWagons : Obligations.ConsistMovesWagons := by
  intro s ha d id
  refine ⟨?accept, ?poll, ?late, ?start, ?line, ?expand, ?hand, ?write, ?retire, ?reclaim, ?refill⟩
  case accept => exact fun n hwants => does_of_event ha (exec_conDescriptorAccept n s) hwants rfl
  case poll =>
    intro x a hx hrun hwait hready hgood
    have hwaits : (desc s.chip d id).any (fun x => !x.run) = true := by simp [hx, hrun]
    have hpoll := doConWaitPoll_good hx hwait hready hgood
    exact ⟨fun hmet => does_of_event ha (exec_conWaitPoll d id s) hwaits (hpoll.trans (if_pos hmet)),
      fun hunmet => does_of_event ha (exec_conWaitPoll d id s) hwaits (hpoll.trans (if_neg (Nat.not_le.mpr hunmet)))⟩
  case late => exact fun hlate => does_of_event ha (exec_conWaitTimeout d id s) hlate rfl
  case start =>
    intro did x hready hnext
    exact does_of_event ha (exec_fetchWagonStart d s) hready (by simp only [doFetchWagonStart, hnext])
  case line =>
    intro r wid pos w x hr hw hx
    exact ⟨fun hfate hwb => does_of_run ha rfl (doFetchLineReturn_good hr hw hx hfate hwb),
      fun hfate hwb => does_of_run ha rfl (doFetchLineReturn_waybill hr hw hx hfate hwb),
      fun hfate => does_of_run ha rfl (doFetchLineReturn_source hr hw hx hfate)⟩
  case expand =>
    intro e w x hidle hw hx
    have hengine : (firstIdx 64 (engineIdle s.chip d) == some e) = true := beq_iff_eq.mpr hidle
    exact ⟨fun r hr => does_of_event ha (exec_expandWagon d e s) hengine (doExpandWagon_record hw hx hr),
      fun hr => does_of_event ha (exec_expandWagon d e s) hengine (doExpandWagon_format hw hx hr)⟩
  case hand => exact fun e w hw htab hrec => does_of_run ha rfl (doExpandHand_granted hw htab hrec)
  case write =>
    intro w x hrec hw hx
    have hsends : (!reclaiming s.chip d 3) = true := by simp [hrec]
    exact does_of_event ha (exec_stageWagonWrite d id s) hsends (doStageWagonWrite_issues hw hx)
  case retire =>
    intro w hw
    refine ⟨fun hfail => does_of_run ha rfl (doStageWagonRetire_failed hw hfail), fun hfail htodo hacks => ?_⟩
    have hretire := doStageWagonRetire_acked hw hfail htodo hacks
    exact ⟨fun hlast => does_of_run ha rfl (hretire.trans (congrArg (conMove · d) (if_pos hlast))),
      fun hmore => does_of_run ha rfl (hretire.trans (congrArg (conMove · d) (if_neg (Bool.not_eq_true _ ▸ hmore))))⟩
  case reclaim =>
    intro h hrec hflight hreset
    have hdone : (reclaiming s.chip d h && !inFlight s.chip d h) = true := by simp [hrec, hflight]
    exact does_of_event ha (exec_consistReclaimDone d h s) hdone (doConsistReclaimDone_noReset hreset)
  case refill => exact fun k hdue hmode hheld => does_of_event ha (exec_regulatorRefill k s) hdue (doRegulatorRefill_nothingHeld hmode hheld)

end Sys2Proof.Proofs
end

section
/-! SUPPORT. Commands and registers of the consist and of the points engines. -/

namespace Sys2Proof.Proofs

open Sys2Proof.Machine Sys2Proof.Laws

/-! ### The consist -/

section

variable {i : Nat} {p : List Nat} {m : Chip}

theorem doConRun_busy (h : runMeets m (fit 14 0 p) = true) : doConRun i p m = respond m i 1 [] := if_pos h

theorem doConRun_accepted (h : runMeets m (fit 14 0 p) = false) (hopen : conOpen m (dDie (fit 14 0 p)) = true) :
    doConRun i p m = conAccept (cmdOn m i [dDie (fit 14 0 p)]) (dDie (fit 14 0 p)) none i (fit 14 0 p) := by
  simp [doConRun, h, hopen]

theorem doConRegulate_found {k : Nat} (h : chooseReg m (nth p 0) = some k) :
    doConRegulate i p m = respond (regStart m (setCsr m (CON_REGk_CFG_MODE k).off
      (bitsN (nth p 0) 31 30 * 2 ^ 30 + bitsN (nth p 0) 23 16 * 2 ^ 16 + nth p 1 % 65536)) k) i 0 [k] := by
  simp only [doConRegulate, h]

theorem doConRegulate_none (h : chooseReg m (nth p 0) = none) :
    doConRegulate i p m = respond m i 0 [if bitsN (nth p 0) 31 30 = 0 then 0 else 2 ^ 31] := by
  simp only [doConRegulate, h]

end

/-- A reset that names a stage ends the descriptors there with STATUS 9 and reclaims the stages' hand-offs (R382). -/
theorem resetStages_some (m : Chip) (d : Nat) {st : Nat} (h : st % 16 ≠ 0) :
    resetStages m d st = startReclaim ((resetDescs m d st).foldl (fun c id => conEnd c d id 9 noBad) m) d ((idxs 4 st.testBit).flatMap stageHandoffs) := by
  have hbits : tb st = st.testBit := funext (tb_eq_testBit st)
  rw [resetStages, if_neg h, hbits]

theorem exec_conReset (i : Nat) (s : State) : exec (.conReset i) s = runCmd s i 0x0403 (doConReset i) := rfl

theorem exec_conResetWrite (v : Word) (s : State) :
    exec (.conResetWrite v) s = run s (fun m => resetStages (resetStages m 0 (bitsN v.toNat 3 0)) 1 (bitsN v.toNat 7 4)) := rfl

/-! ### The expert table -/

/-- A write of PTS_TBL_DATA leaves the jobs and every other entry; INDEX moves on, round after entry 4095 (R426). -/
theorem doPtsTblDataWrite_spec (v : Nat) (m : Chip) :
    tget 0 (fget m PTS_TBL_IDX_INDEX) (doPtsTblDataWrite v m).pts.table = v &&& 0x87FF0FFF ∧
    (∀ k, k ≠ fget m PTS_TBL_IDX_INDEX → tget 0 k (doPtsTblDataWrite v m).pts.table = tget 0 k m.pts.table) ∧
    fget (doPtsTblDataWrite v m) PTS_TBL_IDX_INDEX = (fget m PTS_TBL_IDX_INDEX + 1) % 4096 ∧ (doPtsTblDataWrite v m).pts.jobs = m.pts.jobs := by
  refine ⟨tget_tput_same _ _ _ _, fun k hk => tget_tput_ne _ _ hk _, ?_, rfl⟩
  exact (fget_fset _ PTS_TBL_IDX_INDEX _ (by decide) (by decide)).trans (Nat.mod_mod _ 4096)

section

variable {i : Nat} {p : List Nat} {m : Chip}

theorem doPtsTable_idle (hn : ptsJob m 0 = none) (hs : ptsJob m 1 = none) :
    doPtsTable i p m = respond ((List.range (nth p 1)).foldl (fun c k => setExpert c (nth p 0 + k) (nth p (2 + k))) m) i 0 [] := by
  simp [doPtsTable, hn, hs]

theorem doPtsTable_busy (h : (ptsJob m 0).isSome = true ∨ (ptsJob m 1).isSome = true) : doPtsTable i p m = respond m i 1 [] :=
  if_pos (Bool.or_eq_true_iff.mpr h)

/-! ### Jobs -/

theorem ptsSubmit_busy (hroute : jRoute (fit 14 0 p) = true) (hmeets : sendMeets m (fit 14 0 p) = true) : ptsSubmit i p m = respond m i 1 [] :=
  if_pos (Bool.and_eq_true_iff.mpr ⟨hroute, hmeets⟩)

theorem ptsSubmit_accepted (hfree : jRoute (fit 14 0 p) = false ∨ sendMeets m (fit 14 0 p) = false) (hopen : ptsOpen m (bitN (nth (fit 14 0 p) 6) 25) = true) :
    ptsSubmit i p m = ptsAccept (cmdOn m i [bitN (nth (fit 14 0 p) 6) 25]) (bitN (nth (fit 14 0 p) 6) 25) none i (fit 14 0 p) := by
  have hsend : (jRoute (fit 14 0 p) && sendMeets m (fit 14 0 p)) = false := Bool.and_eq_false_iff.mpr hfree
  simp [ptsSubmit, hsend, hopen]

end

/-- PTS.ROUTE and PTS.TALLY submit their job alike. -/
theorem exec_ptsSubmit {i code : Nat} {c : Instr} (h : (code, c) ∈ [(0x0502, Instr.ptsRoute i), (0x0503, .ptsTally i)]) (s : State) :
    exec c s = runCmd s i code (ptsSubmit i) := by
  simp only [List.mem_cons, Prod.mk.injEq, List.not_mem_nil, or_false] at h
  obtain ⟨rfl, rfl⟩ | ⟨rfl, rfl⟩ := h <;> rfl

/-! ### Resets of the points engines -/

theorem ptsResetMask_zero (m : Chip) : ptsResetMask m 0 = m := rfl

theorem ptsResetMask_north (m : Chip) : ptsResetMask m 1 = ptsEnd m 0 8 := rfl

theorem ptsResetMask_south (m : Chip) : ptsResetMask m 2 = ptsEnd m 1 8 := rfl

theorem ptsResetMask_both (m : Chip) : ptsResetMask m 3 = ptsEnd (ptsEnd m 0 8) 1 8 := rfl

/-- The mask of one engine resets that engine (R425). -/
theorem ptsResetMask_two_pow (m : Chip) {e : Nat} (h : e < 2) : ptsResetMask m (2 ^ e) = ptsEnd m e 8 := by
  obtain rfl | rfl : e = 0 ∨ e = 1 := by omega
  · exact ptsResetMask_north m
  · exact ptsResetMask_south m

theorem doPtsReset_eq (i : Nat) (p : List Nat) (m : Chip) : doPtsReset i p m = respond (ptsEnd m (bitN (nth p 0) 0) 8) i 0 [] := by
  have hbit : bitN (nth p 0) 0 < 2 := Nat.mod_lt _ (by decide)
  rw [doPtsReset, ptsResetMask_two_pow m hbit]

theorem exec_ptsResetWrite (v : Word) (s : State) : exec (.ptsResetWrite v) s = run s (fun m => ptsResetMask m (v.toNat % 4)) := rfl

/-- Settles O39: each command runs its effect on its payload, and what it finds of ranges, regulators, jobs and rows chooses what it does. -/
theorem consistAndPointsCommands : Obligations.ConsistAndPointsCommands := by
  refine ⟨fun s ha i => ⟨?busy, ?run, ?regulate, ?noRegulator, ?conReset, ?conResetWrite, fun d _ => resetStages_some s.chip d⟩,
    fun s ha i => ⟨?data, ?table, ?tableBusy, ?submit, ?ptsReset, ?ptsResetWrite⟩⟩
  case busy => exact fun hc hmeets => does_of_command ha rfl hc (doConRun_busy hmeets)
  case run => exact fun hc hmeets hopen => does_of_command ha rfl hc (doConRun_accepted hmeets hopen)
  case regulate => exact fun k hc hk => does_of_command ha rfl hc (doConRegulate_found hk)
  case noRegulator => exact fun hc hk => does_of_command ha rfl hc (doConRegulate_none hk)
  case conReset => exact fun hc => does_of_command ha (exec_conReset i s) hc rfl
  case conResetWrite => exact fun v => does_of_run ha (exec_conResetWrite v s) rfl
  case data => exact fun v => ⟨_, does_of_run ha rfl rfl, doPtsTblDataWrite_spec v.toNat s.chip⟩
  case table => exact fun hc hn hs => does_of_command ha rfl hc (doPtsTable_idle hn hs)
  case tableBusy => exact fun hc hjob => does_of_command ha rfl hc (doPtsTable_busy hjob)
  case submit =>
    intro code ins hins hc
    have hexec := exec_ptsSubmit hins s
    exact ⟨fun hroute hmeets => does_of_command ha hexec hc (ptsSubmit_busy hroute hmeets),
      fun hfree hopen => does_of_command ha hexec hc (ptsSubmit_accepted hfree hopen)⟩
  case ptsReset => exact fun hc => does_of_command ha rfl hc (doPtsReset_eq i _ _)
  case ptsResetWrite =>
    intro v
    have hdoes {c : Chip} {k : Nat} (hk : v.toNat % 4 = k) (h : ptsResetMask s.chip k = c) : Does (.ptsResetWrite v) s c :=
      does_of_run ha (exec_ptsResetWrite v s) ((congrArg (ptsResetMask s.chip) hk).trans h)
    exact ⟨fun hk => hdoes hk (ptsResetMask_north _), fun hk => hdoes hk (ptsResetMask_south _), fun hk => hdoes hk (ptsResetMask_both _),
      fun hk => hdoes hk (ptsResetMask_zero _)⟩

end Sys2Proof.Proofs
end

section
/-! SUPPORT. The points engines: what each event of a job does where its conditions hold, and what a job's end leaves of the engines. -/

namespace Sys2Proof.Proofs

open Sys2Proof.Machine Sys2Proof.Laws

/-! ### A job taken from its ring, and one that waits -/

theorem doPtsJobAccept_ring {m : Chip} {e n : Nat} (h : ptsRing m e = some n) : doPtsJobAccept e m = ringRead m n (fun _ => true) (ptsTake n) := by
  rw [doPtsJobAccept, h]

theorem doPtsWaitPoll_good {m : Chip} {e a : Nat} {j : Job} (hj : ptsJob m e = some j) (hwait : jWait j.w = some a) (hready : deviceReady m a 4 = true)
    (hgood : (loadWord m a false).2.1 = none) :
    doPtsWaitPoll e m = if nth j.w 10 ≤ (loadWord m a false).1 then setJob (loadWord m a false).2.2 e (some { j with run := true, start := m.ns })
      else (loadWord m a false).2.2 := by
  simp [doPtsWaitPoll, hj, hwait, hready, hgood]

/-! ### A job that runs -/

section

variable {m : Chip} {e : Nat} {j : Job} (hj : ptsJob m e = some j)

include hj

theorem ptsRuns_of_job (hrun : j.run = true) (hfin : j.fin = false) : ptsRuns m e (jRoute j.w) = true := by
  simp [ptsRuns, hj, hrun, hfin]

/-- With its areas in DEVICE bias the next part of the job runs (R598). -/
theorem ptsPart_ready (hready : ∀ a ∈ jAreas j.w, deviceReady m a.1 a.2 = true) (f : Job → PRun → PRun) : ptsPart e m f = pKeep e (f j { m := m, j := j }) := by
  simp only [ptsPart, hj]
  exact if_pos (List.all_eq_true.mpr hready)

theorem doRouteJobRun_token (hready : ∀ a ∈ jAreas j.w, deviceReady m a.1 a.2 = true) (h : j.tok < jTokens j.w) :
    doRouteJobRun e m = pKeep e (routeToken e { m := m, j := j }) :=
  (ptsPart_ready hj hready _).trans (congrArg (pKeep e) (if_pos h))

theorem doRouteJobRun_block (hready : ∀ a ∈ jAreas j.w, deviceReady m a.1 a.2 = true) (h : jTokens j.w ≤ j.tok) :
    doRouteJobRun e m = pKeep e (routeBlock e { m := m, j := j }) :=
  (ptsPart_ready hj hready _).trans (congrArg (pKeep e) (if_neg (Nat.not_lt.mpr h)))

theorem doTallyJobRun_local (hready : ∀ a ∈ jAreas j.w, deviceReady m a.1 a.2 = true) (h : j.blk < jPos j.w) :
    doTallyJobRun e m = pKeep e (tallyLocal e { m := m, j := j }) :=
  (ptsPart_ready hj hready _).trans (congrArg (pKeep e) (if_pos h))

theorem doTallyJobRun_words (hready : ∀ a ∈ jAreas j.w, deviceReady m a.1 a.2 = true) (h : jPos j.w ≤ j.blk) :
    doTallyJobRun e m = pKeep e (tallyWrite e { m := m, j := j }) :=
  (ptsPart_ready hj hready _).trans (congrArg (pKeep e) (if_neg (Nat.not_lt.mpr h)))

end

/-! ### What a job's end does to memory and to its sender leaves the engines -/

theorem kept_draw (m : Chip) : Kept m (draw m).2 := by constructor <;> rfl

theorem kept_loosen (m : Chip) (ln mask : Nat) (full : Bool) : Kept m (loosen m ln mask full) := by
  have hput (l : Line) : Kept m (putLine (draw m).2 ln l) := (kept_draw m).trans (kept_putLine _ _ _)
  exact .ite (.refl m) (.ite (hput _) (.ite (hput _) (kept_draw m)))

theorem kept_scramble (m : Chip) (wrote : Tab Nat) : Kept m (scramble m wrote) := by
  unfold scramble
  exact Kept.foldl _ (fun _ _ => kept_loosen _ _ _ _) wrote m

theorem kept_flipRange (m : Chip) (da n : Nat) : Kept m (flipRange m da n) := Kept.foldl _ (fun c g => kept_autoFlip c g true) _ m

theorem kept_addWord (m : Chip) (own : Owner) (da v : Nat) : Kept m (addWord m own da v) :=
  .ite (kept_noteFail _ _ _ _ _ _) ((((kept_readLine _ _ _).trans (kept_noteWb _ _ _)).trans (kept_putLine _ _ _)).trans (kept_noteFail _ _ _ _ _ _))

theorem kept_incWord (m : Chip) (own : Owner) (da : Nat) : Kept m (incWord m own da) :=
  (kept_bump m BUF_ATOM_CTR 1).trans (.ite (kept_addWord _ _ _ _) ((kept_flipRange _ _ _).trans (kept_host _ _)))

@[simp] theorem putCompletion_pts (m : Chip) (n seq : Nat) (ws : List Nat) : (putCompletion m n seq ws).pts = m.pts := by
  unfold putCompletion
  split
  case h_1 noRing => rfl
  case h_2 r hr =>
    split
    case isTrue ending => rfl
    case isFalse going => exact (((kept_mioStore _ _ _ _).trans (kept_host _ _)).trans (kept_msix _ _)).pts

@[simp] theorem ringDone_pts (m : Chip) (n : Nat) : (ringDone m n).pts = m.pts := by
  unfold ringDone modRing
  split
  case isTrue ending => rfl
  case isFalse going => split <;> rfl

/-- A response leaves the points engines. -/
@[simp] theorem respond_pts (m : Chip) (i st : Nat) (pay : List Nat) : (respond m i st pay).pts = m.pts := by
  have hput := (kept_putResp m i 0 ([st * 2 ^ 16 + pay.length, reqWord m i 1, 0] ++ pay)).pts
  unfold respond respondD
  dsimp only
  rw [(kept_msix _ _).pts]
  split <;> simpa using hput

/-! ### The end of a job -/

/-- What a job's end stores: its done word, or free values where it wrote and failed (R404, R406). -/
def jobStored (m : Chip) (j : Job) (st : Nat) : Chip :=
  if st = 0 then (match jDone j.w with
    | some a => incWord m (ownJob j) a
    | none => m)
  else scramble m j.wrote

theorem kept_jobStored (m : Chip) (j : Job) (st : Nat) : Kept m (jobStored m j st) := by
  refine .ite ?_ (kept_scramble _ _)
  split
  · exact kept_incWord _ _ _
  · exact .refl m

/-- The record of a job that ends (R407). -/
def jobRecord (m : Chip) (j : Job) (st : Nat) : List Nat :=
  [st * 65536 + bitsN (nth j.w 1) 31 16] ++ fit 6 0 j.counts ++ [elapsed m (if j.run then j.start else j.t0)]

/-- How a job's sender learns of its end: by the completion of its ring's entry, or by the response of its mailbox (R404, R407). -/
def jobReport (m : Chip) (j : Job) (st : Nat) (ws : List Nat) : Chip :=
  match j.ring with
  | some n => ringDone (if st ≠ 0 ∨ tb (nth j.w 0) 27 then putCompletion m n j.seq ws else m) n
  | none => respond m j.seq 0 ws

theorem jobReport_pts (m : Chip) (j : Job) (st : Nat) (ws : List Nat) : (jobReport m j st ws).pts = m.pts := by
  unfold jobReport
  split <;> simp [apply_ite Chip.pts]

section

variable {m : Chip} {e : Nat} {j : Job} (hj : ptsJob m e = some j) (st : Nat)

include hj

/-- A job ends by its stores, off its engine, and with its record to its sender. -/
theorem ptsEnd_of_job : ptsEnd m e st = jobReport (setJob (jobStored m j st) e none) j st (jobRecord m j st) := by
  rw [ptsEnd, hj]
  rfl

theorem ptsEnd_jobs : (ptsEnd m e st).pts.jobs = m.pts.jobs.set e none := by
  rw [ptsEnd_of_job hj, jobReport_pts]
  change (jobStored m j st).pts.jobs.set e none = _
  rw [(kept_jobStored m j st).pts]

theorem ptsJob_ptsEnd_same : ptsJob (ptsEnd m e st) e = none := by
  rw [ptsJob, ptsEnd_jobs hj, List.getD_eq_getElem?_getD, List.getElem?_set_self']
  cases m.pts.jobs[e]? <;> rfl

theorem ptsJob_ptsEnd_ne {f : Nat} (h : f ≠ e) : ptsJob (ptsEnd m e st) f = ptsJob m f := by
  rw [ptsJob, ptsEnd_jobs hj, List.getD_eq_getElem?_getD, List.getElem?_set_ne h.symm, ← List.getD_eq_getElem?_getD, ptsJob]

end

/-! ### The events -/

theorem exec_ptsJobAccept (e : Nat) (s : State) : exec (.ptsJobAccept e) s = runIf s (fun m => ptsOpen m e) (doPtsJobAccept e) := rfl

theorem exec_ptsWaitPoll (e : Nat) (s : State) : exec (.ptsWaitPoll e) s = runIf s (fun m => (ptsJob m e).any (fun j => !j.run)) (doPtsWaitPoll e) := rfl

theorem exec_ptsWaitTimeout (e : Nat) (s : State) : exec (.ptsWaitTimeout e) s = runIf s (fun m => ptsLate m e) (fun m => ptsEnd m e 6) := rfl

theorem exec_routeJobRun (e : Nat) (s : State) : exec (.routeJobRun e) s = runIf s (fun m => ptsRuns m e true) (doRouteJobRun e) := rfl

theorem exec_tallyJobRun (e : Nat) (s : State) : exec (.tallyJobRun e) s = runIf s (fun m => ptsRuns m e false) (doTallyJobRun e) := rfl

theorem exec_ptsJobComplete (e : Nat) (s : State) : exec (.ptsJobComplete e) s = runIf s (fun m => (ptsJob m e).any (·.fin)) (fun m => ptsEnd m e 0) := rfl

/-- Settles O40: each event runs its effect where its condition holds, the state of the job chooses what the effect does, and a job's end frees its engine and leaves the other's job. -/
theorem pointsJobsRun : Obligations.PointsJobsRun := by
  intro s ha e
  refine ⟨?accept, ?poll, ?late, ?run, ?complete, fun j hj st => ⟨ptsJob_ptsEnd_same hj st, fun f => ptsJob_ptsEnd_ne hj st⟩⟩
  case accept => exact fun n hopen hring => does_of_event ha (exec_ptsJobAccept e s) hopen (doPtsJobAccept_ring hring)
  case poll =>
    intro j a hj hrun hwait hready hgood
    have hwaits : (ptsJob s.chip e).any (fun j => !j.run) = true := by simp [hj, hrun]
    have hpoll := doPtsWaitPoll_good hj hwait hready hgood
    exact ⟨fun hmet => does_of_event ha (exec_ptsWaitPoll e s) hwaits (hpoll.trans (if_pos hmet)),
      fun hunmet => does_of_event ha (exec_ptsWaitPoll e s) hwaits (hpoll.trans (if_neg (Nat.not_le.mpr hunmet)))⟩
  case late => exact fun hlate => does_of_event ha (exec_ptsWaitTimeout e s) hlate rfl
  case run =>
    intro j hj hrun hfin hready
    have hruns := ptsRuns_of_job hj hrun hfin
    exact ⟨fun hroute htok => does_of_event ha (exec_routeJobRun e s) (hroute ▸ hruns) (doRouteJobRun_token hj hready htok),
      fun hroute htok => does_of_event ha (exec_routeJobRun e s) (hroute ▸ hruns) (doRouteJobRun_block hj hready htok),
      fun htally hblk => does_of_event ha (exec_tallyJobRun e s) (htally ▸ hruns) (doTallyJobRun_local hj hready hblk),
      fun htally hblk => does_of_event ha (exec_tallyJobRun e s) (htally ▸ hruns) (doTallyJobRun_words hj hready hblk)⟩
  case complete =>
    intro j hj hfin
    have hdone : (ptsJob s.chip e).any (·.fin) = true := by simp [hj, hfin]
    exact does_of_event ha (exec_ptsJobComplete e s) hdone rfl

end Sys2Proof.Proofs
end

section
/-! SUPPORT. Ports and lanes: how they read after an update. -/

namespace Sys2Proof.Proofs

open Sys2Proof.Machine Sys2Proof.Laws

/-! ### Ports -/

@[simp] theorem port_modPort (m : Chip) (p : Nat) (f : Port → Port) : port (modPort m p f) p = f (port m p) := tget_tput_same _ _ _ _

theorem port_of_ports {a b : Chip} (h : b.ports = a.ports) (p : Nat) : port b p = port a p := by
  rw [port, h, port]

@[simp] theorem port_fset (m : Chip) (f : Fld) (v p : Nat) : port (fset m f v) p = port m p := rfl

@[simp] theorem port_bump (m : Chip) (o n p : Nat) : port (bump m o n) p = port m p := port_of_ports (bump_ports m o n) p

@[simp] theorem fget_modPort (m : Chip) (p : Nat) (g : Port → Port) (f : Fld) : fget (modPort m p g) f = fget m f := rfl

@[simp] theorem linkSt_modPort (m : Chip) (p : Nat) (f : Port → Port) (q : Nat) : linkSt (modPort m p f) q = linkSt m q := rfl

/-- A port may be changed by any function that does the same to it. -/
theorem modPort_congr {m : Chip} {p : Nat} {f g : Port → Port} (h : f (port m p) = g (port m p)) : modPort m p f = modPort m p g := by
  rw [modPort, h, modPort]

/-- A response leaves the ports. -/
@[simp] theorem respondD_ports (m : Chip) (i st d : Nat) (pay : List Nat) : (respondD m i st d pay).ports = m.ports := by
  have hput := (kept_putResp m i 0 ([st * 2 ^ 16 + pay.length, reqWord m i 1, d] ++ pay)).ports
  unfold respondD
  dsimp only
  rw [(kept_msix _ _).ports]
  split <;> simpa [setMb] using hput

/-! ### Registers beside a counter -/

/-- A counter has two registers; any other reads as before. -/
theorem csr_bump_ne (m : Chip) {o q : Nat} (n : Nat) (hlo : q ≠ o) (hhi : q ≠ o + 4) : csr (bump m o n) q = csr m q := by
  have hctr (v : Nat) : csr (setCtr m o v) q = csr m q := by rw [setCtr, csr_setCsr_ne _ _ hhi, csr_setCsr_ne _ _ hlo]
  have herr (c : Chip) (e : ErrState) : csr { c with err := e } q = csr c q := rfl
  unfold bump
  dsimp only
  split
  case isTrue below => rw [hctr]
  case isFalse past =>
    split
    case isTrue noted => rw [hctr]
    case isFalse new => rw [herr, csr_setCsr_ne _ _ hhi, hctr]

theorem fget_bump_ne (m : Chip) {o : Nat} (n : Nat) {f : Fld} (hlo : f.off ≠ o) (hhi : f.off ≠ o + 4) : fget (bump m o n) f = fget m f :=
  congrArg (fun w => bitsN w f.hi f.lo) (csr_bump_ne m n hlo hhi)

/-! ### The states of the lanes -/

/-- The field of lane n in LNKp_LSTATE (R484). -/
def laneFld (p n : Nat) : Fld := ⟨(LNKp_LSTATE_STATE0 p).off, 4 * n + 3, 4 * n⟩

theorem laneSt_eq_fget (m : Chip) (p n : Nat) : laneSt m p n = fget m (laneFld p n) := rfl

theorem setLane_eq_fset (m : Chip) (p n st : Nat) : setLane m p n st = fset m (laneFld p n) st := rfl

theorem laneSt_setLane_same (m : Chip) (p : Nat) {n st : Nat} (hn : n < 4) (hst : st < 16) : laneSt (setLane m p n st) p n = st := by
  have hw : (laneFld p n).hi + 1 - (laneFld p n).lo = 4 := by simp only [laneFld]; omega
  rw [laneSt_eq_fget, setLane_eq_fset, fget_fset m (laneFld p n) st (by simp [laneFld]) (by simp only [laneFld]; omega), hw]
  exact Nat.mod_eq_of_lt hst

theorem laneSt_setLane_ne (m : Chip) (p st : Nat) {n k : Nat} (hk : k < 4) (h : k ≠ n) : laneSt (setLane m p n st) p k = laneSt m p k := by
  rw [laneSt_eq_fget, setLane_eq_fset]
  exact fget_fset_apart m (laneFld p n) (laneFld p k) st (by simp [laneFld]) rfl (by simp only [laneFld]; omega) (by simp only [laneFld]; omega)

theorem fget_setLane_ne (m : Chip) (p n st : Nat) {f : Fld} (h : f.off ≠ (LNKp_LSTATE_STATE0 p).off) : fget (setLane m p n st) f = fget m f :=
  fget_setCsr_ne m _ h

@[simp] theorem linkSt_setLane (m : Chip) (p n st : Nat) : linkSt (setLane m p n st) p = linkSt m p :=
  fget_setLane_ne m p n st (by simp [LNKp_LINK_STATE, LNKp_LSTATE_STATE0])

/-- The lanes of an empty mask. -/
@[simp] theorem setLanes_zero (m : Chip) (p st : Nat) : setLanes m p 0 st = m := rfl

@[simp] theorem port_setLanes (m : Chip) (p mask st q : Nat) : port (setLanes m p mask st) q = port m q := by
  unfold setLanes
  induction (List.range 4).filter (tb mask) generalizing m with
  | nil => rfl
  | cons n l ih => exact ih (setLane m p n st)

/-! ### The kept parts of the lanes -/

@[simp] theorem linkSt_modLane (m : Chip) (p n : Nat) (f : Lane → Lane) (q : Nat) : linkSt (modLane m p n f) q = linkSt m q := rfl

@[simp] theorem fget_foldl_modLane (p : Nat) (f : Lane → Lane) (g : Fld) (l : List Nat) (m : Chip) : fget (l.foldl (fun c n => modLane c p n f) m) g = fget m g := by
  induction l generalizing m with
  | nil => rfl
  | cons n l ih => exact ih (modLane m p n f)

/-- What of a port does not depend on its lanes stays when they change. -/
theorem port_foldl_modLane {β : Type} (g : Port → β) (hg : ∀ q ls, g { q with lanes := ls } = g q) (p : Nat) (f : Lane → Lane) (l : List Nat) (m : Chip) :
    g (port (l.foldl (fun c n => modLane c p n f) m) p) = g (port m p) := by
  induction l generalizing m with
  | nil => rfl
  | cons n l ih =>
    refine (ih (modLane m p n f)).trans ?_
    rw [modLane, port_modPort, hg]

end Sys2Proof.Proofs
end

section
/-! SUPPORT. Fervin lanes: how a lane trains and fails, and how its port settles its rate. -/

namespace Sys2Proof.Proofs

open Sys2Proof.Machine Sys2Proof.Laws

/-! ### A lane's steps -/

theorem doLaneSignalDetect_detect {m : Chip} {p n : Nat} (h : linkSt m p = 1) :
    doLaneSignalDetect p n m = setLink (modLane (setLane m p n 2) p n (fun l => { l with t0 := m.ns })) p 2 :=
  if_pos ((linkSt_setLane m p n 2).trans h)

theorem doLaneSignalDetect_train {m : Chip} {p n : Nat} (h : linkSt m p = 2) :
    doLaneSignalDetect p n m = modLane (setLane m p n 2) p n (fun l => { l with t0 := m.ns }) := by
  refine if_neg ?_
  rw [linkSt_modLane, linkSt_setLane, h]
  decide

theorem laneOk_of_lt {p n : Nat} (hp : p < 36) (hn : n < 4) : laneOk p n = true := by
  simp [laneOk, hp, hn]

/-- A lane in CDR, FRAME, ADAPT or STEP is late once its time is over (R486). -/
theorem laneLate_training {m : Chip} {p n : Nat} (hin : laneSt m p n ∈ [2, 3, 4, 6]) (ht : ((port m p).lanes.getD n {}).t0 + laneLimit m p ≤ m.ns) :
    laneLate m p n = true :=
  Bool.and_eq_true_iff.mpr ⟨Bool.or_eq_true_iff.mpr (.inl (List.contains_iff_mem.mpr hin)), decide_eq_true ht⟩

/-! ### The rate of a port whose lanes are decided -/

/-- The lanes that pass at the rate tried, by the far end's RX_OK (R488). -/
def ratePass (m : Chip) (p ok : Nat) : Nat := lanesIn m p [5] &&& ok

/-- The port with the far end's RX_OK. -/
def rateHeard (m : Chip) (p ok : Nat) : Chip := modPort m p (fun q => { q with farOk := ok })

/-- What has passed at each rate, with the one tried. -/
def ratesPassed (m : Chip) (p ok : Nat) : List Nat := setAt (port m p).passed (port m p).tryRate (ratePass m p ok + 1)

/-- The port with what has passed at each rate. -/
def rateNoted (m : Chip) (p ok : Nat) : Chip := modPort (rateHeard m p ok) p (fun q => { q with passed := ratesPassed m p ok })

/-- The lanes that pass go on to the next rate, and the others fail (R489). -/
def rateUp (m : Chip) (p ok : Nat) : Chip :=
  ((List.range 4).filter (tb (ratePass m p ok))).foldl (fun c n => modLane c p n (fun l => { l with t0 := m.ns }))
    (modPort (fset (setLanes (setLanes (rateNoted m p ok) p (15 - ratePass m p ok) 7) p (ratePass m p ok) 6) (LNKp_STAT_RATE p) ((port m p).tryRate + 1)) p
      (fun q => { q with tryRate := q.tryRate + 1 }))

/-- The lanes of the best rate go back to it for their verification (R489). -/
def rateBack (m : Chip) (p ok : Nat) : Chip :=
  ((List.range 4).filter (tb (bestRate (ratesPassed m p ok)).2)).foldl (fun c n => modLane c p n (fun l => { l with t0 := m.ns }))
    (modPort (fset (fset (setLanes (rateNoted m p ok) p (bestRate (ratesPassed m p ok)).2 4) (LNKp_STAT_RATE p) (bestRate (ratesPassed m p ok)).1) (LNKp_STAT_RATE_FALLBACK p) 1) p
      (fun q => { q with verify := true }))

section

variable {m : Chip} {p ok req mx : Nat}

theorem doLaneRateStep_verify (hv : (port m p).verify = true) :
    doLaneRateStep p ok req mx m = if selectLanes (ratePass m p ok) = 0 then linkDown (rateHeard m p ok) p else settleRate (rateHeard m p ok) p (selectLanes (ratePass m p ok)) :=
  if_pos hv

/-- Both ends can step up: they do once the far end asks for the same rate. -/
theorem doLaneRateStep_up (hv : (port m p).verify = false) (hpass : ratePass m p ok ≠ 0) (hup : (port m p).tryRate < min (fget m (LNKp_CFG_MAX_RATE p)) mx) :
    doLaneRateStep p ok req mx m = if req = (port m p).tryRate + 1 then rateUp m p ok else m := by
  have hcan : (ratePass m p ok != 0 && decide ((port m p).tryRate < min (fget m (LNKp_CFG_MAX_RATE p)) mx)) = true := by simp [hpass, hup]
  exact (if_neg (by simp [hv])).trans (if_pos hcan)

/-- No further step: the best rate tried decides. -/
theorem doLaneRateStep_top (hv : (port m p).verify = false) (h : ratePass m p ok = 0 ∨ ¬ (port m p).tryRate < min (fget m (LNKp_CFG_MAX_RATE p)) mx) :
    doLaneRateStep p ok req mx m = if (bestRate (ratesPassed m p ok)).2 = 0 then rateNoted m p ok
      else if (bestRate (ratesPassed m p ok)).1 < (port m p).tryRate then rateBack m p ok
      else settleRate (rateNoted m p ok) p (bestRate (ratesPassed m p ok)).2 := by
  have hcannot : ¬ (ratePass m p ok != 0 && decide ((port m p).tryRate < min (fget m (LNKp_CFG_MAX_RATE p)) mx)) = true := by
    simp only [Bool.and_eq_true, bne_iff_ne, decide_eq_true_eq]
    tauto
  exact (if_neg (by simp [hv])).trans (if_neg hcannot)

theorem rateUp_tryRate : (port (rateUp m p ok) p).tryRate = (port m p).tryRate + 1 := by
  refine (port_foldl_modLane (·.tryRate) (fun _ _ => rfl) p _ _ _).trans ?_
  simp only [port_modPort, port_fset, port_setLanes, rateNoted, rateHeard]

theorem rateUp_rate (h : (port m p).tryRate < 3) : fget (rateUp m p ok) (LNKp_STAT_RATE p) = (port m p).tryRate + 1 := by
  rw [rateUp, fget_foldl_modLane, fget_modPort, fget_fset _ _ _ (by simp [LNKp_STAT_RATE]) (by simp [LNKp_STAT_RATE])]
  simp only [LNKp_STAT_RATE]
  omega

theorem rateBack_verify : (port (rateBack m p ok) p).verify = true := by
  refine (port_foldl_modLane (·.verify) (fun _ _ => rfl) p _ _ _).trans ?_
  rw [port_modPort]

theorem rateBack_fallback : fget (rateBack m p ok) (LNKp_STAT_RATE_FALLBACK p) = 1 := by
  rw [rateBack, fget_foldl_modLane, fget_modPort, fget_fset _ _ _ (by simp [LNKp_STAT_RATE_FALLBACK]) (by simp [LNKp_STAT_RATE_FALLBACK])]
  simp [LNKp_STAT_RATE_FALLBACK]

end

/-! ### The events -/

theorem exec_laneSignalDetect (p n : Nat) (s : State) :
    exec (.laneSignalDetect p n) s = runIf s (fun m => laneOk p n && laneSt m p n == 1 && (linkSt m p == 1 || linkSt m p == 2)) (doLaneSignalDetect p n) := rfl

theorem exec_laneCdrLock (p n : Nat) (s : State) :
    exec (.laneCdrLock p n) s = runIf s (fun m => laneOk p n && (laneSt m p n == 2 || laneSt m p n == 6)) (fun m => setLane m p n 3) := rfl

theorem exec_laneFrameLock (p n skew field : Nat) (s : State) :
    exec (.laneFrameLock p n skew field) s = runIf s (fun m => laneOk p n && laneSt m p n == 3) (doLaneFrameLock p n skew field) := rfl

theorem exec_laneAdaptPass (p n corrected uncorr : Nat) (s : State) :
    exec (.laneAdaptPass p n corrected uncorr) s = runIf s (fun m => laneOk p n && laneSt m p n == 4 && uncorr == 0 && decide (corrected ≤ 128))
      (fun m => restoreDone (setLane m p n 5) p) := rfl

theorem exec_laneAdaptTimeout (p n : Nat) (s : State) :
    exec (.laneAdaptTimeout p n) s = runIf s (fun m => laneOk p n && laneLate m p n) (fun m => restoreDone (setLane m p n 7) p) := rfl

theorem exec_laneRateStep (p ok req mx : Nat) (s : State) :
    exec (.laneRateStep p ok req mx) s = runIf s (fun m => decide (p < 36) && linkSt m p == 2 && lanesIn m p [5, 7] == 15)
      (doLaneRateStep p (ok % 16) req (min 3 mx)) := rfl

theorem exec_portBringupTimeout (p : Nat) (s : State) :
    exec (.portBringupTimeout p) s = runIf s (fun m => decide (p < 36) && (linkSt m p == 1 || linkSt m p == 2) && (port m p).tryRate == 0 &&
      decide ((port m p).bringT0 + 100000000 ≤ m.ns)) (fun m => linkDown (setLanes m p 15 7) p) := rfl

theorem exec_laneFail (p n cause : Nat) (s : State) :
    exec (.laneFail p n cause) s = runIf s (fun m => laneOk p n && failCause m p n cause)
      (fun m => lanesFail (if cause = 1 then bump m (LNKp_LOCK_CTR p) 1 else m) p (2 ^ n)) := rfl

theorem exec_farLoopExit (p : Nat) (s : State) :
    exec (.farLoopExit p) s = runIf s (fun m => decide (p < 36) && (port m p).farLoop && decide ((port m p).loopT0 + frameNs m p 16 ≤ m.ns))
      (fun m => modPort m p (fun q => { q with farLoop := false })) := rfl

section

variable {s : State} {p n : Nat} (ha : acts s = true) (hp : p < 36) (hn : n < 4)

include ha hp

/-- A rate step of a port in TRAIN whose lanes are decided. -/
theorem does_laneRateStep {ok req mx : Nat} {m : Chip} (hl : linkSt s.chip p = 2) (hd : lanesIn s.chip p [5, 7] = 15)
    (h : doLaneRateStep p (ok % 16) req (min 3 mx) s.chip = m) : Does (.laneRateStep p ok req mx) s m :=
  does_of_event ha (exec_laneRateStep p ok req mx s) (by simp [hp, hl, hd]) h

include hn

/-- A lane in use fails by a cause that holds (R500). -/
theorem does_laneFail {cause : Nat} (hc : failCause s.chip p n cause = true) :
    Does (.laneFail p n cause) s (lanesFail (if cause = 1 then bump s.chip (LNKp_LOCK_CTR p) 1 else s.chip) p (2 ^ n)) :=
  does_of_event ha (exec_laneFail p n cause s) (by simp [laneOk_of_lt hp hn, hc]) rfl

end

theorem failCause_used {m : Chip} {p n cause : Nat} (hu : tb (lanesUsed m p) n = true)
    (hc : cause = 0 ∨ cause = 1 ∨ (cause = 2 ∧ fget m LNK_CTRL_UE_MAX < ((port m p).lanes.getD n {}).ueEpoch) ∨ (cause = 3 ∧ tb (port m p).farOk n = false)) :
    failCause m p n cause = true := by
  obtain rfl | rfl | ⟨rfl, hue⟩ | ⟨rfl, hok⟩ := hc
  · simp [failCause, hu]
  · simp [failCause, hu]
  · simpa [failCause, hu] using hue
  · simp [failCause, hu, hok]

/-- Settles O41: the state of the lane and of its link chooses each step, and the lanes that pass and the rates tried choose the port's rate. -/
theorem lanesTrainAndFail : Obligations.LanesTrainAndFail := by
  intro s ha p n hp hn
  have hok := laneOk_of_lt hp hn
  refine ⟨?detect, ?train, ?cdr, ?frame, ?adapt, ?late, ?states, ?rate, ?bringUp, ?fail, ?comma, ?farLoop⟩
  case detect => exact fun hl h => does_of_event ha (exec_laneSignalDetect p n s) (by simp [hok, hl, h]) (doLaneSignalDetect_detect h)
  case train => exact fun hl h => does_of_event ha (exec_laneSignalDetect p n s) (by simp [hok, hl, h]) (doLaneSignalDetect_train h)
  case cdr => exact fun hl => does_of_event ha (exec_laneCdrLock p n s) (by simpa [hok] using hl) rfl
  case frame =>
    intro skew field hl
    have hframe {m : Chip} (h : doLaneFrameLock p n skew field s.chip = m) : Does (.laneFrameLock p n skew field) s m :=
      does_of_event ha (exec_laneFrameLock p n skew field s) (by simp [hok, hl]) h
    exact ⟨fun hs hf => hframe (if_pos ⟨hs, hf⟩), fun h => hframe (if_neg (by omega))⟩
  case adapt => exact fun c hl hc => does_of_event ha (exec_laneAdaptPass p n c 0 s) (by simp [hok, hl, hc]) rfl
  case late =>
    intro st hst hl ht
    exact does_of_event ha (exec_laneAdaptTimeout p n s) (by simp [hok, laneLate_training (hl ▸ hst) ht]) rfl
  case states => exact fun st hst => ⟨laneSt_setLane_same _ _ hn (by omega), fun k hk hne => laneSt_setLane_ne _ _ _ hk hne⟩
  case rate =>
    intro ok req mx hl hd
    have hstep {m : Chip} (h : doLaneRateStep p (ok % 16) req (min 3 mx) s.chip = m) := does_laneRateStep ha hp hl hd h
    refine ⟨?wait, ?up, ?none, ?settle, ?back, ?lost, ?verified⟩
    case wait => exact fun hv hpass hup hreq => hstep ((doLaneRateStep_up hv hpass hup).trans (if_neg hreq))
    case up =>
      intro hv hpass hup hreq
      exact ⟨_, hstep ((doLaneRateStep_up hv hpass hup).trans (if_pos hreq)), rateUp_tryRate, rateUp_rate (by omega)⟩
    case none => exact fun hv htop hb => hstep ((doLaneRateStep_top hv htop).trans (if_pos hb))
    case settle => exact fun hv htop hb hle => hstep (((doLaneRateStep_top hv htop).trans (if_neg hb)).trans (if_neg (Nat.not_lt.mpr hle)))
    case back =>
      intro hv htop hb hlt
      exact ⟨_, hstep (((doLaneRateStep_top hv htop).trans (if_neg hb)).trans (if_pos hlt)), rateBack_verify, rateBack_fallback⟩
    case lost => exact fun hv hsel => hstep ((doLaneRateStep_verify hv).trans (if_pos hsel))
    case verified => exact fun hv hsel => hstep ((doLaneRateStep_verify hv).trans (if_neg hsel))
  case bringUp => exact fun hl h0 ht => does_of_event ha (exec_portBringupTimeout p s) (by simpa [hp, h0, ht] using hl) rfl
  case fail =>
    intro cause hu hc
    have hne : cause ≠ 1 := by omega
    have hdoes := does_laneFail ha hp hn (failCause_used hu (by tauto))
    rwa [if_neg hne] at hdoes
  case comma => exact fun hu => does_laneFail ha hp hn (failCause_used hu (.inr (.inl rfl)))
  case farLoop => exact fun hf ht => does_of_event ha (exec_farLoopExit p s) (by simp [hp, hf, ht]) rfl

end Sys2Proof.Proofs
end

section
/-! SUPPORT. What a port's lanes count: eye points, loop tests and received frames. -/

namespace Sys2Proof.Proofs

open Sys2Proof.Machine Sys2Proof.Laws

/-! ### Eye points -/

theorem exec_eyePointDone (p : Nat) (errs : List Nat) (s : State) : exec (.eyePointDone p errs) s = runIf s (fun _ => decide (p < 36)) (doEyePointDone p errs) := rfl

section

variable {m : Chip} {p : Nat} (errs : List Nat)

/-- Software's point: its errors are added to the counters of its lanes, and it is done (R495). -/
theorem doEyePointDone_busy (hb : fon m (LNKp_EYE_STAT_BUSY p) = true) :
    doEyePointDone p errs m =
      fset (fset (((List.range 4).filter (tb (fget m (LNKp_EYE_CTRL_LANES p)))).foldl (fun c n => bump c (LNKp_Ln_EYE_CTR p n) (nth errs n)) m)
        (LNKp_EYE_STAT_BUSY p) 0) (LNKp_EYE_STAT_DONE p) (fget m (LNKp_EYE_CTRL_LANES p)) :=
  if_pos hb

theorem doEyePointDone_scan {e : EyeScan} (hb : fon m (LNKp_EYE_STAT_BUSY p) = false) (he : (port m p).eye = some e) (hon : possOn m p [2] = true) :
    doEyePointDone p errs m = scanPoint m p e errs := by
  simp only [doEyePointDone, hb, he, hon, if_true, Bool.false_eq_true, if_false]

theorem doEyePointDone_none (hb : fon m (LNKp_EYE_STAT_BUSY p) = false) (he : (port m p).eye = none) : doEyePointDone p errs m = m := by
  simp only [doEyePointDone, hb, he, Bool.false_eq_true, if_false]

end

/-! ### Loop tests -/

/-- Counting leaves the ports. -/
theorem port_foldl_bump (o k : Nat → Nat) (p : Nat) (l : List Nat) (m : Chip) : port (l.foldl (fun c n => bump c (o n) (k n)) m) p = port m p := by
  induction l generalizing m with
  | nil => rfl
  | cons n l ih => exact (ih _).trans (port_bump _ _ _ _)

theorem exec_loopTestEnd (p locked : Nat) (errs : List Nat) (compared uncorr : Nat) (s : State) :
    exec (.loopTestEnd p locked errs compared uncorr) s = runIf s (fun m => decide (p < 36) && loopOver m p locked) (doLoopTestEnd p locked errs compared uncorr) := rfl

section

variable {m : Chip} {p i lp w t0 locked : Nat} (hloop : (port m p).loop = some (i, lp, w, t0))

include hloop

/-- A test is over with its time, or with the 1 ms in which no lane of a far-end loop has locked (R498, R499). -/
theorem loopOver_iff : loopOver m p locked = true ↔ t0 + 2 ^ w ≤ m.ns ∨ (lp / 4 = 3 ∧ locked = 0) ∧ t0 + 1000000 ≤ m.ns := by
  simp [loopOver, hloop]

theorem doLoopTestEnd_noFar (errs : List Nat) (compared uncorr : Nat) (hfar : lp / 4 = 3) (hl : locked % 16 = 0) :
    doLoopTestEnd p locked errs compared uncorr m = fail (modPort m p (fun q => { q with loop := none })) i 0x0702 := by
  simp only [doLoopTestEnd, hloop, hfar, hl, and_self, if_true]

/-- However a test ends, its port has none. -/
theorem doLoopTestEnd_loop (errs : List Nat) (compared uncorr : Nat) : (port (doLoopTestEnd p locked errs compared uncorr m) p).loop = none := by
  by_cases hno : lp / 4 = 3 ∧ locked % 16 = 0
  case pos =>
    rw [doLoopTestEnd_noFar hloop errs compared uncorr hno.1 hno.2, fail, port_of_ports (respondD_ports _ _ _ _ _), port_modPort]
  case neg =>
    simp only [doLoopTestEnd, hloop, if_neg hno, respond]
    rw [port_of_ports (respondD_ports _ _ _ _ _)]
    simp only [apply_ite (port · p), port_bump, ite_self, port_foldl_bump, port_modPort]

end

/-! ### Received frames -/

theorem exec_laneFrameReceive (p n : Nat) (v : Word) (errs : List Nat) (msg : List Byte) (s : State) :
    exec (.laneFrameReceive p n v errs msg) s = runIf s (fun m => laneOk p n && decide (4 ≤ laneSt m p n) && laneSt m p n != 6)
      (doLaneFrameReceive p n v.toNat errs msg) := rfl

/-- The counters of a lane's codewords, with those of one frame (R482). -/
def frameCounted (m : Chip) (p n corr bad : Nat) : Chip :=
  modLane (bump (bump m (LNKp_Ln_CE_CTR p n) corr) (LNKp_Ln_UE_CTR p n) bad) p n (fun l => { l with ueEpoch := l.ueEpoch + bad })

theorem linkSt_frameCounted (m : Chip) (p corr bad : Nat) {n : Nat} (hn : n < 4) : linkSt (frameCounted m p n corr bad) p = linkSt m p := by
  have hbelow (o k : Nat) (c : Chip) (h : o + 4 < 0x701c0 + 0x100 * p) : linkSt (bump c o k) p = linkSt c p :=
    fget_bump_ne c k (Nat.ne_of_gt (by simp only [LNKp_LINK_STATE]; omega)) (Nat.ne_of_gt h)
  rw [frameCounted, linkSt_modLane, hbelow _ _ _ (by simp only [LNKp_Ln_UE_CTR]; omega), hbelow _ _ _ (by simp only [LNKp_Ln_CE_CTR]; omega)]

theorem restore_frameCounted (m : Chip) (p n corr bad : Nat) : (port (frameCounted m p n corr bad) p).restore = (port m p).restore := by
  rw [frameCounted, modLane, port_modPort, port_bump, port_bump]

theorem restoreDone_idle {m : Chip} {p : Nat} (h : (port m p).restore = 0) : restoreDone m p = m := by
  simp [restoreDone, h]

theorem loopReq_false (m : Chip) (p : Nat) : loopReq m p false = m := rfl

/-- The symbol errors that a frame's good codewords had corrected. -/
def corrected (errs : List Nat) : Nat := ((List.range 4).map (fun i => if nth errs i ≤ 15 then nth errs i else 0)).foldl (· + ·) 0

/-- The codewords of a frame with more than 15 symbol errors. -/
def uncorrectable (errs : List Nat) : Nat := ((List.range 4).filter (fun i => decide (15 < nth errs i))).length

/-- What a frame gives its lane and its port before its message is placed: the counts of its codewords, and from a good header RX_OK and LOOP_REQ. -/
def frameHeard (m : Chip) (p n v : Nat) (errs : List Nat) : Chip :=
  if v / 65536 + v % 65536 == 0xFFFF then
    loopReq (restoreDone (modPort (frameCounted m p n (corrected errs) (uncorrectable errs)) p (fun q => { q with farOk := bitsN (v / 65536) 3 0 })) p) p (tb (v / 65536) 4)
  else frameCounted m p n 0 4

section

variable {m : Chip} {p n v : Nat} {errs : List Nat} (msg : List Byte)

/-- A frame of a port without traffic brings no message. -/
theorem doLaneFrameReceive_noTraffic (hl : linkSt (frameHeard m p n v errs) p < 3) : doLaneFrameReceive p n v errs msg m = frameHeard m p n v errs := by
  have hdone : (!tb (lanesUsed (frameHeard m p n v errs) p) n || decide (linkSt (frameHeard m p n v errs) p < 3)) = true :=
    Bool.or_eq_true_iff.mpr (.inr (decide_eq_true hl))
  cases hhdr : (v / 65536 + v % 65536 == 0xFFFF)
  case true =>
    simp only [frameHeard, doLaneFrameReceive, hhdr, if_true] at hdone ⊢
    exact if_pos hdone
  case false =>
    simp only [frameHeard, doLaneFrameReceive, hhdr, if_false, Bool.false_eq_true] at hdone ⊢
    exact if_pos hdone

variable (hn : n < 4) (hl : linkSt m p < 3)

include hn hl

/-- Each codeword of a frame whose header does not agree counts as uncorrectable. -/
theorem doLaneFrameReceive_badHeader (hv : v / 65536 + v % 65536 ≠ 0xFFFF) : doLaneFrameReceive p n v errs msg m = frameCounted m p n 0 4 := by
  have hheard : frameHeard m p n v errs = frameCounted m p n 0 4 := by simp [frameHeard, hv]
  rw [doLaneFrameReceive_noTraffic, hheard]
  rwa [hheard, linkSt_frameCounted _ _ _ _ hn]

/-- With no lane to restore and no loop asked for, a good header gives RX_OK alone. -/
theorem doLaneFrameReceive_goodHeader (hv : v / 65536 + v % 65536 = 0xFFFF) (hreq : tb (v / 65536) 4 = false) (hr : (port m p).restore = 0) :
    doLaneFrameReceive p n v errs msg m =
      modPort (frameCounted m p n (corrected errs) (uncorrectable errs)) p (fun q => { q with farOk := bitsN (v / 65536) 3 0 }) := by
  have hheard : frameHeard m p n v errs =
      modPort (frameCounted m p n (corrected errs) (uncorrectable errs)) p (fun q => { q with farOk := bitsN (v / 65536) 3 0 }) := by
    rw [frameHeard, if_pos (beq_iff_eq.mpr hv), hreq, loopReq_false, restoreDone_idle]
    rw [port_modPort]
    exact (restore_frameCounted m p n _ _).trans hr
  rw [doLaneFrameReceive_noTraffic, hheard]
  rwa [hheard, linkSt_modPort, linkSt_frameCounted _ _ _ _ hn]

end

/-- Settles O42: what runs on the port chooses what a point or a test's end does, and a frame of a port without traffic counts its codewords and gives RX_OK. -/
theorem eyePointsLoopsAndFrames : Obligations.EyePointsLoopsAndFrames := by
  intro s ha p hp
  refine ⟨?point, ?scan, ?idle, ?loop, ?frame⟩
  case point => exact fun errs hb => does_of_event ha (exec_eyePointDone p errs s) (decide_eq_true hp) (doEyePointDone_busy errs hb)
  case scan => exact fun errs e hb he hon => does_of_event ha (exec_eyePointDone p errs s) (decide_eq_true hp) (doEyePointDone_scan errs hb he hon)
  case idle => exact fun errs hb he => does_of_event ha (exec_eyePointDone p errs s) (decide_eq_true hp) (doEyePointDone_none errs hb he)
  case loop =>
    intro i lp w t0 locked errs compared uncorr hloop
    have hends {m : Chip} (hover : t0 + 2 ^ w ≤ s.chip.ns ∨ (lp / 4 = 3 ∧ locked = 0) ∧ t0 + 1000000 ≤ s.chip.ns)
        (h : doLoopTestEnd p locked errs compared uncorr s.chip = m) : Does (.loopTestEnd p locked errs compared uncorr) s m :=
      does_of_event ha (exec_loopTestEnd p locked errs compared uncorr s) (by simpa [hp] using (loopOver_iff hloop).mpr hover) h
    exact ⟨fun hmod hfar ht h0 => hends (.inr ⟨⟨hfar, h0⟩, ht⟩) (doLoopTestEnd_noFar hloop errs compared uncorr hfar hmod),
      fun ht _ => ⟨_, hends (.inl ht) rfl, doLoopTestEnd_loop hloop errs compared uncorr⟩⟩
  case frame =>
    intro n v errs msg hn hst
    have hlocked : 4 ≤ laneSt s.chip p n ∧ laneSt s.chip p n ≠ 6 := by
      simp only [List.mem_cons, List.not_mem_nil, or_false] at hst
      omega
    have htakes {m : Chip} (h : doLaneFrameReceive p n v.toNat errs msg s.chip = m) : Does (.laneFrameReceive p n v errs msg) s m :=
      does_of_event ha (exec_laneFrameReceive p n v errs msg s) (by simp [laneOk_of_lt hp hn, hlocked]) h
    exact ⟨htakes rfl, fun hv hl => htakes (doLaneFrameReceive_badHeader msg hn hl hv),
      fun hv hl hreq hr => htakes (doLaneFrameReceive_goodHeader msg hn hl hv hreq hr)⟩

end Sys2Proof.Proofs
end

section
/-! SUPPORT. The eye and configuration registers of a port, and the LNK commands. -/

namespace Sys2Proof.Proofs

open Sys2Proof.Machine Sys2Proof.Laws

/-! ### Registers -/

theorem exec_eyeStartWrite (p : Nat) (v : Word) (s : State) :
    exec (.eyeStartWrite p v) s = runIf s (fun _ => decide (p < 36) && tb v.toNat 31) (doEyeStartWrite p v.toNat) := rfl

theorem doEyeStartWrite_refused {m : Chip} {p v : Nat} (h : possOn (writeFields m (LNKp_EYE_CTRL_START p).off v) p [1, 2] = false) :
    doEyeStartWrite p v m = fset (writeFields m (LNKp_EYE_CTRL_START p).off v) (LNKp_EYE_STAT_REFUSED p) 1 :=
  if_neg (by simp [h])

/-- A point that starts is busy and not done. -/
theorem doEyeStartWrite_started {m : Chip} {p v : Nat} (h : possOn (writeFields m (LNKp_EYE_CTRL_START p).off v) p [1, 2] = true) :
    fget (doEyeStartWrite p v m) (LNKp_EYE_STAT_BUSY p) = 1 ∧ fget (doEyeStartWrite p v m) (LNKp_EYE_STAT_DONE p) = 0 := by
  simp only [doEyeStartWrite, h, if_true]
  refine ⟨?busy, ?done⟩
  case busy =>
    rw [fget_fset_apart _ (LNKp_EYE_STAT_DONE p) (LNKp_EYE_STAT_BUSY p) _ (Nat.zero_le 3) rfl (by simp [LNKp_EYE_STAT_BUSY]) (.inr (by simp [LNKp_EYE_STAT_BUSY, LNKp_EYE_STAT_DONE]))]
    exact fget_fset _ (LNKp_EYE_STAT_BUSY p) 1 (Nat.le_refl 31) (Nat.lt_succ_self 31)
  case done => exact fget_fset _ (LNKp_EYE_STAT_DONE p) 0 (Nat.zero_le 3) (by simp [LNKp_EYE_STAT_DONE])

theorem exec_laneEnWrite (p : Nat) (v : Word) (s : State) :
    exec (.laneEnWrite p v) s = runIf s (fun m => decide (p < 36) && bitsN v.toNat 19 16 != fget m (LNKp_CFG_LANE_EN p)) (cfgWrite p v.toNat) := rfl

theorem exec_loopSelectWrite (p : Nat) (v : Word) (s : State) :
    exec (.loopSelectWrite p v) s = runIf s (fun m => decide (p < 36) && bitsN v.toNat 10 8 != fget m (LNKp_CFG_LOOP p)) (cfgWrite p v.toNat) := rfl

theorem exec_lnkOosWrite (p : Nat) (v : Word) (s : State) :
    exec (.lnkOosWrite p v) s = runIf s (fun m => decide (p < 36) && bitN v.toNat 31 != fget m (LNKp_CFG_OOS p)) (cfgWrite p v.toNat) := rfl

/-! ### Commands -/

theorem portDown_iff {m : Chip} {p : Nat} : portDown m p = true ↔ (port m p).oos = true ∨ fget m (LNKp_STAT_WIDTH p) = 0 := by
  simp [portDown]

/-- The port that a LNK command names. -/
abbrev lnkPort (pay : List Nat) : Nat := bitsN (nth pay 0) 5 0

/-- The lanes of its port in use that LNK.EYE scans: those it names, or all (R492). -/
abbrev eyeLanes (pay : List Nat) (m : Chip) : Nat :=
  if bitsN (nth pay 0) 11 8 = 0 then lanesUsed m (lnkPort pay) else bitsN (nth pay 0) 11 8 &&& lanesUsed m (lnkPort pay)

/-- The lanes that LNK.LANE names and its port does not use (R504). -/
abbrev lanesToDo (pay : List Nat) (m : Chip) : Nat := maskN 4 (fun n => tb (bitsN (nth pay 0) 11 8) n && !tb (lanesUsed m (lnkPort pay)) n)

/-- What LNK.SERVICE answers: the port's rate, width and lanes. -/
abbrev serviceWords (p : Nat) (m : Chip) : List Nat := [fget m (LNKp_STAT_RATE p) + fget m (LNKp_STAT_WIDTH p) * 16 + lanesUsed m p * 256]

section

variable {i : Nat} {pay : List Nat} {m : Chip}

theorem doLnkEye_down (hd : portDown m (lnkPort pay) = true) : doLnkEye i pay m = fail m i 0x0701 := if_pos hd

theorem doLnkEye_busy (hd : ¬ portDown m (lnkPort pay) = true) (he : (port m (lnkPort pay)).eye.isSome = true) : doLnkEye i pay m = fail m i 1 :=
  (if_neg hd).trans (if_pos he)

/-- A scan that begins posts the possession for its windows (R492). -/
theorem doLnkEye_begins (hd : ¬ portDown m (lnkPort pay) = true) (he : (port m (lnkPort pay)).eye = none) (hroom : miotoRows m < 128) (h0 : eyeLanes pay m ≠ 0) :
    doLnkEye i pay m = postEye (modPort (cmdOn m i []) (lnkPort pay) (fun q => { q with
      eye := some { m := i, lanes := eyeLanes pay m, edge := if fget m (LNKp_STAT_RATE (lnkPort pay)) = 0 then 4 else 0 } })) (lnkPort pay) :=
  (if_neg hd).trans ((if_neg (by simp [he])).trans ((if_neg (Nat.not_le.mpr hroom)).trans (if_neg h0)))

theorem doLnkLoop_illegal (hl : loopAllows (bitsN (nth pay 0) 31 28) (bitsN (nth pay 0) 27 26) = false) : doLnkLoop i pay m = fail m i 2 :=
  if_pos (by simp [hl])

theorem doLnkLoop_busy (hl : loopAllows (bitsN (nth pay 0) 31 28) (bitsN (nth pay 0) 27 26) = true)
    (hb : fon m (LNKp_STAT_OOS_DONE (lnkPort pay)) = false ∨ (port m (lnkPort pay)).loop.isSome = true) : doLnkLoop i pay m = fail m i 1 :=
  (if_neg (by simp [hl])).trans (if_pos (by simpa using hb))

/-- A test keeps its mailbox, its loop and pattern, its time and its start (R498). -/
theorem doLnkLoop_begins (hl : loopAllows (bitsN (nth pay 0) 31 28) (bitsN (nth pay 0) 27 26) = true) (ho : fon m (LNKp_STAT_OOS_DONE (lnkPort pay)) = true)
    (hn : (port m (lnkPort pay)).loop = none) :
    doLnkLoop i pay m = modPort (cmdOn m i []) (lnkPort pay) (fun q => { q with
      loop := some (i, bitsN (nth pay 0) 31 28 * 4 + bitsN (nth pay 0) 27 26, if nth pay 1 = 0 then 24 else nth pay 1, m.ns) }) :=
  (if_neg (by simp [hl])).trans (if_neg (by simp [ho, hn]))

theorem doLnkLane_busy (he : (port m (lnkPort pay)).eye.isSome = true) : doLnkLane i pay m = fail m i 1 := if_pos he

theorem doLnkLane_down (he : (port m (lnkPort pay)).eye = none) (hd : portDown m (lnkPort pay) = true) : doLnkLane i pay m = fail m i 0x0701 :=
  (if_neg (by simp [he])).trans (if_pos hd)

/-- With its port up, LNK.LANE trains the named lanes that are not in use, if any (R504, R505). -/
theorem doLnkLane_up (he : (port m (lnkPort pay)).eye = none) (hd : ¬ portDown m (lnkPort pay) = true) :
    doLnkLane i pay m = if lanesToDo pay m = 0 then respond m i 0 [lanesUsed m (lnkPort pay)]
      else restoreLanes (modPort (cmdOn m i []) (lnkPort pay) (fun q => { q with laneMb := some i })) (lnkPort pay) (lanesToDo pay m) :=
  (if_neg (by simp [he])).trans (if_neg hd)

/-- LNK.SERVICE takes the port out of service, unless it is out already or in use (R507). -/
theorem doLnkService_out (h0 : bitsN (nth pay 0) 31 28 = 0) :
    doLnkService i pay m = if (port m (lnkPort pay)).oos then respond m i 0 (serviceWords (lnkPort pay) m)
      else if portClaimed m (lnkPort pay) || (isTwinPort (lnkPort pay) && twinValid m) then fail m i 1 else portOut (cmdOn m i []) (lnkPort pay) (some i) :=
  if_pos h0

/-- LNK.SERVICE of a port in service answers at once (R508). -/
theorem doLnkService_inService (h0 : bitsN (nth pay 0) 31 28 ≠ 0) (hl : 5 ≤ linkSt m (lnkPort pay)) :
    doLnkService i pay m = respond m i 0 (serviceWords (lnkPort pay) m) :=
  (if_neg h0).trans (if_pos hl)

/-- LNK.SERVICE waits for the bring-up that its port is in (R508). -/
theorem doLnkService_coming (h0 : bitsN (nth pay 0) 31 28 ≠ 0) (hl : linkSt m (lnkPort pay) ∈ [1, 2, 3, 4]) :
    doLnkService i pay m = modPort (cmdOn m i []) (lnkPort pay) (fun q => { q with svcMb := some i }) := by
  have hbetween : ¬ 5 ≤ linkSt m (lnkPort pay) ∧ linkSt m (lnkPort pay) ≠ 0 := by
    simp only [List.mem_cons, List.not_mem_nil, or_false] at hl
    omega
  exact (if_neg h0).trans ((if_neg hbetween.1).trans (if_pos hbetween.2))

/-- LNK.SERVICE brings a port up that is DOWN (R508). -/
theorem doLnkService_bringsUp (h0 : bitsN (nth pay 0) 31 28 ≠ 0) (hl : linkSt m (lnkPort pay) = 0) :
    doLnkService i pay m = modPort (bringUp (cmdOn m i []) (lnkPort pay)) (lnkPort pay) (fun q => { q with svcMb := some i }) :=
  have hbelow : ¬ 5 ≤ linkSt m (lnkPort pay) := by omega
  (if_neg h0).trans ((if_neg hbelow).trans (if_neg (not_not.mpr hl)))

end

theorem topoBad_iff {w : Nat} : topoBad w = true ↔ 2 ^ bitsN w 17 16 ≤ bitsN w 2 0 ∨ 2 ^ bitsN w 19 18 ≤ bitsN w 5 3 ∨ 2 ^ bitsN w 21 20 ≤ bitsN w 7 6 := by
  simp [topoBad, or_assoc]

/-- Settles O43: each register write and command runs its effect, and the port's state and the command's fields choose what it does. -/
theorem linkCommands : Obligations.LinkCommands := by
  intro s ha i
  refine ⟨?start, ?cfg, ?eye, ?loop, ?lane, ?service, ?status, ?topo⟩
  case start =>
    intro q v hq hv
    have hwrites {m : Chip} (h : doEyeStartWrite q v.toNat s.chip = m) : Does (.eyeStartWrite q v) s m :=
      does_of_event ha (exec_eyeStartWrite q v s) (by simp [hq, hv]) h
    exact ⟨fun hon => hwrites (doEyeStartWrite_refused hon), fun hon => ⟨_, hwrites rfl, doEyeStartWrite_started hon⟩⟩
  case cfg =>
    intro q v hq
    exact ⟨fun hen => does_of_event ha (exec_laneEnWrite q v s) (by simpa [hq] using hen) rfl,
      fun hloop => does_of_event ha (exec_loopSelectWrite q v s) (by simpa [hq] using hloop) rfl,
      fun hoos => does_of_event ha (exec_lnkOosWrite q v s) (by simpa [hq] using hoos) rfl⟩
  case eye =>
    intro hc
    have hdoes {m : Chip} (h : doLnkEye i (cmdPay s.chip i) s.chip = m) : Does (.lnkEye i) s m := does_of_command ha rfl hc h
    exact ⟨fun hd => hdoes (doLnkEye_down (portDown_iff.mpr hd)), fun hd he => hdoes (doLnkEye_busy (mt portDown_iff.mp hd) he),
      fun hd he hroom h0 => hdoes (doLnkEye_begins (mt portDown_iff.mp hd) he hroom h0)⟩
  case loop =>
    intro hc
    have hdoes {m : Chip} (h : doLnkLoop i (cmdPay s.chip i) s.chip = m) : Does (.lnkLoop i) s m := does_of_command ha rfl hc h
    exact ⟨fun hl => hdoes (doLnkLoop_illegal hl), fun hl hb => hdoes (doLnkLoop_busy hl hb), fun hl ho hn => hdoes (doLnkLoop_begins hl ho hn)⟩
  case lane =>
    intro hc
    have hdoes {m : Chip} (h : doLnkLane i (cmdPay s.chip i) s.chip = m) : Does (.lnkLane i) s m := does_of_command ha rfl hc h
    exact ⟨fun he => hdoes (doLnkLane_busy he), fun he hd => hdoes (doLnkLane_down he (portDown_iff.mpr hd)),
      fun he hd h0 => hdoes ((doLnkLane_up he (mt portDown_iff.mp hd)).trans (if_pos h0)),
      fun he hd h0 => hdoes ((doLnkLane_up he (mt portDown_iff.mp hd)).trans (if_neg h0))⟩
  case service =>
    intro hc
    have hdoes {m : Chip} (h : doLnkService i (cmdPay s.chip i) s.chip = m) : Does (.lnkService i) s m := does_of_command ha rfl hc h
    refine ⟨?isOut, ?claimed, ?goesOut, ?isIn, ?coming, ?comes⟩
    case isOut => exact fun h0 ho => hdoes ((doLnkService_out h0).trans (if_pos ho))
    case claimed => exact fun h0 ho hclaim => hdoes ((doLnkService_out h0).trans ((if_neg (by simp [ho])).trans (if_pos (by simp [hclaim]))))
    case goesOut => exact fun h0 ho hclaim htwin => hdoes ((doLnkService_out h0).trans ((if_neg (by simp [ho])).trans (if_neg (by simp [hclaim, htwin]))))
    case isIn => exact fun h0 hl => hdoes (doLnkService_inService h0 hl)
    case coming => exact fun h0 hl => hdoes (doLnkService_coming h0 hl)
    case comes => exact fun h0 hl => hdoes (doLnkService_bringsUp h0 hl)
  case status => exact fun hc => does_of_command ha rfl hc rfl
  case topo =>
    intro hc
    have hdoes {m : Chip} (h : doLnkTopo i (cmdPay s.chip i) s.chip = m) : Does (.lnkTopo i) s m := does_of_command ha rfl hc h
    have hgood {w : Nat} (hx : bitsN w 2 0 < 2 ^ bitsN w 17 16) (hy : bitsN w 5 3 < 2 ^ bitsN w 19 18) (hz : bitsN w 7 6 < 2 ^ bitsN w 21 20) :
        ¬ topoBad w = true := fun h => by obtain h | h | h := topoBad_iff.mp h <;> omega
    exact ⟨fun hbad => hdoes (if_pos (topoBad_iff.mpr hbad)), fun hx hy hz harm => hdoes ((if_neg (hgood hx hy hz)).trans (if_pos harm)),
      fun hx hy hz harm => hdoes ((if_neg (hgood hx hy hz)).trans (if_neg (by simp [harm])))⟩

end Sys2Proof.Proofs
end

section
/-! SUPPORT. The link layer: the frames a port sends, the choice of the next flit, and the link's timers and registers. -/

namespace Sys2Proof.Proofs

open Sys2Proof.Machine Sys2Proof.Laws

/-! ### Frames -/

theorem exec_portFrameSend (p : Nat) (s : State) :
    exec (.portFrameSend p) s = runIf s (fun m => decide (p < 36) && (linkSt m p != 0 || asksLoop m p)) (doPortFrameSend p) := rfl

/-- A port whose lanes are not in STEP, with its next frame's number. -/
def frameNumbered (m : Chip) (p : Nat) : Chip := modPort m p (fun q => { q with frameSeq := (q.frameSeq + 1) % 64 })

/-- A port whose link is not past TRAIN sends a header and no message (R523, R529). -/
theorem doPortFrameSend_train {m : Chip} {p : Nat} (hl : linkSt m p < 3) (hstep : lanesIn m p [6] = 0) :
    doPortFrameSend p m = modPort (frameNumbered m p) p (fun q => { q with txHdr := frameHdr (frameNumbered m p) p, txMsgs := [], txOut := [] }) := by
  simp only [doPortFrameSend, hstep, setLanes_zero]
  exact if_pos hl

/-! ### The next flit -/

section

variable {c : Chip} {p : Nat}

theorem takeFlit_ctl {f : Flit} (h : (port c p).ctl.find? (fun f => !(f.op == 0 && (f.dtype == 1 || f.dtype == 2))) = some f) :
    takeFlit c p = some (f, modPort c p (fun q => { q with ctl := q.ctl.erase f })) := by
  simp only [takeFlit, h]

theorem takeFlit_early (hc : (port c p).ctl = []) (hl : linkSt c p < 5) : takeFlit c p = none := by
  simp only [takeFlit, hc, List.find?_nil, hl, if_true]

theorem takeFlit_replay {i : Nat} {f : Flit} (hc : (port c p).ctl = []) (hl : 5 ≤ linkSt c p) (hdue : (port c p).replayDue = some i) (hf : (port c p).replay[i]? = some f) :
    takeFlit c p = some (f, bump (modPort c p (fun q => { q with replayDue := if i + 1 < q.replay.length then some (i + 1) else none })) (LNKp_REPLAY_CTR p) 1) := by
  simp only [takeFlit, hc, List.find?_nil, if_neg (Nat.not_lt.mpr hl), hdue, Option.bind_some, hf, Option.map_some]

/-- With no control flit and no replay due a channel's head goes next (R523). -/
theorem takeFlit_channel (hc : (port c p).ctl = []) (hl : 5 ≤ linkSt c p) (hdue : (port c p).replayDue = none) : takeFlit c p = (nextVc c p).bind (takeVc c p) := by
  simp only [takeFlit, hc, List.find?_nil, if_neg (Nat.not_lt.mpr hl), hdue, Option.bind_none]

theorem nextVc_window (hw : windowOn c p = true) (h0 : headReady c p 0 = true) : nextVc c p = some 0 := if_pos (by simp [hw, h0])

theorem nextVc_turn (hw : windowOn c p = false) : nextVc c p = ((List.range 4).map (fun i => ((port c p).rrCh + 1 + i) % 4)).find? (headReady c p) := if_neg (by simp [hw])

theorem nextVc_none (h : ∀ v, v < 4 → headReady c p v = false) : nextVc c p = none := by
  have hfind : ((List.range 4).map (fun i => ((port c p).rrCh + 1 + i) % 4)).find? (headReady c p) = none := by
    refine List.find?_eq_none.mpr fun v hv => ?_
    obtain ⟨i, -, rfl⟩ := List.mem_map.mp hv
    simp [h _ (Nat.mod_lt _ (by decide))]
  exact (if_neg (by simp [h 0])).trans hfind

end

/-! ### Timers and registers -/

theorem exec_replayTimeout (p : Nat) (s : State) :
    exec (.replayTimeout p) s = runIf s (fun m => decide (p < 36) && decide (5 ≤ linkSt m p) && (port m p).replay != [] &&
      decide ((port m p).lastAck + frameNs m p 64 ≤ m.ns)) (fun m => modPort m p (fun q => { q with replayDue := some 0, lastAck := m.ns })) := rfl

theorem exec_nakRepeat (p : Nat) (s : State) :
    exec (.nakRepeat p) s = runIf s (fun m => decide (p < 36) && (port m p).nakAt.any (fun t => decide (t + frameNs m p 4 ≤ m.ns))) (fun m => sendNak m p) := rfl

theorem exec_linkLockTimeout (p : Nat) (s : State) :
    exec (.linkLockTimeout p) s = runIf s (fun m => decide (p < 36) && linkSt m p == 3 && decide ((port m p).lockT0 + 1000000 ≤ m.ns)) (fun m => linkDown m p) := rfl

theorem exec_linkDrainEnd (p : Nat) (s : State) : exec (.linkDrainEnd p) s = runIf s (fun m => decide (p < 36) && drainOver m p) (fun m => linkDown m p) := rfl

theorem exec_linkReclaimWrite (p : Nat) (v : Word) (s : State) :
    exec (.linkReclaimWrite p v) s = runIf s (fun _ => decide (p < 36) && tb v.toNat 1)
      (fun m => linkReclaim (if tb v.toNat 0 then (if linkActive m p then linkLost m p else m) else m) p) := rfl

theorem exec_linkRetrainWrite (p : Nat) (v : Word) (s : State) :
    exec (.linkRetrainWrite p v) s = runIf s (fun m => decide (p < 36) && tb v.toNat 0 && linkActive m p) (fun m => linkLost m p) := rfl

theorem drainOver_iff {m : Chip} {p : Nat} : drainOver m p = true ↔ linkSt m p = 6 ∧
    (((port m p).replay = [] ∧ (port m p).out = [] ∧ (port m p).vcq.getD 2 [] = [] ∧ (port m p).vcq.getD 3 [] = []) ∨ (port m p).drainT0 + 1000000 ≤ m.ns) := by
  simp only [drainOver, Bool.and_eq_true, Bool.or_eq_true, beq_iff_eq, decide_eq_true_eq, and_assoc]

theorem linkReclaim_idle {m : Chip} {p : Nat} (h : linkActive m p = false) : linkReclaim m p = m := if_neg (by simp [h])

theorem linkReclaim_starts {m : Chip} {p : Nat} (h : linkActive m p = true) (hr : (port m p).reclaim = false) :
    linkReclaim m p = modPort m p (fun q => { q with reclaim := true, reclaimSent := false }) :=
  (if_pos h).trans (modPort_congr (if_neg (by simp [hr])))

/-- Settles O46: the link's state, its queues and its times choose the flit, the frame and the event. -/
theorem linkTimersAndFrames : Obligations.LinkTimersAndFrames := by
  intro s ha p hp
  refine ⟨?sends, ?train, fun c f => takeFlit_ctl, fun c => takeFlit_early, fun c i f hc hl hdue hf => ⟨_, takeFlit_replay hc hl hdue hf⟩,
    ?channel, ?replay, ?nak, ?lock, ?drain, ?reclaim, ?retrain⟩
  case sends => exact fun h => does_of_event ha (exec_portFrameSend p s) (by simpa [hp] using h) rfl
  case train =>
    intro hl hstep
    have hsends : linkSt s.chip p ≠ 0 := by omega
    have hdoes := does_of_event ha (exec_portFrameSend p s) (by simp [hp, hsends]) (doPortFrameSend_train (by omega) hstep)
    refine ⟨_, hdoes, rfl, ?_⟩
    simp [frameNumbered]
  case channel =>
    intro c hc hl hdue
    have hnext {o : Option Nat} (h : nextVc c p = o) : takeFlit c p = o.bind (takeVc c p) := h ▸ takeFlit_channel hc hl hdue
    refine ⟨fun hw h0 => hnext (nextVc_window hw h0), fun v hv hw => hnext ((nextVc_turn hw).trans hv), fun h0 h1 h2 h3 => hnext (nextVc_none fun v hv => ?_)⟩
    obtain rfl | rfl | rfl | rfl : v = 0 ∨ v = 1 ∨ v = 2 ∨ v = 3 := by omega
    exacts [h0, h1, h2, h3]
  case replay => exact fun hl hr ht => does_of_event ha (exec_replayTimeout p s) (by simp [hp, hl, hr, ht]) rfl
  case nak => exact fun t hn ht => does_of_event ha (exec_nakRepeat p s) (by simp [hp, hn, ht]) rfl
  case lock => exact fun hl ht => does_of_event ha (exec_linkLockTimeout p s) (by simp [hp, hl, ht]) rfl
  case drain => exact fun hl hd => does_of_event ha (exec_linkDrainEnd p s) (by simp [hp, drainOver_iff.mpr ⟨hl, hd⟩]) rfl
  case reclaim =>
    intro v h1 h0
    have hdoes {m : Chip} (h : linkReclaim s.chip p = m) : Does (.linkReclaimWrite p v) s m :=
      does_of_event ha (exec_linkReclaimWrite p v s) (by simp [hp, h1]) (by simpa [h0] using h)
    exact ⟨fun hl => hdoes (linkReclaim_idle hl), fun hl hr => hdoes (linkReclaim_starts hl hr)⟩
  case retrain => exact fun v h0 hl => does_of_event ha (exec_linkRetrainWrite p v s) (by simp [hp, h0, hl]) rfl

end Sys2Proof.Proofs
end

section
/-! SUPPORT. The arrival of flits: which rows of the table bring a flit, and how the header check, the link's state and SEQ choose what becomes of it. -/

namespace Sys2Proof.Proofs

open Sys2Proof.Machine Sys2Proof.Laws

/-! ### Rows that bring a flit -/

/-- A row whose kind the flit is of runs the arrival of that flit. -/
theorem does_of_rxRow {c : Instr} {s : State} {p : Nat} {f : Flit} {ok : Bool} (ha : acts s = true) (hp : p < 36) (he : exec c s = rxRow s p f ok) (hok : ok = true) :
    Does c s (rxFlit p 0 f s.chip) :=
  does_of_event ha he (by simp [hp, hok]) rfl

theorem isCtl_of {f : Flit} {kind : Nat} (ht : f.typ = 4) (hk : f.op * 4 + f.dtype = kind) : isCtl f kind = true := by
  simp [isCtl, ht, hk]

theorem isTwinMsg_of {f : Flit} {sub : Nat} (ht : f.typ = 4) (hk : f.op * 4 + f.dtype = 9) (hb : f.body ≠ []) (hs : bitsN (nth (flitBody f) 0) 3 0 = sub) :
    isTwinMsg f sub = true := by
  simp [isTwinMsg, isCtl_of ht hk, hb, hs]

theorem isTwinRouted_of {f : Flit} {msg : Nat} (ht : f.typ = 4) (hk : f.op * 4 + f.dtype = 10) (hm : nth (flitBody f) 0 / 2 ^ 16 = 0x0A00 + msg) :
    isTwinRouted f msg = true := by
  simp only [isTwinRouted, isCtl_of ht hk, hm, beq_self_eq_true, Bool.and_self]

/-! ### A flit whose header and length are good -/

theorem rxFlit_discarded {p sub : Nat} {f : Flit} {m : Chip} (h : flitOk f = false ∨ f.body.length ≠ bodyLen f) :
    rxFlit p sub f m = modPort m p (fun q => { q with stream := [], synced := false }) :=
  if_pos (by simpa using h)

@[simp] theorem linkSt_headerRx (p : Nat) (f : Flit) (m : Chip) (q : Nat) : linkSt (headerRx p f m) q = linkSt m q := rfl

/-- A header returns tablets and acknowledges; the SEQ expected stays. -/
@[simp] theorem headerRx_rxSeq (p : Nat) (f : Flit) (m : Chip) : (port (headerRx p f m) p).rxSeq = (port m p).rxSeq := by
  rw [headerRx, port_modPort]
  dsimp only
  split <;> split <;> rfl

section

variable {p sub : Nat} {f : Flit} {m : Chip} (hok : flitOk f = true) (hlen : f.body.length = bodyLen f)

include hok hlen

theorem rxFlit_beforeLock (hl : linkSt m p < 3) : rxFlit p sub f m = m :=
  (if_neg (by simp [hok, hlen])).trans (if_pos hl)

/-- In LOCK and EXCHANGE a sequenced flit is not taken (R529). -/
theorem rxFlit_beforeActive (hv : flitVc f ≠ none) (h3 : 3 ≤ linkSt m p) (h5 : linkSt m p < 5) : rxFlit p sub f m = m := by
  obtain ⟨v, hv⟩ := Option.ne_none_iff_exists'.mp hv
  simp [rxFlit, hok, hlen, hv, h5, Nat.not_lt.mpr h3, Nat.not_le.mpr h5]

/-- On a link past EXCHANGE the SEQ of a sequenced flit decides (R526, R527). -/
theorem rxFlit_sequenced (hv : flitVc f ≠ none) (h5 : 5 ≤ linkSt m p) :
    rxFlit p sub f m = if f.seq = ((port m p).rxSeq + 1) % 4096 then deliver p f (headerRx p f m)
      else if (f.seq + 4096 - (port m p).rxSeq) % 4096 < 2049 ∧ f.seq ≠ (port m p).rxSeq ∧ (port (headerRx p f m) p).nakAt = none then sendNak (headerRx p f m) p
      else headerRx p f m := by
  obtain ⟨v, hv⟩ := Option.ne_none_iff_exists'.mp hv
  have h3 : ¬ linkSt m p < 3 := by omega
  simp [rxFlit, hok, hlen, h3, h5, hv, Nat.not_lt.mpr h5]

/-- From LOCK on an unsequenced flit acts at once: a control flit by its KIND, any other by its header alone (R519, R529). -/
theorem rxFlit_unsequenced (hv : flitVc f = none) (h3 : 3 ≤ linkSt m p) :
    rxFlit p sub f m = if f.typ = 4 then ctlRx p sub f (if 5 ≤ linkSt m p then headerRx p f m else m) else if 5 ≤ linkSt m p then headerRx p f m else m := by
  simp [rxFlit, hok, hlen, hv, Nat.not_lt.mpr h3]

end

theorem flitVc_idle {f : Flit} (h : f.typ = 0) : flitVc f = none := by
  simp only [flitVc, h]

/-- Settles O44: each row runs the arrival of its flit, and the header check, the link's state and SEQ choose what the arrival does. -/
theorem flitsTakenInSequence : Obligations.FlitsTakenInSequence := by
  intro s ha p f hp
  have hrow {c : Instr} {ok : Bool} (he : exec c s = rxRow s p f ok) (hok : ok = true) : Does c s (rxFlit p 0 f s.chip) := does_of_rxRow ha hp he hok
  refine ⟨?typed, ?control, ?twin, fun ht hk hb => hrow rfl (by simp [isCtl_of ht hk, hb]), ?routed, rxFlit_discarded, fun hok hlen => ?good⟩
  case typed =>
    intro ins typ op hmem ht ho
    simp only [List.mem_cons, Prod.mk.injEq, List.not_mem_nil, or_false] at hmem
    obtain ⟨rfl, rfl, rfl⟩ | ⟨rfl, rfl, rfl⟩ | ⟨rfl, rfl, rfl⟩ | ⟨rfl, rfl, rfl⟩ | ⟨rfl, rfl, rfl⟩ | ⟨rfl, rfl, rfl⟩ | ⟨rfl, rfl, rfl⟩ | ⟨rfl, rfl, rfl⟩ |
      ⟨rfl, rfl, rfl⟩ | ⟨rfl, rfl, rfl⟩ | ⟨rfl, rfl, rfl⟩ | ⟨rfl, rfl, rfl⟩ | ⟨rfl, rfl, rfl⟩ | ⟨rfl, rfl, rfl⟩ := hmem <;>
    exact hrow rfl (by simp [ht, ho])
  case control =>
    intro ins kind hmem ht hk
    simp only [List.mem_cons, Prod.mk.injEq, List.not_mem_nil, or_false] at hmem
    obtain ⟨rfl, rfl⟩ | ⟨rfl, rfl⟩ | ⟨rfl, rfl⟩ | ⟨rfl, rfl⟩ | ⟨rfl, rfl⟩ | ⟨rfl, rfl⟩ | ⟨rfl, rfl⟩ := hmem <;> exact hrow rfl (isCtl_of ht hk)
  case twin =>
    intro ins sub hmem ht hk hb hs
    simp only [List.mem_cons, Prod.mk.injEq, List.not_mem_nil, or_false] at hmem
    obtain ⟨rfl, rfl⟩ | ⟨rfl, rfl⟩ | ⟨rfl, rfl⟩ | ⟨rfl, rfl⟩ | ⟨rfl, rfl⟩ := hmem <;> exact hrow rfl (isTwinMsg_of ht hk hb hs)
  case routed =>
    intro ins msg hmem ht hk hm
    simp only [List.mem_cons, Prod.mk.injEq, List.not_mem_nil, or_false] at hmem
    obtain ⟨rfl, rfl⟩ | ⟨rfl, rfl⟩ | ⟨rfl, rfl⟩ := hmem <;> exact hrow rfl (isTwinRouted_of ht hk hm)
  case good =>
    refine ⟨rxFlit_beforeLock hok hlen, fun hv h5 => ?sequenced, rxFlit_beforeActive hok hlen, ?active, ?early, ?idle⟩
    case sequenced =>
      have hseq := rxFlit_sequenced (sub := 0) hok hlen hv h5
      refine ⟨fun he => hseq.trans (if_pos he), fun he hne hahead hnak => hseq.trans ((if_neg he).trans (if_pos ⟨hahead, hne, hnak⟩)),
        fun he hnot => hseq.trans ((if_neg he).trans (if_neg ?_))⟩
      rintro ⟨hahead, hne, hnak⟩
      obtain hsame | hbehind | hasked := hnot
      exacts [hne hsame, Nat.not_le.mpr hahead hbehind, hasked hnak]
    case active => exact fun ht hv h5 => (rxFlit_unsequenced hok hlen hv (by omega)).trans (by rw [if_pos ht, if_pos h5])
    case early => exact fun ht hv h3 h5 => (rxFlit_unsequenced hok hlen hv h3).trans (by rw [if_pos ht, if_neg (Nat.not_le.mpr h5)])
    case idle => exact fun ht h5 => (rxFlit_unsequenced hok hlen (flitVc_idle ht) (by omega)).trans (by rw [if_neg (by omega), if_pos h5])

end Sys2Proof.Proofs
end

section
/-! SUPPORT. What flits do: timetabled data, void markers, requests and responses once they are delivered, ROUTED flits, and the control flits of a link. -/

namespace Sys2Proof.Proofs

open Sys2Proof.Machine Sys2Proof.Laws

/-! ### Delivery -/

/-- The machine with the SEQ of an accepted flit as the last, and its tablets counted (R522, R526). -/
def seqTaken (p : Nat) (f : Flit) (m : Chip) : Chip :=
  modPort m p (fun q => { q with rxSeq := f.seq, nakAt := none, recvd := modAt q.recvd ((flitVc f).getD 0) (fun n => (n + flitTabs f) % 2 ^ 24) })

section

variable {p : Nat} {f : Flit} {m : Chip}

/-- DATA frees its receive entries first, then its OP and the journal window choose who takes it. -/
theorem deliver_data (h : f.typ = 1) :
    deliver p f m = if f.op = 7 then voidFlit p f (freeTabs (seqTaken p f m) p 0 (flitTabs f))
      else if journalOn (freeTabs (seqTaken p f m) p 0 (flitTabs f)) p then journalFlit p f (freeTabs (seqTaken p f m) p 0 (flitTabs f))
      else dataFlit p f (freeTabs (seqTaken p f m) p 0 (flitTabs f)) := by
  simp only [deliver, h]
  rfl

theorem deliver_request (h : f.typ = 2) : deliver p f m = freeTabs (reqFlit p f (seqTaken p f m)) p 1 (flitTabs f) := by
  simp only [deliver, h, seqTaken]

theorem deliver_response (h : f.typ = 3) : deliver p f m = freeTabs (respFlit p f (seqTaken p f m)) p 2 (flitTabs f) := by
  simp only [deliver, h, seqTaken]

theorem deliver_routed (h : f.typ = 4) : deliver p f m = routedFlit p f (seqTaken p f m) := by
  simp only [deliver, h, seqTaken]

/-! ### Timetabled data and void markers -/

/-- Line i of a DATA flit (R518). -/
def carriedLine (f : Flit) (i : Nat) : Line := ⟨(f.body.drop (128 * i)).take 128, leNat ((f.body.drop (128 * f.lines + 4 * i)).take 4), false, []⟩

/-- A line in the range of an open window whose source has an entry goes to the window. -/
theorem dataRx_window {i ln k : Nat} {r r1 : TtRow} (hline : dataLine m f.dest (f.addr + i) = some ln) (hs : scratch m (ln * 128) = true)
    (hw : windowAt m ln (fun r => parOp r.par == f.op) = some (k, r)) (hc : claimSrc r f.src = some r1) :
    dataRx p f i m = (windowLine m p k r1 f ln (carriedLine f i), false) := by
  simp only [dataRx, hline, Option.bind_some, hs, if_true, hw, Option.map_some, hc, carriedLine]

theorem dataFlit_elsewhere (h : isHere m f.dest = false) : dataFlit p f m = bump m LNK_STRAY_CTR f.lines := if_pos (by simp [h])

/-- A flit of one line: its line's end, and a source without an entry counted. -/
theorem dataFlit_single (h : isHere m f.dest = true) (hl : f.lines = 1) :
    dataFlit p f m = if (dataRx p f 0 m).2 then bump (dataRx p f 0 m).1 LNK_EXTRA_SRC_CTR 1 else (dataRx p f 0 m).1 := by
  simp [dataFlit, h, hl]

theorem windowLine_good {k ln : Nat} {r : TtRow} {l : Line} (h : wbOk l = true) :
    windowLine m p k r f ln l =
      pushReq (setRow m k (some (modSrc r f.src (fun s => { s with bytes := s.bytes + 128, das := if f.op = 0 then s.das else s.das ++ [ln] }))))
        { id := 0, kind := if f.op = 0 then .write else .reduce, line := ln, ln := l, op := f.op, size := f.dtype, ing := 6, who := .window k f.src } := by
  simp [windowLine, h]

/-- A counter of the links leaves what this module answers to: its number and the role it holds. -/
theorem isHere_bump {o : Nat} (n d : Nat) (hlo : 0x70000 ≤ o) (hhi : o < 0xC0000) : isHere (bump m o n) d = isHere m d := by
  have hself : selfNum (bump m o n) = selfNum m := by rw [selfNum, moduleNum, csr_bump_ne m n (by omega) (by omega), selfNum, moduleNum]
  have hfld (g : Fld) (hg : 0xC0004 ≤ g.off) : fget (bump m o n) g = fget m g := fget_bump_ne m n (by omega) (by omega)
  have hrole : heldRole (bump m o n) = heldRole m := by
    unfold heldRole fon twinSt
    rw [hfld TWIN_HELD_VALID (by decide), hfld TWIN_STAT_STATE (by decide), hfld TWIN_HELD_MODULE (by decide)]
  rw [isHere, hself, hrole, isHere]

theorem voidFlit_elsewhere (hp : p < 36) (h : isHere m f.dest = false) : voidFlit p f m = bump (bump m (LNKp_VOID_RX_CTR p) 1) LNK_STRAY_CTR 1 := by
  have hthere : isHere (bump m (LNKp_VOID_RX_CTR p) 1) f.dest = false :=
    (isHere_bump 1 f.dest (by simp only [LNKp_VOID_RX_CTR]; omega) (by simp only [LNKp_VOID_RX_CTR]; omega)).trans h
  simp [voidFlit, hthere]

/-! ### Requests, responses and ROUTED flits -/

theorem reqFlit_read (ho : f.op = 0) (hb : badAddress m (f.addr * 128) false = false) :
    reqFlit p f m = pushReq m { id := 0, kind := .read, line := f.addr, ing := 6, who := .peer p 2 f.tag f.src } := by
  simp [reqFlit, ho, hb]

theorem reqFlit_write (ho : f.op = 1) (hb : badAddress m (f.addr * 128) false = false) :
    reqFlit p f m = pushReq m { id := 0, kind := .write, line := f.addr, ing := 6, who := .peer p 2 f.tag f.src, ln := ⟨f.body.take 128, nth (bytesWords f.body) 32, false, []⟩ } := by
  simp [reqFlit, ho, hb]

/-- A write's acknowledgement ends its request with nothing but its good end. -/
theorem respFlit_writeAck {o : OutReq} (hf : (port m p).out.find? (fun o => o.tag == f.tag) = some o) (ho : f.op = 1) :
    respFlit p f m = answer (modPort m p (fun q => { q with out := q.out.filter (fun x => x.tag != f.tag) }))
      { id := 0, kind := o.kind, line := (o.peer + 1) * 2 ^ 41 + o.line, who := o.who } .good zeroLine 0 := by
  simp only [respFlit, hf, respFate, ho]
  simp

theorem respFlit_unasked (hf : (port m p).out.find? (fun o => o.tag == f.tag) = none) : respFlit p f m = m := by
  simp only [respFlit, hf]

theorem routedFlit_here (h : isHere m f.dest = true) : routedFlit p f m = freeTabs (routedHere f m) p 3 1 := if_pos (by simp [h])

/-- A ROUTED flit for another module keeps its entry until it has gone on, and is counted where no port leads to it (R540). -/
theorem routedFlit_elsewhere (h : isHere m f.dest = false) (hh : holderOf m f.dest ≠ selfNum m) :
    routedFlit p f m = (routePort m (holderOf m f.dest)).elim (freeTabs (bump m LNK_UNROUTE_CTR 1) p 3 1)
      (fun o => modPort m o (fun q => { q with vcq := modAt q.vcq 3 (· ++ [f]), held := q.held ++ [some p] })) := by
  refine (if_neg (by simp [h, hh])).trans ?_
  cases routePort m (holderOf m f.dest) <;> rfl

/-! ### Control flits of a link -/

theorem nakRx_found {i : Nat} (h : (port m p).replay.findIdx? (fun g => g.seq == nth (flitBody f) 0 % 4096) = some i) :
    nakRx p f m = modPort m p (fun q => { q with replayDue := some i }) := by
  unfold nakRx
  refine modPort_congr ?_
  simp only [h]

/-- AUDIT rests while the link is not ACTIVE, reclaims, or audits are off (R768). -/
theorem auditRx_rests (h : linkActive m p = false ∨ (port m p).reclaim = true ∨ fon m LNK_FAB_CTRL_AUDIT_EN = false) : auditRx p f m = m := by
  refine if_pos ?_
  obtain h | h | h := h <;> simp [h]

/-- The receiver's two checks of AUDIT on one channel: what it received, and the tablets still to come back (R533, R534). -/
def AuditHolds (p : Nat) (f : Flit) (m : Chip) (v : Nat) : Prop :=
  nth (port m p).recvd v = nth (flitBody f) (2 * v) % 2 ^ 24 ∧
    (nth (port m p).freed v + 2 ^ 24 - nth (flitBody f) (2 * v + 1) % 2 ^ 24) % 2 ^ 24 ≤ nth ownTotals v

/-- An audit that takes place passes where its checks hold on every channel, and else fails. -/
theorem auditRx_checks (ha : linkActive m p = true) (hr : (port m p).reclaim = false) (he : fon m LNK_FAB_CTRL_AUDIT_EN = true) :
    ((∀ v, v < 4 → AuditHolds p f m v) → auditRx p f m = m) ∧ (¬ (∀ v, v < 4 → AuditHolds p f m v) → auditRx p f m = linkAuditFail m p) := by
  have htakes : ¬ ((port m p).reclaim || !linkActive m p || !fon m LNK_FAB_CTRL_AUDIT_EN) = true := by simp [ha, hr, he]
  have hall : (List.range 4).all (fun v => nth (port m p).recvd v == nth (flitBody f) (2 * v) % 2 ^ 24 &&
      decide ((nth (port m p).freed v + 2 ^ 24 - nth (flitBody f) (2 * v + 1) % 2 ^ 24) % 2 ^ 24 ≤ nth ownTotals v)) = true ↔ ∀ v, v < 4 → AuditHolds p f m v := by
    simp only [List.all_eq_true, List.mem_range, Bool.and_eq_true, beq_iff_eq, decide_eq_true_eq, AuditHolds]
  exact ⟨fun h => (if_neg htakes).trans (if_pos (hall.mpr h)), fun h => (if_neg htakes).trans (if_neg (mt hall.mp h))⟩

theorem reclaimRep_unasked (h : (port m p).reclaim = false) : reclaimRep p f m = m := if_pos (by simp [h])

/-- RECLAIM_REP gives a reclaiming sender the receiver's free entries as its tablets (R535). -/
theorem reclaimRep_asked (h : (port m p).reclaim = true) :
    reclaimRep p f m = bump (modPort m p (fun q => { q with
      sent := [0, 0, 0, 0], ret := [0, 0, 0, 0], avail := fourCounts (nth (flitBody f) 0) (nth (flitBody f) 1), reclaim := false, reclaimSent := false })) (LNKp_RECLAIM_CTR p) 1 :=
  if_neg (by simp [h])

/-- The far end that IDENT makes known: its module, port and tablets, with the counts of both directions from 0 (R529, R530). -/
def farKnown (p : Nat) (f : Flit) (m : Chip) : Chip :=
  modPort (fset (fset (fset m (LNKp_LINK_FAR_MODULE p) (bitsN (nth (flitBody f) 0) 10 0)) (LNKp_LINK_FAR_PORT p) (bitsN (nth (flitBody f) 0) 21 16)) (LNKp_LINK_FAR_VALID p) 1) p
    (fun q => { zeroCounts q with
      farMv := tb (nth (flitBody f) 0) 31, totals := fourCounts (nth (flitBody f) 1) (nth (flitBody f) 2), avail := fourCounts (nth (flitBody f) 1) (nth (flitBody f) 2)
      txSeq := 0, rxSeq := 0, nakAt := none, replay := [], replayDue := none })

theorem identRx_other (h : linkSt m p ≠ 4) : identRx p f m = m := if_pos h

theorem identRx_exchange (h : linkSt m p = 4) :
    identRx p f m = if wiringBad (farKnown p f m) p then linkDown (fset (farKnown p f m) (LNKp_LINK_WIRING p) 1) p else linkUp (farKnown p f m) p :=
  if_neg (not_not.mpr h)

theorem departRx_off (ha : linkActive m p = false) (h6 : linkSt m p ≠ 6) : departRx p f m = m := if_pos (by simp [ha, h6])

/-- DEPART on an ACTIVE link that is no twin's drains it, fails what is outstanding to the module and tells the host (R532). -/
theorem departRx_active (ha : linkActive m p = true) (ht : isTwinPort p = false) :
    departRx p f m = notice ((List.range 36).foldl (fun c i => failOut c i (fun o => o.peer == fget m (LNKp_LINK_FAR_MODULE p)))
      (modPort (setLink m p 6) p (fun q => { q with drainT0 := m.ns }))) 6 [fget m (LNKp_LINK_FAR_MODULE p) + p * 65536 + nth (flitBody f) 0 % 16 * 2 ^ 24] := by
  simp [departRx, ha, ht]

/-! ### KIND -/

variable {sub : Nat}

theorem ctlRx_nak (h : f.op * 4 + f.dtype = 3) : ctlRx p sub f m = nakRx p f m := by simp only [ctlRx, h]

theorem ctlRx_audit (h : f.op * 4 + f.dtype = 4) : ctlRx p sub f m = auditRx p f m := by simp only [ctlRx, h]

theorem ctlRx_reclaimReq (h : f.op * 4 + f.dtype = 5) : ctlRx p sub f m = reclaimReq p m := by simp only [ctlRx, h]

theorem ctlRx_reclaimRep (h : f.op * 4 + f.dtype = 6) : ctlRx p sub f m = reclaimRep p f m := by simp only [ctlRx, h]

theorem ctlRx_ident (h : f.op * 4 + f.dtype = 7) : ctlRx p sub f m = identRx p f m := by simp only [ctlRx, h]

theorem ctlRx_depart (h : f.op * 4 + f.dtype = 8) : ctlRx p sub f m = departRx p f m := by simp only [ctlRx, h]

end

/-- Settles O45: TYPE and KIND choose the flit's effect, and each effect is that of its own equation. -/
theorem flitsAndControlFlitsAct : Obligations.FlitsAndControlFlitsAct := by
  refine ⟨fun m p f hp => ?flits, fun m p f hp => ?control⟩
  case flits =>
    refine ⟨?void, ?journal, ?data, deliver_request, deliver_response, deliver_routed, dataFlit_elsewhere, ?line, fun k r ln l => windowLine_good, voidFlit_elsewhere hp,
      reqFlit_read, reqFlit_write, fun o => respFlit_writeAck, respFlit_unasked, routedFlit_here, ?passedOn⟩
    case void => exact fun ht ho => (deliver_data ht).trans (if_pos ho)
    case journal => exact fun ht ho hj => (deliver_data ht).trans ((if_neg ho).trans (if_pos hj))
    case data => exact fun ht ho hj => (deliver_data ht).trans ((if_neg ho).trans (if_neg (ne_true_of_eq_false hj)))
    case line =>
      intro hhere hl ln k r r1 hline hs hw hc
      rw [dataFlit_single hhere hl, dataRx_window (i := 0) hline hs hw hc]
      simp [carriedLine, hl]
    case passedOn =>
      intro hthere hholder
      have hgo := routedFlit_elsewhere (p := p) hthere hholder
      exact ⟨fun hnone => hgo.trans (by rw [hnone, Option.elim_none]), fun o ho => hgo.trans (by rw [ho, Option.elim_some])⟩
  case control =>
    refine ⟨fun hk i hi => (ctlRx_nak hk).trans (nakRx_found hi), fun hk h => (ctlRx_audit hk).trans (auditRx_rests h), ?audit, fun hk => ctlRx_reclaimReq hk,
      fun hk h => (ctlRx_reclaimRep hk).trans (reclaimRep_unasked h), fun hk h => (ctlRx_reclaimRep hk).trans (reclaimRep_asked h),
      fun hk h => (ctlRx_ident hk).trans (identRx_other h), ?misplaced, ?known, fun hk ha h6 => (ctlRx_depart hk).trans (departRx_off ha h6),
      fun hk ha ht => (ctlRx_depart hk).trans (departRx_active ha ht)⟩
    case audit =>
      intro hk ha hr he
      obtain ⟨hpass, hfail⟩ := auditRx_checks (f := f) ha hr he
      exact ⟨fun h => (ctlRx_audit hk).trans (hpass h), fun v hv hne => (ctlRx_audit hk).trans (hfail fun hall => hne (hall v hv).1)⟩
    case misplaced => exact fun hk h4 hbad => (ctlRx_ident hk).trans ((identRx_exchange h4).trans (if_pos hbad))
    case known => exact fun hk h4 hgood => (ctlRx_ident hk).trans ((identRx_exchange h4).trans (if_neg (ne_true_of_eq_false hgood)))

end Sys2Proof.Proofs
end

section
/-! SUPPORT. The die links' commands: the lane map's data register, a die's service, the lane check, and the test of a die out of service. -/

namespace Sys2Proof.Proofs

open Sys2Proof.Machine Sys2Proof.Laws

/-! ### The lane map's data register -/

section

variable {m : Chip}

/-- D2D_MAP_SEL names an entry of a saved lane map (R583). -/
abbrev mapSelected (m : Chip) : Prop := fget m D2D_MAP_SEL_UNIT ≤ 8 ∧ fget m D2D_MAP_SEL_INDEX < mapSize (fget m D2D_MAP_SEL_UNIT)

/-- INDEX after an access to the entry it names: the next of the unit's map, from 0 again after the last (R583). -/
abbrev mapIndexNext (m : Chip) : Nat := if fget m D2D_MAP_SEL_INDEX + 1 = mapSize (fget m D2D_MAP_SEL_UNIT) then 0 else fget m D2D_MAP_SEL_INDEX + 1

theorem mapSelected_iff : ¬ (8 < fget m D2D_MAP_SEL_UNIT ∨ mapSize (fget m D2D_MAP_SEL_UNIT) ≤ fget m D2D_MAP_SEL_INDEX) ↔ mapSelected m := by
  rw [not_or, not_lt, not_le]

/-- Where no entry is selected a read gives 0 and a write changes nothing. -/
theorem doD2dMapDataAccess_unselected (h : 8 < fget m D2D_MAP_SEL_UNIT ∨ mapSize (fget m D2D_MAP_SEL_UNIT) ≤ fget m D2D_MAP_SEL_INDEX) (write : Bool) (v : Nat) :
    doD2dMapDataAccess write v m = if write then m else { m with out := some 0 } :=
  if_pos h

/-- An access to the entry selected reads or writes it, and INDEX moves on. -/
theorem doD2dMapDataAccess_selected (h : mapSelected m) (write : Bool) (v : Nat) :
    doD2dMapDataAccess write v m = fset
      (if write then modUnit (recMark m) (fget m D2D_MAP_SEL_UNIT) (fun x => { x with
          saved := tput 0 (eKey (fget m D2D_MAP_SEL_DIR) (fget m D2D_MAP_SEL_INDEX)) (v ^^^ plainEntry (fget m D2D_MAP_SEL_UNIT) (fget m D2D_MAP_SEL_INDEX)) x.saved })
        else { m with out := some (tget 0 (eKey (fget m D2D_MAP_SEL_DIR) (fget m D2D_MAP_SEL_INDEX)) (d2dUnit m (fget m D2D_MAP_SEL_UNIT)).saved ^^^
          plainEntry (fget m D2D_MAP_SEL_UNIT) (fget m D2D_MAP_SEL_INDEX)) })
      D2D_MAP_SEL_INDEX (mapIndexNext m) :=
  if_neg (mapSelected_iff.mpr h)

end

/-! ### D2D.DIE -/

/-- The die that D2D.DIE names (R580). -/
abbrev dieNamed (pay : List Nat) : Nat := bitsN (nth pay 0) 2 0

/-- D2D.DIE asks for the die to be in service (R580). -/
abbrev dieOn (pay : List Nat) : Bool := bitsN (nth pay 0) 31 28 == 1

/-- FORCE of D2D.DIE: the die is fenced with its blocks on it (R580). -/
abbrev dieForced (pay : List Nat) : Bool := tb (nth pay 0) 27

/-- A core test, a die link test or a fence under way holds the die (R581). -/
abbrev dieHeld (m : Chip) (d : Nat) : Bool :=
  (firstIdx 4 (fun j => cmdGoing m j 0x0D01 && nth (cmdAux m j) 0 == d)).isSome || (d2dUnit m d).testMb.isSome || (d2dUnit m d).fencing

section

variable {i : Nat} {pay : List Nat} {m : Chip}

/-- A die that is already as asked is left as it is. -/
theorem doD2dDie_asAsked (h : dieUp m (dieNamed pay) = dieOn pay) : doD2dDie i pay m = respond m i 0 [nth (sizeState m) 2] := if_pos (by simpa using h)

/-- A die to go out of service without FORCE is BUSY while a block is resident. -/
theorem doD2dDie_resident (hup : dieUp m (dieNamed pay) = true) (hon : dieOn pay = false) (hforce : dieForced pay = false) (hbusy : dieBusy m (dieNamed pay) = true) :
    doD2dDie i pay m = fail m i 1 :=
  (if_neg (by simp [hup, hon])).trans (if_pos (by simp [hon, hforce, hbusy]))

/-- Past the check for resident blocks a change is BUSY while the die is held, and else takes place. -/
theorem doD2dDie_changes (hne : dieUp m (dieNamed pay) ≠ dieOn pay) (hfree : dieOn pay = true ∨ dieForced pay = true ∨ dieBusy m (dieNamed pay) = false) :
    doD2dDie i pay m = if dieHeld m (dieNamed pay) then fail m i 1
      else if dieOn pay then returnDie i (dieNamed pay) m
      else fenceDie (modUnit (cmdOn (recMark m) i []) (dieNamed pay) (fun x => { x with byCmd := true, dieMb := some i })) (dieNamed pay) (if dieForced pay then 2 else 4) := by
  refine (if_neg (by simpa using hne)).trans (if_neg ?_)
  obtain h | h | h := hfree <;> simp [h]

/-- A die whose bundles form no channel once its map is verified stays out of service. -/
theorem returnDie_unformed {d : Nat} (h : dieFormed (verifyUnit (fset m D2D_CLK_STAT_CD_CLK_OK (fget m D2D_CLK_STAT_CD_CLK_OK ||| 2 ^ d)) d) d = false) :
    returnDie i d m = fail (verifyUnit (fset m D2D_CLK_STAT_CD_CLK_OK (fget m D2D_CLK_STAT_CD_CLK_OK ||| 2 ^ d)) d) i 0x0801 :=
  if_pos (by simp [h])

/-! ### D2D.CHECK, D2D.MAP and the test of a die's links -/

theorem doD2dCheck_busy (h : (d2dUnit m (bitsN (nth pay 0) 3 0)).checkMb.isSome = true ∨ (checkRow m (bitsN (nth pay 0) 3 0)).isSome = true) :
    doD2dCheck i pay m = fail m i 1 :=
  if_pos (Bool.or_eq_true_iff.mpr h)

/-- With room among Mioto's rows, the check of a die is a one-shot row of the next epoch (R573, R581). -/
theorem doD2dCheck_die (hmb : (d2dUnit m (bitsN (nth pay 0) 3 0)).checkMb = none) (hrow : checkRow m (bitsN (nth pay 0) 3 0) = none) (hroom : miotoRows m < 128)
    (hu : bitsN (nth pay 0) 3 0 < 8) :
    doD2dCheck i pay m = postMioto (modUnit (cmdOn m i []) (bitsN (nth pay 0) 3 0) (fun x => { x with checkMb := some i }))
      (miotoWords 5 3 ((now m / 2 ^ 20 + 1) * 2 ^ 20 + 0x11000) 64 0 1 50 3 (bitsN (nth pay 0) 3 0)) := by
  refine (if_neg (by simp [hmb, hrow])).trans ((if_neg (Nat.not_le.mpr hroom)).trans ?_)
  simp only [if_neg hu.ne]

theorem doDiagD2d_busy (h : dieUp m (nth pay 0) = true ∨ (d2dUnit m (nth pay 0)).fencing = true ∨ (d2dUnit m (nth pay 0)).testMb.isSome = true) :
    doDiagD2d i pay m = fail m i 1 :=
  if_pos (by simpa [or_assoc] using h)

/-- A test begins on a die that is out of service and not held, and the siding serves (R303, R582). -/
theorem doDiagD2d_begins (hup : dieUp m (nth pay 0) = false) (hfence : (d2dUnit m (nth pay 0)).fencing = false) (htest : (d2dUnit m (nth pay 0)).testMb = none) :
    doDiagD2d i pay m = fset (modUnit (cmdOn m i []) (nth pay 0) (fun x => { x with testMb := some i })) BUF_CTRL_SIDING_EN 1 :=
  if_neg (by simp [hup, hfence, htest])

/-- The loops' findings in the bundles and lanes that a die has, spares included. -/
abbrev laneFindings (d : Nat) (fails : List (Nat × Nat × Nat)) : List (Nat × Nat × Nat) :=
  fails.filter (fun f => decide (f.1 < 2) && decide (f.2.1 < 288) && decide (f.2.2 < laneCount d f.2.1 + 2))

/-- The bundles found to fail, each once. -/
abbrev failingBundles (d : Nat) (fails : List (Nat × Nat × Nat)) : List (Nat × Nat) := ((laneFindings d fails).map (fun f => (f.1, f.2.1))).eraseDups

/-- The machine once the test of a die is over: the siding is shut where no other die needs it. -/
abbrev testOver (d : Nat) (m : Chip) : Chip :=
  let m1 := modUnit m d (fun x => { x with testMb := none })
  if m1.d2d.any (fun y => y.fencing || y.testMb.isSome) then m1 else fset m1 BUF_CTRL_SIDING_EN 0

/-- The end of a test answers its mailbox with at most 508 bundles, and bit 31 where more failed (R663). -/
theorem doD2dTestEnd_answers {d : Nat} (fails : List (Nat × Nat × Nat)) (h : (d2dUnit m d).testMb = some i) :
    doD2dTestEnd d fails m = respond (testOver d m) i 0
      ((b2n (decide (508 < (failingBundles d fails).length)) * 2 ^ 31 + min 508 (failingBundles d fails).length) ::
        ((failingBundles d fails).take 508).map (bundleWord (laneFindings d fails))) := by
  simp only [doD2dTestEnd, h]

end

theorem exec_d2dTestEnd (d : Nat) (fails : List (Nat × Nat × Nat)) (s : State) :
    exec (.d2dTestEnd d fails) s = runIf s (fun m => decide (d < 8) && (d2dUnit m d).testMb.isSome) (doD2dTestEnd d fails) := rfl

/-- Settles O50: D2D_MAP_SEL, the die's state and the command's fields choose what each access and command does. -/
theorem dieLinkCommands : Obligations.DieLinkCommands := by
  intro s ha i
  refine ⟨?unselected, ?selected, ?die, returnDie_unformed, ?check, ?map, fun hc => does_of_command ha rfl hc rfl, ?diag, ?testEnd⟩
  case unselected =>
    exact fun x h => ⟨does_of_run ha rfl (doD2dMapDataAccess_unselected h false x.toNat), does_of_run ha rfl (doD2dMapDataAccess_unselected h true x.toNat)⟩
  case selected =>
    exact fun x hu he => ⟨does_of_run ha rfl (doD2dMapDataAccess_selected ⟨hu, he⟩ false x.toNat), does_of_run ha rfl (doD2dMapDataAccess_selected ⟨hu, he⟩ true x.toNat)⟩
  case die =>
    intro hc
    have hdoes {m : Chip} (h : doD2dDie i (cmdPay s.chip i) s.chip = m) : Does (.d2dDie i) s m := does_of_command ha rfl hc h
    refine ⟨fun h => hdoes (doD2dDie_asAsked h), fun hup hon hforce hbusy => hdoes (doD2dDie_resident hup hon hforce hbusy), ?held, ?fences, ?returns⟩
    case held => exact fun hne hfree hheld => hdoes ((doD2dDie_changes hne hfree).trans (if_pos hheld))
    case fences =>
      intro hup hon hfree hheld
      have hne : dieUp s.chip (dieNamed (cmdPay s.chip i)) ≠ dieOn (cmdPay s.chip i) := by simp [hup, hon]
      exact hdoes ((doD2dDie_changes hne (.inr hfree)).trans ((if_neg (ne_true_of_eq_false hheld)).trans (if_neg (ne_true_of_eq_false hon))))
    case returns =>
      intro hup hon hheld
      have hne : dieUp s.chip (dieNamed (cmdPay s.chip i)) ≠ dieOn (cmdPay s.chip i) := by simp [hup, hon]
      exact hdoes ((doD2dDie_changes hne (.inl hon)).trans ((if_neg (ne_true_of_eq_false hheld)).trans (if_pos hon)))
  case check =>
    intro hc
    exact ⟨fun h => does_of_command ha rfl hc (doD2dCheck_busy h), fun hmb hrow hroom hu => does_of_command ha rfl hc (doD2dCheck_die hmb hrow hroom hu)⟩
  case map =>
    intro hc
    exact ⟨fun hpast => does_of_command ha rfl hc (if_pos hpast), fun hfits => does_of_command ha rfl hc (if_neg (Nat.not_lt.mpr hfits))⟩
  case diag =>
    intro hc
    exact ⟨fun h => does_of_command ha rfl hc (doDiagD2d_busy h), fun hup hfence htest => does_of_command ha rfl hc (doDiagD2d_begins hup hfence htest)⟩
  case testEnd => exact fun d fails j hd hj => does_of_event ha (exec_d2dTestEnd d fails s) (by simp [hd, hj]) (doD2dTestEnd_answers fails hj)

end Sys2Proof.Proofs
end

section
/-! SUPPORT. Runs: what each command does to the queue, to the power of the board, and to a module that does not act. -/

namespace Sys2Proof.Proofs

open Sys2Proof.Machine Sys2Proof.Laws

/-! ### Plain commands -/

/-- The module's own commands that reach a store of the board: its start log, its flash and boot record, or its sample of VIN48. -/
def reachesStore : Instr → Bool
  | .startReady _ _ _ | .bootThermalRecheck _ _ | .h0HoldoffExpire | .sysReset _ | .secUpdate _ | .flashProgramDone _ | .powerSample _ _ => true
  | _ => false

/-- The commands that reach the board: those, and the board's own. -/
def reachesBoard (c : Instr) : Bool := reachesStore c || boardRow c

/-- Every other command acts on the powered module alone. -/
theorem plain_of_not_reachesBoard (s : State) : ∀ {c : Instr}, reachesBoard c = false → Plain (exec c s) s
  | .registerWrite .., _ => plain_registerWrite s _ _ | .readLoLatch .., _ => plain_readLoLatch s _ | .counterOvfClear .., _ => plain_counterOvfClear s _ _
  | .ctrlAccessError .., _ => plain_ctrlAccessError s _ _ _ | .undefinedRegAccess .., _ => plain_undefinedRegAccess s _ _ | .ltrefLock, _ => plain_ltrefLock s
  | .ltrefLoss, _ => plain_ltrefLoss s | .ltepochPulse, _ => plain_ltepochPulse s | .epochBoundary, _ => plain_epochBoundary s
  | .holdoverExpire, _ => plain_holdoverExpire s | .ttLockTimeout, _ => plain_ttLockTimeout s | .markReqRx .., _ => plain_markReqRx s _ _
  | .markRepRx .., _ => plain_markRepRx s _ _ _ _ _ _ | .rowArm .., _ => plain_rowArm s _ | .slotWindowOpen .., _ => plain_slotWindowOpen s _
  | .recvWindowOpen .., _ => plain_recvWindowOpen s _ | .exchangeWindowOpen .., _ => plain_exchangeWindowOpen s _
  | .refreshWindowOpen .., _ => plain_refreshWindowOpen s _ | .possessionWindowOpen .., _ => plain_possessionWindowOpen s _
  | .throttleWindowOpen .., _ => plain_throttleWindowOpen s _ | .journalWindowOpen .., _ => plain_journalWindowOpen s _
  | .signalRowFire .., _ => plain_signalRowFire s _ | .markRowFire .., _ => plain_markRowFire s _ | .rowWindowEnd .., _ => plain_rowWindowEnd s _
  | .recvWindowClose .., _ => plain_recvWindowClose s _ | .lateReadyOmit .., _ => plain_lateReadyOmit s _ | .ttLock .., _ => plain_ttLock s _
  | .ttNow .., _ => plain_ttNow s _ | .ttSchedule .., _ => plain_ttSchedule s _ | .ttPost .., _ => plain_ttPost s _ | .ttCancel .., _ => plain_ttCancel s _
  | .ttList .., _ => plain_ttList s _ | .ttArm .., _ => plain_ttArm s _ | .blockPlace, _ => plain_blockPlace s
  | .barrierStall .., _ => plain_barrierStall s _ _ | .l0LineFill .., _ => plain_l0LineFill s _ _ | .uwaitPoll .., _ => plain_uwaitPoll s _ _
  | .uwaitTimeout .., _ => plain_uwaitTimeout s _ _ | .l0InvAllWrite .., _ => plain_l0InvAllWrite s _ | .diagCore .., _ => plain_diagCore s _
  | .mmaArrayComplete .., _ => plain_mmaArrayComplete s _ | .nop .., _ => plain_nop s _ _ _ | .bra .., _ => plain_bra s _ _ _
  | .call .., _ => plain_call s _ _ _ | .jmp .., _ => plain_jmp s _ _ _ | .exit .., _ => plain_exit s _ _ _ | .bar .., _ => plain_bar s _ _ _
  | .trap .., _ => plain_trap s _ _ _ | .iadd .., _ => plain_iadd s _ _ _ | .isub .., _ => plain_isub s _ _ _ | .imul .., _ => plain_imul s _ _ _
  | .imulhi .., _ => plain_imulhi s _ _ _ | .imac .., _ => plain_imac s _ _ _ | .imin .., _ => plain_imin s _ _ _ | .imax .., _ => plain_imax s _ _ _
  | .shl .., _ => plain_shl s _ _ _ | .shr .., _ => plain_shr s _ _ _ | .andI .., _ => plain_andI s _ _ _ | .orI .., _ => plain_orI s _ _ _
  | .xorI .., _ => plain_xorI s _ _ _ | .pcnt .., _ => plain_pcnt s _ _ _ | .clz .., _ => plain_clz s _ _ _ | .bext .., _ => plain_bext s _ _ _
  | .bins .., _ => plain_bins s _ _ _ | .mov .., _ => plain_mov s _ _ _ | .movi .., _ => plain_movi s _ _ _ | .sel .., _ => plain_sel s _ _ _
  | .bsel .., _ => plain_bsel s _ _ _ | .xlane .., _ => plain_xlane s _ _ _ | .rdsp .., _ => plain_rdsp s _ _ _ | .iadd64 .., _ => plain_iadd64 s _ _ _
  | .fadd .., _ => plain_fadd s _ _ _ | .fmul .., _ => plain_fmul s _ _ _ | .fmac .., _ => plain_fmac s _ _ _ | .fmin .., _ => plain_fmin s _ _ _
  | .fmax .., _ => plain_fmax s _ _ _ | .pkadd .., _ => plain_pkadd s _ _ _ | .pkmul .., _ => plain_pkmul s _ _ _ | .pkmac .., _ => plain_pkmac s _ _ _
  | .pkmin .., _ => plain_pkmin s _ _ _ | .pkmax .., _ => plain_pkmax s _ _ _ | .cvt .., _ => plain_cvt s _ _ _ | .rcp .., _ => plain_rcp s _ _ _
  | .rsq .., _ => plain_rsq s _ _ _ | .sqrt .., _ => plain_sqrt s _ _ _ | .exp2 .., _ => plain_exp2 s _ _ _ | .log2 .., _ => plain_log2 s _ _ _
  | .tanh .., _ => plain_tanh s _ _ _ | .icmp .., _ => plain_icmp s _ _ _ | .fcmp .., _ => plain_fcmp s _ _ _ | .pcomb .., _ => plain_pcomb s _ _ _
  | .pgrp .., _ => plain_pgrp s _ _ _ | .p2v .., _ => plain_p2v s _ _ _ | .v2p .., _ => plain_v2p s _ _ _ | .uadd .., _ => plain_uadd s _ _ _
  | .usub .., _ => plain_usub s _ _ _ | .umul .., _ => plain_umul s _ _ _ | .uand .., _ => plain_uand s _ _ _ | .uor .., _ => plain_uor s _ _ _
  | .uxor .., _ => plain_uxor s _ _ _ | .ushl .., _ => plain_ushl s _ _ _ | .ushr .., _ => plain_ushr s _ _ _ | .umov .., _ => plain_umov s _ _ _
  | .umovi .., _ => plain_umovi s _ _ _ | .uadd64 .., _ => plain_uadd64 s _ _ _ | .ucmp .., _ => plain_ucmp s _ _ _ | .urdsp .., _ => plain_urdsp s _ _ _
  | .ld .., _ => plain_ld s _ _ _ | .st .., _ => plain_st s _ _ _ | .fence .., _ => plain_fence s _ _ _ | .l0inv .., _ => plain_l0inv s _ _ _
  | .uld .., _ => plain_uld s _ _ _ | .uwait .., _ => plain_uwait s _ _ _ | .atomAdd .., _ => plain_atomAdd s _ _ _
  | .atomFadd .., _ => plain_atomFadd s _ _ _ | .atomSmin .., _ => plain_atomSmin s _ _ _ | .atomSmax .., _ => plain_atomSmax s _ _ _
  | .atomUmin .., _ => plain_atomUmin s _ _ _ | .atomUmax .., _ => plain_atomUmax s _ _ _ | .atomAnd .., _ => plain_atomAnd s _ _ _
  | .atomOr .., _ => plain_atomOr s _ _ _ | .atomXor .., _ => plain_atomXor s _ _ _ | .atomExch .., _ => plain_atomExch s _ _ _
  | .atomCas .., _ => plain_atomCas s _ _ _ | .sig .., _ => plain_sig s _ _ _ | .mma .., _ => plain_mma s _ _ _ | .tzero .., _ => plain_tzero s _ _ _
  | .trd .., _ => plain_trd s _ _ _ | .twr .., _ => plain_twr s _ _ _ | .tst .., _ => plain_tst s _ _ _ | .sliceRead .., _ => plain_sliceRead s _
  | .sliceWrite .., _ => plain_sliceWrite s _ | .slicePartialWrite .., _ => plain_slicePartialWrite s _ | .collectAtomic .., _ => plain_collectAtomic s _
  | .collectReduce .., _ => plain_collectReduce s _ | .sliceClassDPromote .., _ => plain_sliceClassDPromote s _ _
  | .cacheFillReturn .., _ => plain_cacheFillReturn s _ | .evictionWriteback .., _ => plain_evictionWriteback s _
  | .evictionRoomResume .., _ => plain_evictionRoomResume s _ | .sidingDrain .., _ => plain_sidingDrain s _
  | .sidingRoomResume .., _ => plain_sidingRoomResume s _ | .bufScrubLine .., _ => plain_bufScrubLine s _ | .bufCtrlFlush .., _ => plain_bufCtrlFlush s _
  | .bufRegion .., _ => plain_bufRegion s _ | .bufFlush .., _ => plain_bufFlush s _ | .bufScrub .., _ => plain_bufScrub s _
  | .bufClear .., _ => plain_bufClear s _ | .bufFlip .., _ => plain_bufFlip s _ | .conDescriptorAccept .., _ => plain_conDescriptorAccept s _
  | .conWaitPoll .., _ => plain_conWaitPoll s _ _ | .conWaitTimeout .., _ => plain_conWaitTimeout s _ _ | .fetchWagonStart .., _ => plain_fetchWagonStart s _
  | .fetchLineReturn .., _ => plain_fetchLineReturn s _ _ | .expandWagon .., _ => plain_expandWagon s _ _ | .expandHand .., _ => plain_expandHand s _ _
  | .stageWagonWrite .., _ => plain_stageWagonWrite s _ _ | .stageWagonRetire .., _ => plain_stageWagonRetire s _ _
  | .despatchWagon .., _ => plain_despatchWagon s _ _ | .consistReclaimDone .., _ => plain_consistReclaimDone s _ _
  | .regulatorRefill .., _ => plain_regulatorRefill s _ | .conResetWrite .., _ => plain_conResetWrite s _ | .conRun .., _ => plain_conRun s _
  | .conRegulate .., _ => plain_conRegulate s _ | .conReset .., _ => plain_conReset s _ | .ptsJobAccept .., _ => plain_ptsJobAccept s _
  | .ptsWaitPoll .., _ => plain_ptsWaitPoll s _ | .ptsWaitTimeout .., _ => plain_ptsWaitTimeout s _ | .routeJobRun .., _ => plain_routeJobRun s _
  | .tallyJobRun .., _ => plain_tallyJobRun s _ | .ptsJobComplete .., _ => plain_ptsJobComplete s _ | .gatePoll .., _ => plain_gatePoll s _
  | .gateTimeout .., _ => plain_gateTimeout s _ | .ptsTblDataWrite .., _ => plain_ptsTblDataWrite s _ | .ptsResetWrite .., _ => plain_ptsResetWrite s _
  | .ptsTable .., _ => plain_ptsTable s _ | .ptsRoute .., _ => plain_ptsRoute s _ | .ptsTally .., _ => plain_ptsTally s _
  | .ptsReset .., _ => plain_ptsReset s _ | .hbmRead .., _ => plain_hbmRead s _ | .hbmWrite .., _ => plain_hbmWrite s _
  | .hbmPartialWrite .., _ => plain_hbmPartialWrite s _ | .hbmClassDPromote .., _ => plain_hbmClassDPromote s _ _
  | .refreshTimer .., _ => plain_refreshTimer s _ | .hbmTrainingFinish .., _ => plain_hbmTrainingFinish s _ _ _
  | .hbmTempRead .., _ => plain_hbmTempRead s _ _ | .hbmScrubLine .., _ => plain_hbmScrubLine s _ | .hbmOosWrite .., _ => plain_hbmOosWrite s _ _
  | .hbmDrainDone .., _ => plain_hbmDrainDone s _ | .hbmService .., _ => plain_hbmService s _ | .hbmThrottle .., _ => plain_hbmThrottle s _
  | .hbmScrub .., _ => plain_hbmScrub s _ | .hbmFlip .., _ => plain_hbmFlip s _ | .hbmStatus .., _ => plain_hbmStatus s _
  | .diagHbm .., _ => plain_diagHbm s _ | .laneSignalDetect .., _ => plain_laneSignalDetect s _ _ | .laneCdrLock .., _ => plain_laneCdrLock s _ _
  | .laneFrameLock .., _ => plain_laneFrameLock s _ _ _ _ | .laneAdaptPass .., _ => plain_laneAdaptPass s _ _ _ _
  | .laneAdaptTimeout .., _ => plain_laneAdaptTimeout s _ _ | .laneRateStep .., _ => plain_laneRateStep s _ _ _ _
  | .portBringupTimeout .., _ => plain_portBringupTimeout s _ | .laneFrameReceive .., _ => plain_laneFrameReceive s _ _ _ _ _
  | .laneFail .., _ => plain_laneFail s _ _ _ | .eyeStartWrite .., _ => plain_eyeStartWrite s _ _ | .eyePointDone .., _ => plain_eyePointDone s _ _
  | .farLoopExit .., _ => plain_farLoopExit s _ | .laneEnWrite .., _ => plain_laneEnWrite s _ _ | .loopSelectWrite .., _ => plain_loopSelectWrite s _ _
  | .lnkOosWrite .., _ => plain_lnkOosWrite s _ _ | .lnkEye .., _ => plain_lnkEye s _ | .lnkLoop .., _ => plain_lnkLoop s _
  | .lnkLane .., _ => plain_lnkLane s _ | .lnkService .., _ => plain_lnkService s _ | .lnkStatus .., _ => plain_lnkStatus s _
  | .lnkTopo .., _ => plain_lnkTopo s _ | .flitDataWriteRx .., _ => plain_flitDataWriteRx s _ _ | .flitDataReduceRx .., _ => plain_flitDataReduceRx s _ _
  | .voidMarkerRx .., _ => plain_voidMarkerRx s _ _ | .reqReadRx .., _ => plain_reqReadRx s _ _ | .reqWriteRx .., _ => plain_reqWriteRx s _ _
  | .reqMaskedWriteRx .., _ => plain_reqMaskedWriteRx s _ _ | .reqAtomicRx .., _ => plain_reqAtomicRx s _ _
  | .respReadDataRx .., _ => plain_respReadDataRx s _ _ | .respWriteAckRx .., _ => plain_respWriteAckRx s _ _
  | .respAtomicResultRx .., _ => plain_respAtomicResultRx s _ _ | .respErrorRx .., _ => plain_respErrorRx s _ _ | .idleRx .., _ => plain_idleRx s _ _
  | .nakRx .., _ => plain_nakRx s _ _ | .auditRx .., _ => plain_auditRx s _ _ | .reclaimReqRx .., _ => plain_reclaimReqRx s _ _
  | .reclaimRepRx .., _ => plain_reclaimRepRx s _ _ | .identRx .., _ => plain_identRx s _ _ | .departRx .., _ => plain_departRx s _ _
  | .routedRx .., _ => plain_routedRx s _ _ | .replayTimeout .., _ => plain_replayTimeout s _ | .nakRepeat .., _ => plain_nakRepeat s _
  | .linkLockTimeout .., _ => plain_linkLockTimeout s _ | .linkDrainEnd .., _ => plain_linkDrainEnd s _
  | .linkReclaimWrite .., _ => plain_linkReclaimWrite s _ _ | .linkRetrainWrite .., _ => plain_linkRetrainWrite s _ _
  | .d2dReclaimDone .., _ => plain_d2dReclaimDone s _ | .laneCheckTurn .., _ => plain_laneCheckTurn s _ _ | .clockLoss .., _ => plain_clockLoss s _
  | .computeDieLost .., _ => plain_computeDieLost s _ _ | .dieFenceComplete .., _ => plain_dieFenceComplete s _ | .roleFatal .., _ => plain_roleFatal s _ _
  | .d2dMapDataAccess .., _ => plain_d2dMapDataAccess s _ _ | .d2dDie .., _ => plain_d2dDie s _ | .d2dCheck .., _ => plain_d2dCheck s _
  | .d2dMap .., _ => plain_d2dMap s _ | .d2dStatus .., _ => plain_d2dStatus s _ | .diagD2d .., _ => plain_diagD2d s _
  | .hostMemRead .., _ => plain_hostMemRead s _ | .hostMemWrite .., _ => plain_hostMemWrite s _ _ _ | .hostIoRead .., _ => plain_hostIoRead s _ _ _
  | .hostIoWrite .., _ => plain_hostIoWrite s _ _ _ _ | .hostAtomicop .., _ => plain_hostAtomicop s _ _ _ _ _ _
  | .biasRecallResponse .., _ => plain_biasRecallResponse s _ _ _ _ | .biasFlipHostComplete .., _ => plain_biasFlipHostComplete s _
  | .biasDwellExpire .., _ => plain_biasDwellExpire s _ | .readaheadExpire .., _ => plain_readaheadExpire s _ _
  | .hostReadaheadWrite .., _ => plain_hostReadaheadWrite s _ | .hostBiasDataAccess .., _ => plain_hostBiasDataAccess s _ _
  | .hostDoorbellWrite .., _ => plain_hostDoorbellWrite s _ _ | .eventRingDoorbell .., _ => plain_eventRingDoorbell s _ _
  | .ringEntryReread .., _ => plain_ringEntryReread s _ | .doorbellAhead .., _ => plain_doorbellAhead s _ | .h0LinkDown, _ => plain_h0LinkDown s
  | .h1LinkLoss, _ => plain_h1LinkLoss s | .h1Perst, _ => plain_h1Perst s | .msixGapExpire .., _ => plain_msixGapExpire s _
  | .hostWindow .., _ => plain_hostWindow s _ | .hostBias .., _ => plain_hostBias s _ | .hostPolicy .., _ => plain_hostPolicy s _
  | .mailboxGo .., _ => plain_mailboxGo s _ _ | .commandWaitResume .., _ => plain_commandWaitResume s _ | .launchAccept .., _ => plain_launchAccept s _
  | .sysSize .., _ => plain_sysSize s _ | .sysIdent .., _ => plain_sysIdent s _ | .sysState .., _ => plain_sysState s _ | .sysRing .., _ => plain_sysRing s _
  | .sysAbort .., _ => plain_sysAbort s _ | .secMeasure .., _ => plain_secMeasure s _ | .secAttest .., _ => plain_secAttest s _
  | .heartbeatRx .., _ => plain_heartbeatRx s _ _ | .jendRx .., _ => plain_jendRx s _ _ | .jackRx .., _ => plain_jackRx s _ _
  | .pairRx .., _ => plain_pairRx s _ _ | .unpairRx .., _ => plain_unpairRx s _ _ | .regionRx .., _ => plain_regionRx s _ _
  | .twinHbRx .., _ => plain_twinHbRx s _ _ | .twinTakeRx .., _ => plain_twinTakeRx s _ _ | .twinReleaseRx .., _ => plain_twinReleaseRx s _ _
  | .twinHandoverProceed, _ => plain_twinHandoverProceed s | .twinAliasDataRead, _ => plain_twinAliasDataRead s | .twinPair .., _ => plain_twinPair s _
  | .twinDetach .., _ => plain_twinDetach s _ | .twinProtect .., _ => plain_twinProtect s _ | .twinStatus .., _ => plain_twinStatus s _
  | .twinPolicy .., _ => plain_twinPolicy s _ | .throttleTimer, _ => plain_throttleTimer s | .railFault .., _ => plain_railFault s _
  | .converterFail .., _ => plain_converterFail s _ | .pwrLimit .., _ => plain_pwrLimit s _ | .pwrStatus .., _ => plain_pwrStatus s _
  | .h0LinkUp .., _ => plain_h0LinkUp s _ _ | .ltepochLoss, _ => plain_ltepochLoss s | .portFrameSend .., _ => plain_portFrameSend s _
  | .cxlCacheSnoop .., _ => plain_cxlCacheSnoop s _ | .twinPairTimeout, _ => plain_twinPairTimeout s | .loopTestEnd .., _ => plain_loopTestEnd s _ _ _ _ _
  | .codeCacheFill .., _ => plain_codeCacheFill s _ _ | .hbmArrayTestEnd .., _ => plain_hbmArrayTestEnd s _ _ _ _
  | .coreTestEnd .., _ => plain_coreTestEnd s _ _ _ _ | .d2dTestEnd .., _ => plain_d2dTestEnd s _ _ | .hbmReturnDone .., _ => plain_hbmReturnDone s _ _
  | .bufClearDone .., _ => plain_bufClearDone s _

theorem rails_of_acts {s : State} (h : acts s = true) : s.board.rails = true := by
  simp only [acts, Bool.and_eq_true] at h
  exact h.1.1

theorem not_acts_of_rails {s : State} (h : s.board.rails = false) : acts s = false := by simp [acts, h]

/-! ### What a start leaves -/

/-- The queue and the power of the board are in t as in s. -/
structure Undisturbed (s t : State) : Prop where
  power : SamePower s.board t.board
  pending : t.pending = s.pending

theorem Undisturbed.refl (s : State) : Undisturbed s s := ⟨⟨rfl, rfl, rfl, rfl⟩, rfl⟩

theorem Undisturbed.trans {s t u : State} (h : Undisturbed s t) (k : Undisturbed t u) : Undisturbed s u := ⟨h.power.trans k.power, k.pending.trans h.pending⟩

theorem Undisturbed.ite {s t u : State} {p : Prop} [Decidable p] (h : Undisturbed s t) (k : Undisturbed s u) : Undisturbed s (if p then t else u) := by
  split <;> assumption

theorem undisturbed_chip (s : State) (m : Chip) : Undisturbed s { s with chip := m } := ⟨⟨rfl, rfl, rfl, rfl⟩, rfl⟩

theorem undisturbed_bootImage (s : State) : Undisturbed s (bootImage s) := by
  refine ⟨SamePower.bootImage ⟨rfl, rfl, rfl, rfl⟩, ?_⟩
  unfold bootImage
  dsimp only
  split <;> rfl

theorem undisturbed_coldSteps (s : State) : Undisturbed s (coldSteps s) := by
  refine ⟨samePower_coldSteps s, ?_⟩
  unfold coldSteps
  dsimp only
  split
  · rfl
  · exact (undisturbed_bootImage _).pending

theorem undisturbed_warmSteps (s : State) : Undisturbed s (warmSteps s) :=
  Undisturbed.ite ((undisturbed_chip s _).trans (undisturbed_coldSteps _)) ((undisturbed_chip s _).trans (undisturbed_bootImage _))

theorem undisturbed_sendDepart (s : State) (reason : Nat) : Undisturbed s (sendDepart s reason) :=
  Undisturbed.ite ⟨⟨rfl, rfl, rfl, rfl⟩, rfl⟩ (Undisturbed.refl s)

theorem undisturbed_startCause (s : State) (cold modRst : Bool) (reason : Nat) : Undisturbed s (startCause s cold modRst reason) := by
  have hdepart : Undisturbed s (if s.chip.start.phase = 5 then sendDepart s reason else s) := Undisturbed.ite (undisturbed_sendDepart s reason) (Undisturbed.refl s)
  exact Undisturbed.ite (Undisturbed.refl s) (Undisturbed.ite (hdepart.trans (undisturbed_coldSteps _)) (hdepart.trans (undisturbed_warmSteps _)))

theorem undisturbed_settled (s : State) : Undisturbed s (settled s) := Undisturbed.ite (undisturbed_chip s _) (Undisturbed.refl s)

/-- A cause of a start is nothing to a module without its rails. -/
theorem startCause_off {s : State} (h : s.board.rails = false) (cold modRst : Bool) (reason : Nat) : startCause s cold modRst reason = s := if_pos (by simp [h])

/-! ### The flash and the boot record -/

theorem samePower_putBank (b : Board) (k off : Nat) (bs : List Byte) : SamePower b (putBank b k off bs) := by
  unfold putBank setBank
  split <;> exact ⟨rfl, rfl, rfl, rfl⟩

theorem undisturbed_updateWrite (i : Nat) (p : List Nat) (s : State) : Undisturbed s (updateWrite i p s) := by
  unfold updateWrite
  dsimp only
  refine Undisturbed.ite (undisturbed_chip s _) (Undisturbed.ite (undisturbed_chip s _) ?_)
  split
  · exact undisturbed_chip s _
  · exact undisturbed_chip s _
  · exact ⟨samePower_putBank _ _ _ _, rfl⟩

theorem undisturbed_updateCommit (i : Nat) (keep : Bool) (s : State) : Undisturbed s (updateCommit i keep s) :=
  Undisturbed.ite (undisturbed_chip s _) (Undisturbed.ite ⟨⟨rfl, rfl, rfl, rfl⟩, rfl⟩ (Undisturbed.ite ⟨⟨rfl, rfl, rfl, rfl⟩, rfl⟩ ⟨⟨rfl, rfl, rfl, rfl⟩, rfl⟩))

theorem undisturbed_updateRevert (i : Nat) (s : State) : Undisturbed s (updateRevert i s) :=
  Undisturbed.ite ⟨⟨rfl, rfl, rfl, rfl⟩, rfl⟩ (Undisturbed.ite (undisturbed_chip s _) (Undisturbed.ite (undisturbed_chip s _) ⟨⟨rfl, rfl, rfl, rfl⟩, rfl⟩))

theorem undisturbed_doSecUpdate (i : Nat) (p : List Nat) (s : State) : Undisturbed s (doSecUpdate i p s) := by
  unfold doSecUpdate
  refine Undisturbed.ite (undisturbed_chip s _) ?_
  split
  · exact undisturbed_updateWrite i p s
  · exact undisturbed_updateCommit i _ s
  · exact undisturbed_updateRevert i s

theorem undisturbed_doFlashProgramDone (ok : Bool) (s : State) : Undisturbed s (doFlashProgramDone ok s) := by
  unfold doFlashProgramDone
  split
  · exact Undisturbed.refl s
  · next i k _ =>
    have hbank := samePower_putBank s.board k 0 s.chip.start.updImage
    exact Undisturbed.ite ⟨⟨hbank.vin, hbank.vsb, hbank.rails, hbank.trip⟩, rfl⟩ (undisturbed_chip s _)

/-- Whether the rails are on is not VIN48's return to say. -/
theorem vinBack_rails (b : Board) (mv : Nat) : (vinBack b mv).rails = b.rails := by
  unfold vinBack
  split <;> rfl

/-! ### Orderly steps -/

/-- From s to t the queue stays and power stays in order. -/
structure Orderly (s t : State) : Prop where
  pending : t.pending = s.pending
  power : PowerInv s → PowerInv t

/-- What leaves the power and the module without rails as they are is orderly. -/
theorem Undisturbed.orderly {s t : State} (h : Undisturbed s t) (hoff : s.board.rails = false → t.chip = s.chip) : Orderly s t := by
  refine ⟨h.pending, fun ⟨hchip, hon⟩ => ⟨fun hr => ?off, fun hr => ?on⟩⟩
  all_goals rw [h.power.rails] at hr
  case off => exact (hoff hr).trans (hchip hr)
  case on =>
    rw [h.power.vin, h.power.vsb, h.power.trip]
    exact hon hr

/-- Whatever happens to a powered module is orderly where the board's power stays. -/
theorem Undisturbed.orderly_powered {s t : State} (h : Undisturbed s t) (hr : s.board.rails = true) : Orderly s t :=
  h.orderly fun hoff => absurd hr (by simp [hoff])

theorem orderly_board {s : State} {b : Board} (h : SamePower s.board b) : Orderly s { s with board := b } := Undisturbed.orderly ⟨h, rfl⟩ fun _ => rfl

/-- A module that loses its rails keeps no state. -/
theorem orderly_off {s t : State} (hq : t.pending = s.pending) (hr : t.board.rails = false) (hc : t.chip = Chip.off) : Orderly s t :=
  ⟨hq, fun _ => ⟨fun _ => hc, fun hon => absurd hon (by simp [hr])⟩⟩

theorem Orderly.trans {s t u : State} (h : Orderly s t) (k : Orderly t u) : Orderly s u := ⟨k.pending.trans h.pending, fun hs => k.power (h.power hs)⟩

theorem orderly_startCause (s : State) (cold modRst : Bool) (reason : Nat) : Orderly s (startCause s cold modRst reason) :=
  (undisturbed_startCause s cold modRst reason).orderly fun hoff => congrArg State.chip (startCause_off hoff cold modRst reason)

theorem orderly_settled (s : State) : Orderly s (settled s) :=
  (undisturbed_settled s).orderly fun hoff => by simp [settled, not_acts_of_rails hoff]

/-- A step ends in a next state, in good order. -/
def Completes (o : Host.Outcome State Fault Refusal) (s : State) : Prop := ∃ t, o = .next t ∧ Orderly s t

theorem completes_next {s t : State} (h : Orderly s t) : Completes (.next t) s := ⟨t, rfl, h⟩

theorem completes_same (s : State) : Completes (.next s) s := completes_next ((Undisturbed.refl s).orderly fun _ => rfl)

theorem Orderly.completes {o : Host.Outcome State Fault Refusal} {s t : State} (h : Orderly s t) (k : Completes o t) : Completes o s := by
  obtain ⟨u, ho, hu⟩ := k
  exact ⟨u, ho, h.trans hu⟩

theorem Plain.completes {o : Host.Outcome State Fault Refusal} {s : State} (h : Plain o s) : Completes o s := by
  obtain ⟨-, rfl⟩ | ⟨ha, m, rfl⟩ := h
  · exact completes_same s
  · exact completes_next ((undisturbed_chip s _).orderly_powered (rails_of_acts ha))

theorem completes_run (s : State) (f : Chip → Chip) : Completes (run s f) s := Plain.completes (plain_run s f)

theorem completes_ite {a b : Host.Outcome State Fault Refusal} {s : State} {p : Prop} [Decidable p] (ha : p → Completes a s) (hb : Completes b s) :
    Completes (if p then a else b) s := by
  split
  · next h => exact ha h
  · exact hb

/-! ### The commands that reach the board -/

section

variable (s : State)

theorem completes_startReady (stk ports dies : Nat) : Completes (execStartReady stk ports dies s) s := by
  refine completes_ite (fun h => completes_next (.trans ?_ (orderly_settled _))) (completes_same s)
  exact Undisturbed.orderly_powered ⟨⟨rfl, rfl, rfl, rfl⟩, rfl⟩ (rails_of_acts (Bool.and_eq_true_iff.mp h).1)

theorem completes_bootThermalRecheck (temps powers : List Nat) : Completes (execBootThermalRecheck temps powers s) s := by
  refine completes_ite (fun h => completes_next (.trans ?_ (orderly_settled _))) (completes_same s)
  have hcool : Undisturbed s { s with board := { s.board with hot := false } } := ⟨⟨rfl, rfl, rfl, rfl⟩, rfl⟩
  exact Undisturbed.orderly_powered (.ite (hcool.trans (undisturbed_bootImage _)) (.refl s)) (Bool.and_eq_true_iff.mp h).1

theorem completes_h0HoldoffExpire : Completes (execH0HoldoffExpire s) s := by
  refine completes_ite (fun h => completes_next (.trans ?_ (orderly_settled _))) (completes_same s)
  have hlost : Undisturbed s (h0Lost s) := undisturbed_chip s _
  exact Undisturbed.orderly_powered (.ite hlost (hlost.trans (undisturbed_startCause _ _ _ _))) (rails_of_acts (Bool.and_eq_true_iff.mp h).1)

theorem completes_h0HotReset : Completes (execH0HotReset s) s := by
  refine completes_ite (fun h => completes_next (.trans ?_ (orderly_settled _))) (completes_same s)
  exact Undisturbed.orderly_powered ((undisturbed_chip s _).trans (undisturbed_startCause _ _ _ _)) (Bool.and_eq_true_iff.mp h).1

theorem completes_miotoWatchdogExpire : Completes (execMiotoWatchdogExpire s) s := by
  refine completes_ite (fun h => completes_next (.trans ?_ (orderly_settled _))) (completes_same s)
  exact (undisturbed_startCause s _ _ _).orderly_powered (Bool.and_eq_true_iff.mp h).1

theorem completes_sysReset (i : Nat) : Completes (execSysReset i s) s := by
  refine completes_ite (fun h => completes_next (.trans ?_ (orderly_settled _))) (completes_run s id)
  exact Undisturbed.orderly_powered (.ite ((undisturbed_chip s _).trans (undisturbed_startCause _ _ _ _)) (undisturbed_chip s _))
    (rails_of_acts (Bool.and_eq_true_iff.mp h).1)

theorem completes_secUpdate (i : Nat) : Completes (execSecUpdate i s) s :=
  completes_ite (fun h => completes_next (((undisturbed_doSecUpdate i _ s).trans (undisturbed_chip _ _)).orderly_powered (rails_of_acts (Bool.and_eq_true_iff.mp h).1)))
    (completes_run s id)

theorem completes_flashProgramDone (ok : Bool) : Completes (execFlashProgramDone ok s) s :=
  completes_ite (fun h => completes_next (((undisturbed_doFlashProgramDone ok s).trans (undisturbed_chip _ _)).orderly_powered (rails_of_acts (Bool.and_eq_true_iff.mp h).1)))
    (completes_run s id)

theorem completes_powerSample (mv ma : Nat) : Completes (execPowerSample mv ma s) s := by
  refine Orderly.completes ?_ (completes_run _ _)
  split
  · exact orderly_board ⟨rfl, rfl, rfl, rfl⟩
  · exact (Undisturbed.refl s).orderly fun _ => rfl

theorem completes_h0PerstAssert : Completes (execH0PerstAssert s) s := 
  (orderly_board (b := { s.board with h0Perst := true }) ⟨rfl, rfl, rfl, rfl⟩).completes (completes_run _ _)

theorem completes_h0PerstRelease : Completes (execH0PerstRelease s) s := by
  have hpin : Orderly s { s with board := { s.board with h0Perst := false } } := orderly_board ⟨rfl, rfl, rfl, rfl⟩
  exact completes_ite (fun _ => completes_next ((hpin.trans (orderly_startCause _ _ _ _)).trans (orderly_settled _))) (completes_same s)

theorem completes_modRstAssert (dur : Nat) : Completes (execModRstAssert dur s) s := by
  have hdepart : Undisturbed s (if s.chip.start.phase = 5 then sendDepart s 1 else s) := .ite (undisturbed_sendDepart s 1) (.refl s)
  refine completes_next (Undisturbed.orderly (.ite (hdepart.trans ⟨⟨rfl, rfl, rfl, rfl⟩, rfl⟩) ⟨⟨rfl, rfl, rfl, rfl⟩, rfl⟩) fun hoff => ?_)
  simp [doModRstAssert, hoff]

theorem completes_modRstRelease : Completes (execModRstRelease s) s := by
  have hpins : Orderly s { s with board := { s.board with modRst := false, jtagPins := [] } } := orderly_board ⟨rfl, rfl, rfl, rfl⟩
  refine completes_next (.trans ?_ (orderly_settled _))
  unfold doModRstRelease
  dsimp only
  split
  · exact hpins.trans (orderly_startCause _ _ _ _)
  · exact hpins

/-- VIN48 comes to a module whose rails, where power is in order, are off: they stay off, or come with VSB and no trip. -/
theorem orderly_doVin48Rise {mv : Nat} {s : State} (hv : s.board.vin = false) : Orderly s (doVin48Rise mv s) := by
  have hrails (hs : PowerInv s) : s.board.rails = false := by
    obtain ⟨-, hon⟩ := hs
    cases hr : s.board.rails with
    | false => rfl
    | true => exact absurd (hon hr).1 (by simp [hv])
  unfold doVin48Rise
  dsimp only
  split
  · exact ⟨rfl, fun hs => ⟨fun _ => hs.1 (hrails hs), fun hon => absurd (hrails hs) (by simpa [vinBack_rails] using hon)⟩⟩
  · next htrip =>
    have hup : PowerInv { s with board := { vinBack s.board mv with rails := true }, chip := Chip.off } :=
      ⟨fun hr => absurd hr (by simp), fun _ => ⟨vinBack_vin _ _, vinBack_vsb _ _, by simpa using htrip⟩⟩
    split
    · exact ⟨rfl, fun _ => hup⟩
    · have hcold := undisturbed_coldSteps { s with board := { vinBack s.board mv with rails := true }, chip := Chip.off }
      exact ⟨hcold.pending, fun _ => (hcold.orderly_powered rfl).power hup⟩

theorem completes_vin48Rise (mv : Nat) : Completes (execVin48Rise mv s) s := by
  refine completes_ite (fun h => completes_next (.trans (orderly_doVin48Rise ?_) (orderly_settled _))) (completes_same s)
  simpa using (Bool.and_eq_true_iff.mp (Bool.and_eq_true_iff.mp h).1).1

theorem completes_vin48Undervolt : Completes (execVin48Undervolt s) s := completes_next (orderly_off (undisturbed_sendDepart s 1).pending rfl rfl)

theorem completes_vin48Overvolt : Completes (execVin48Overvolt s) s := completes_next (orderly_off rfl rfl rfl)

theorem completes_thermalSample (temps powers : List Nat) : Completes (execThermalSample temps powers s) s := by
  refine completes_ite (fun h => completes_next ?_) (completes_same s)
  split
  · exact orderly_off rfl rfl rfl
  · exact (undisturbed_chip s _).orderly_powered (Bool.and_eq_true_iff.mp h).1

/-- What the management bus and the test port answer is a store of the board. -/
theorem completes_board {b : Board} (h : SamePower s.board b) : Completes (.next { s with board := b }) s := completes_next (orderly_board h)

theorem completes_jtagExtest (pins : List Bool) : Completes (execJtagExtest pins s) s := by
  unfold execJtagExtest
  split <;> exact completes_board s ⟨rfl, rfl, rfl, rfl⟩

theorem completes_jtagFlashProg (k off : Nat) (data : List Byte) : Completes (execJtagFlashProg k off data s) s := by
  unfold execJtagFlashProg
  split
  · split
    · obtain ⟨hvin, hvsb, hrails, htrip⟩ := samePower_putBank { s.board with jtagPins := [] } k off data
      exact completes_board s ⟨hvin, hvsb, hrails, htrip⟩
    · exact completes_same s
  · exact completes_board s ⟨rfl, rfl, rfl, rfl⟩

end

/-- Every command answers a next state, and leaves the queue and the order of power. -/
theorem exec_completes (c : Instr) (s : State) : Completes (exec c s) s := by
  cases h : reachesBoard c with
  | false => exact Plain.completes (plain_of_not_reachesBoard s h)
  | true =>
    cases c
    case startReady => exact completes_startReady s _ _ _
    case bootThermalRecheck => exact completes_bootThermalRecheck s _ _
    case h0HoldoffExpire => exact completes_h0HoldoffExpire s
    case h0HotReset => exact completes_h0HotReset s
    case miotoWatchdogExpire => exact completes_miotoWatchdogExpire s
    case sysReset => exact completes_sysReset s _
    case secUpdate => exact completes_secUpdate s _
    case flashProgramDone => exact completes_flashProgramDone s _
    case powerSample => exact completes_powerSample s _ _
    case h0PerstAssert => exact completes_h0PerstAssert s
    case h0PerstRelease => exact completes_h0PerstRelease s
    case modRstAssert => exact completes_modRstAssert s _
    case modRstRelease => exact completes_modRstRelease s
    case vin48Rise => exact completes_vin48Rise s _
    case vin48Undervolt => exact completes_vin48Undervolt s
    case vin48Overvolt => exact completes_vin48Overvolt s
    case thermalSample => exact completes_thermalSample s _ _
    case smbRead | smbWrite | smbAlertResponse | jtagBypass | jtagIdcode | jtagSample => exact completes_board s ⟨rfl, rfl, rfl, rfl⟩
    case jtagExtest => exact completes_jtagExtest s _
    case jtagFlashProg => exact completes_jtagFlashProg s _ _ _
    all_goals cases h

/-! ### Steps -/

theorem step_cons {c : Instr} {r : List Instr} {s : State} (h : s.pending = c :: r) : step s = exec c { s with pending := r } := by
  unfold step
  rw [h]

theorem step_nil {s : State} (h : s.pending = []) : step s = .next (idle s) := by
  unfold step
  rw [h]

theorem idle_off {s : State} (h : s.board.rails = false) : idle s = s := if_neg (by simp [h])

theorem idle_powered {s : State} (h : s.board.rails = true) : idle s = { s with chip := tick s.chip } := if_pos h

theorem powerInv_idle {s : State} (h : PowerInv s) : PowerInv (idle s) := by
  cases hr : s.board.rails with
  | false => rwa [idle_off hr]
  | true =>
    rw [idle_powered hr]
    exact ((undisturbed_chip s _).orderly_powered hr).power h

/-- Every step ends in a next state, and keeps power in order: the command at the front or the idle tick. -/
theorem step_completes (s : State) : ∃ t, step s = .next t ∧ (PowerInv s → PowerInv t) := by
  cases hq : s.pending with
  | nil => exact ⟨_, step_nil hq, powerInv_idle⟩
  | cons c r =>
    obtain ⟨t, ht, -, hpower⟩ := exec_completes c { s with pending := r }
    exact ⟨t, (step_cons hq).trans ht, hpower⟩

/-! ### A module that does not act -/

/-- A command that is not the board's leaves a module that does not act as it is. -/
theorem exec_still {c : Instr} {s : State} (h : acts s = false) (hc : boardRow c = false) : exec c s = .next s := by
  cases hb : reachesStore c with
  | false =>
    obtain ⟨-, he⟩ | ⟨ha, -⟩ := plain_of_not_reachesBoard s (c := c) (by simp [reachesBoard, hb, hc])
    · exact he
    · exact absurd ha (by simp [h])
  | true =>
    cases c
    case startReady | h0HoldoffExpire => exact if_neg (by simp [h])
    case sysReset | secUpdate | flashProgramDone => exact (if_neg (by simp [h])).trans (run_still h id)
    case powerSample => exact (congrArg (run · _) (if_neg (by simp [h]))).trans (run_still h _)
    case bootThermalRecheck =>
      refine if_neg fun hwait => ?_
      obtain ⟨hr, hp⟩ := Bool.and_eq_true_iff.mp hwait
      simp [acts, hr, beq_iff_eq.mp hp] at h
    all_goals cases hb

/-! ### The obligations -/

/-- Settles O1: the step's equation for a queue with a front. -/
theorem stepRunsFrontCommand : Obligations.StepRunsFrontCommand := fun _ _ _ => step_cons

/-- Settles O2: the idle tick's equation, by the rails, the phase of the start and the pause of LT. -/
theorem emptyQueueLetsTimePass : Obligations.EmptyQueueLetsTimePass := by
  intro s hq
  rw [step_nil hq]
  refine ⟨fun hr => by rw [idle_off hr], fun hr hp => ?_, fun hr hp h0 => ?_, fun hr hp h0 => ?_⟩ <;> rw [idle_powered hr, tick]
  · rw [if_pos hp]
  · rw [if_neg hp, if_pos h0]
  · rw [if_neg hp, if_neg (Nat.ne_of_gt h0)]

/-- Settles O3, by induction on the length of the run. -/
theorem everyRunCompletes : Obligations.EveryRunCompletes := by
  intro n
  induction n with
  | zero => exact fun _ => rfl
  | succ n ih =>
    intro s
    obtain ⟨t, ht, -⟩ := step_completes s
    rw [safeFor, ht]
    exact ih t

/-- Settles O4: every step keeps power in order. -/
theorem powerOrderKept : Obligations.PowerOrderKept := by
  intro s t hs hstep
  obtain ⟨u, hu, hpower⟩ := step_completes s
  obtain rfl : u = t := by rw [hu] at hstep; injection hstep
  exact hpower hs

/-- Settles O5: what a command answers has the queue it was run with, and a plain command or one of the module's own does nothing where the module does not act. -/
theorem commandsLeaveQueueAndStillModule : Obligations.CommandsLeaveQueueAndStillModule := by
  refine ⟨fun c s t he => ?queue, fun c s => exec_still⟩
  obtain ⟨u, hu, hq, -⟩ := exec_completes c s
  obtain rfl : u = t := by rw [hu] at he; injection he
  exact hq

end Sys2Proof.Proofs
end

section
/-! SUPPORT. The 48-bit counters: value and OVF after an increment. -/

namespace Sys2Proof.Proofs

open Sys2Proof.Machine Sys2Proof.Laws

/-- The high part of the counter at o (R31). -/
abbrev ctrHigh (o : Nat) : Fld := ⟨o + 4, 15, 0⟩

/-- The OVF bit of the counter at o (R31). -/
abbrev ctrOvf (o : Nat) : Fld := ⟨o + 4, 31, 31⟩

section

variable (m : Chip) (o : Nat)

theorem tb_ctrOvf : tb (csr m (o + 4)) 31 = (fget m (ctrOvf o) == 1) := rfl

theorem cget_eq : cget m o = csr m o + 2 ^ 32 * fget m (ctrHigh o) := rfl

theorem setCtr_eq (v : Nat) : setCtr m o v = fset (setCsr m o v) (ctrHigh o) (v / 2 ^ 32) := by
  rw [setCtr, fset, csr_setCsr_ne m v (show o + 4 ≠ o by omega)]

theorem cget_setCtr {v : Nat} (h : v < 2 ^ 48) : cget (setCtr m o v) o = v := by
  rw [setCtr_eq, cget_eq, csr_fset_ne _ _ _ (show o ≠ o + 4 by omega), csr_setCsr, fget_fset _ (ctrHigh o) _ (Nat.zero_le 15) (show 15 < 32 by decide)]
  dsimp only
  omega

theorem ovf_setCtr (v : Nat) : fget (setCtr m o v) (ctrOvf o) = fget m (ctrOvf o) := by
  rw [setCtr_eq, fget_fset_apart _ (ctrHigh o) (ctrOvf o) _ (Nat.zero_le 15) rfl (show 31 < 32 by decide) (.inr (show 15 < 31 by decide)),
    fget_setCsr_ne m v (show o + 4 ≠ o by omega)]

/-- Setting OVF leaves the value. -/
theorem cget_fset_ovf : cget (fset m (ctrOvf o) 1) o = cget m o := by
  rw [cget_eq, cget_eq, csr_fset_ne _ _ _ (show o ≠ o + 4 by omega),
    fget_fset_apart _ (ctrOvf o) (ctrHigh o) _ (Nat.le_refl 31) rfl (show 15 < 32 by decide) (.inl (show 15 < 31 by decide))]

theorem ovf_fset_ovf : fget (fset m (ctrOvf o) 1) (ctrOvf o) = 1 := fget_fset m (ctrOvf o) 1 (Nat.le_refl 31) (show 31 < 32 by decide)

variable {m o} {n : Nat}

theorem bump_below (h : cget m o + n < 2 ^ 48) : bump m o n = setCtr m o (cget m o + n) := if_pos h

/-- OVF rises by a write of its field. -/
theorem setCsr_putBit_ovf (m : Chip) (o : Nat) : setCsr m (o + 4) (putBit (csr m (o + 4)) 31 true) = fset m (ctrOvf o) 1 := by
  rw [putBit, if_pos rfl, fset]

theorem cget_err (e : ErrState) : cget { m with err := e } o = cget m o := rfl

theorem fget_err (e : ErrState) (f : Fld) : fget { m with err := e } f = fget m f := rfl

/-- The increment beyond the largest value leaves the counter there; OVF is set where it is not yet, which is noted. -/
theorem bump_past (h : ¬ cget m o + n < 2 ^ 48) : bump m o n =
    if fget (setCtr m o (2 ^ 48 - 1)) (ctrOvf o) = 1 then setCtr m o (2 ^ 48 - 1)
    else { fset (setCtr m o (2 ^ 48 - 1)) (ctrOvf o) 1 with err := { m.err with ovf := m.err.ovf ++ [o] } } := by
  simp only [bump, if_neg h, tb_ctrOvf, setCsr_putBit_ovf, beq_iff_eq, setCtr_err]

theorem counter_past (h : ¬ cget m o + n < 2 ^ 48) : cget (bump m o n) o = 2 ^ 48 - 1 ∧ fget (bump m o n) (ctrOvf o) = 1 := by
  have htop : cget (setCtr m o (2 ^ 48 - 1)) o = 2 ^ 48 - 1 := cget_setCtr m o (Nat.sub_lt (Nat.two_pow_pos 48) Nat.one_pos)
  rw [bump_past h]
  split
  case isTrue hset => exact ⟨htop, hset⟩
  case isFalse => rw [cget_err, fget_err, cget_fset_ovf, ovf_fset_ovf, htop]; exact ⟨rfl, rfl⟩

theorem cget_bump : cget (bump m o n) o = min (cget m o + n) (2 ^ 48 - 1) := by
  by_cases hb : cget m o + n < 2 ^ 48
  · rw [bump_below hb, cget_setCtr m o hb]
    omega
  · rw [(counter_past hb).1]
    omega

end

/-- Settles O8: below the largest value the counter is written whole, and beyond it its value is the largest and OVF is 1. -/
theorem countersSaturate : Obligations.CountersSaturate := by
  refine fun m o n _ => ⟨cget_bump, ?ovf, fun p => csr_bump_ne m n⟩
  rw [tb_ctrOvf, tb_ctrOvf]
  by_cases hb : cget m o + n < 2 ^ 48
  · rw [bump_below hb, ovf_setCtr, decide_eq_false (by omega), Bool.or_false]
  · rw [(counter_past hb).2, decide_eq_true (by omega), Bool.or_true]
    rfl

end Sys2Proof.Proofs
end

section
/-! SUPPORT. The management bus and the test access port: what each command leaves on the board. -/

namespace Sys2Proof.Proofs

open Sys2Proof.Machine Sys2Proof.Laws

section

variable {s : State}

theorem smbHears_iff {b : Board} {a : Nat} : smbHears b a = true ↔ b.vsb = true ∧ a = 0x58 + b.slot % 8 := by
  simp [smbHears, smbAddr]

/-- The state with an answer on the management bus. -/
abbrev smbAnswered (s : State) (o : Option Nat) : State := { s with board := { s.board with smbOut := o } }

theorem doSmbRead_heard {a : Nat} (h : smbHears s.board a = true) (off : Nat) (w : Bool) :
    doSmbRead a off w s = smbAnswered s (some (mgmtByte s off + if w then 256 * mgmtByte s (off + 1) else 0)) := by
  simp only [doSmbRead, h, if_true]

theorem doSmbRead_unheard {a : Nat} (h : smbHears s.board a ≠ true) (off : Nat) (w : Bool) : doSmbRead a off w s = smbAnswered s none := by
  simp only [doSmbRead, if_neg h]

theorem doSmbWrite_heard {a : Nat} (h : smbHears s.board a = true) : doSmbWrite a s = smbAnswered s (some 0) := by simp only [doSmbWrite, h, if_true]

theorem doSmbWrite_unheard {a : Nat} (h : smbHears s.board a ≠ true) : doSmbWrite a s = smbAnswered s none := by simp only [doSmbWrite, if_neg h]

theorem doSmbAlertResponse_driven (hv : s.board.vsb = true) (ha : smbAlert s = true) : doSmbAlertResponse s = smbAnswered s (some (0x58 + s.board.slot % 8)) := by
  simp [doSmbAlertResponse, hv, ha, smbAddr]

theorem doSmbAlertResponse_released (h : s.board.vsb = false ∨ smbAlert s = false) : doSmbAlertResponse s = smbAnswered s none := by
  obtain h | h := h <;> simp [doSmbAlertResponse, h]

/-! ### The test access port -/

theorem exec_jtagExtest (pins : List Bool) : exec (.jtagExtest pins) s = .next (if s.board.modRst then tapOut s s.board.tdo pins else tapBypass s pins) := rfl

theorem exec_jtagFlashProg (k off : Nat) (d : List Byte) : exec (.jtagFlashProg k off d) s =
    .next (if fget s.chip MB_GLOBAL_READY = 0 then (if s.board.vin && decide (k < 2) then { s with board := putBank { s.board with jtagPins := [] } k off d } else s)
      else tapBypass s (d.flatMap (fun x => bitList 8 x.toNat))) := rfl

end

/-- Settles O59: the address and VSB choose the bus's answer, and MOD_RST_N, READY and VIN48 what the test port does. -/
theorem boardBusAndTestPort : Obligations.BoardBusAndTestPort := by
  refine fun s => ⟨fun a off => ?read, fun a off v => ?write, fun hv ha => congrArg _ (doSmbAlertResponse_driven hv ha),
    fun h => congrArg _ (doSmbAlertResponse_released h), fun _ => rfl, rfl, fun _ => rfl, fun pins => ?extest, fun k off d => ?flash⟩
  case read =>
    exact ⟨fun h => ⟨congrArg _ (doSmbRead_heard (smbHears_iff.mpr h) off false), congrArg _ (doSmbRead_heard (smbHears_iff.mpr h) off true)⟩,
      fun h w => congrArg _ (doSmbRead_unheard (mt smbHears_iff.mp h) off w)⟩
  case write => exact ⟨fun h => congrArg _ (doSmbWrite_heard (smbHears_iff.mpr h)), fun h => congrArg _ (doSmbWrite_unheard (mt smbHears_iff.mp h))⟩
  case extest =>
    exact ⟨fun h => (exec_jtagExtest pins).trans (congrArg _ (if_pos h)), fun h => (exec_jtagExtest pins).trans (congrArg _ (if_neg (by simp [h])))⟩
  case flash =>
    have he := exec_jtagFlashProg (s := s) k off d
    refine ⟨fun hr hv hk => ?programs, fun hr h => ?nothing, fun hr => he.trans (congrArg _ (if_neg hr))⟩
    case programs => exact he.trans (congrArg _ ((if_pos hr).trans (if_pos (by simp [hv, hk]))))
    case nothing =>
      refine he.trans (congrArg _ ((if_pos hr).trans (if_neg fun hgo => ?_)))
      obtain ⟨hv, hk⟩ := Bool.and_eq_true_iff.mp hgo
      obtain h | h := h
      · simp [h] at hv
      · exact absurd (of_decide_eq_true hk) (Nat.not_lt.mpr h)

end Sys2Proof.Proofs
end

section
/-! SUPPORT. The causes of a start: what each pin and event does, and when a cause is heeded, cold or warm. -/

namespace Sys2Proof.Proofs

open Sys2Proof.Machine Sys2Proof.Laws

section

variable {s : State}

/-! ### VIN48 and MOD_RST_N -/

theorem vinBack_modRst (b : Board) (mv : Nat) : (vinBack b mv).modRst = b.modRst := by
  unfold vinBack
  split <;> rfl

theorem doVin48Rise_tripped {mv : Nat} (h : (vinBack s.board mv).trip = true) : doVin48Rise mv s = { s with board := vinBack s.board mv } := if_pos h

/-- With no trip latched the rails come, and the start begins at once or waits for MOD_RST_N. -/
theorem doVin48Rise_rails {mv : Nat} (h : (vinBack s.board mv).trip = false) : doVin48Rise mv s =
    if s.board.modRst then { s with board := { vinBack s.board mv with rails := true }, chip := Chip.off }
    else coldSteps { s with board := { vinBack s.board mv with rails := true }, chip := Chip.off } := by
  rw [doVin48Rise, if_neg (by simp [h]), ← vinBack_modRst s.board mv]

/-- A module without a start under way has nothing to settle. -/
theorem settled_off (b : Board) : settled { s with board := b, chip := Chip.off } = { s with board := b, chip := Chip.off } := if_neg (by simp [acts, Chip.off])

theorem exec_vin48Rise_stays {mv : Nat} (h : s.board.vin = true ∨ mv < 40000 ∨ 60000 < mv) : exec (.vin48Rise mv) s = .next s := by
  refine if_neg fun hgo => ?_
  simp only [Bool.and_eq_true, Bool.not_eq_true', decide_eq_true_eq] at hgo
  obtain ⟨⟨hv, hlo⟩, hhi⟩ := hgo
  obtain h | h := h
  · simp [h] at hv
  · omega

theorem doModRstAssert_short {dur : Nat} (h : s.board.rails = false ∨ dur < 10000) : doModRstAssert dur s = { s with board := { s.board with modRst := true } } := by
  refine if_neg fun hgo => ?_
  obtain ⟨hr, hd⟩ := Bool.and_eq_true_iff.mp hgo
  obtain h | h := h
  · simp [h] at hr
  · exact absurd (of_decide_eq_true hd) (Nat.not_le.mpr h)

/-- Low for 10 µs, MOD_RST_N holds the module in reset with nothing of its state. -/
theorem doModRstAssert_holds {dur : Nat} (hr : s.board.rails = true) (hd : 10000 ≤ dur) :
    (doModRstAssert dur s).chip.start.phase = 0 ∧ (doModRstAssert dur s).board.modRst = true ∧ (doModRstAssert dur s).chip.mem = [] := by
  unfold doModRstAssert
  rw [if_pos (Bool.and_eq_true_iff.mpr ⟨hr, decide_eq_true hd⟩)]
  exact ⟨rfl, rfl, rfl⟩

/-! ### A cause of a start -/

theorem startCause_unheeded {cold modRst : Bool} (reason : Nat) (h : s.board.rails = false ∨ heeds s.chip cold modRst = false) : startCause s cold modRst reason = s := by
  refine if_pos ?_
  obtain h | h := h <;> simp [h]

/-- A heeded cause is cold where it says so, where the module is role-fatal or where no start has completed; a module at READY first sends DEPART. -/
theorem startCause_heeded {cold modRst : Bool} (reason : Nat) (hr : s.board.rails = true) (hh : heeds s.chip cold modRst = true) :
    startCause s cold modRst reason =
      if cold = true ∨ s.chip.start.phase = 7 ∨ s.chip.start.completed = false then coldSteps (if s.chip.start.phase = 5 then sendDepart s reason else s)
      else warmSteps (if s.chip.start.phase = 5 then sendDepart s reason else s) := by
  rw [startCause, if_neg (by simp [hr, hh])]
  simp only [Bool.or_eq_true, beq_iff_eq, Bool.not_eq_true', or_assoc]

theorem heeds_ready {m : Chip} (h : m.start.phase = 5) (cold modRst : Bool) : heeds m cold modRst = true := by simp [heeds, h]

/-- The release of MOD_RST_N is heeded by a module held in reset, and starts it cold. -/
theorem startCause_released (hr : s.board.rails = true) (hp : s.chip.start.phase = 0) (reason : Nat) : startCause s true true reason = coldSteps s := by
  rw [startCause_heeded reason hr (by simp [heeds, hp]), if_pos (.inl rfl), if_neg (by simp [hp])]

theorem holdoffOver_of {m : Chip} {t0 : Nat} (hup : fon m HOST_STAT_H0_UP = false) (hdown : m.host.downAt = some t0)
    (ht : t0 + fget m HOST_CTRL_HOLDOFF_MS * 10 ^ 6 ≤ m.ns) : holdoffOver m = true := by
  unfold holdoffOver
  rw [hup, hdown, Option.any_some]
  exact Bool.and_eq_true_iff.mpr ⟨Bool.not_false, decide_eq_true ht⟩

end

/-- Settles O55: each pin and event brings its cause, and the phase of the start and the completed starts choose what the cause does. -/
theorem causesStartTheModule : Obligations.CausesStartTheModule := by
  refine fun s => ⟨?rise, fun mv => exec_vin48Rise_stays, fun dur h => congrArg _ (doModRstAssert_short h), ?held, ?released, ?unreleased, fun h => if_pos h,
    fun h => if_neg (by simp [h]), ?perstActing, ?perstStill, ?holdoff, ?hotReset, ?watchdog, ?cause, ?ready, fun cold modRst reason => startCause_unheeded reason⟩
  case rise =>
    intro mv hv hlo hhi
    have he := exec_vin48Rise hv hlo hhi
    refine ⟨fun ht => ?_, fun ht hm => ?_, fun ht hm => ?_⟩
    · exact he.trans (congrArg (Host.Outcome.next <| settled ·) (doVin48Rise_tripped ht))
    · rw [he, doVin48Rise_rails ht, if_pos hm, settled_off]
    · rw [he, doVin48Rise_rails ht, if_neg (by simp [hm])]
      rfl
  case held =>
    intro dur hr hd
    obtain ⟨hp, hm, hmem⟩ := doModRstAssert_holds hr hd
    exact ⟨_, rfl, hp, hm, hmem, by simp [acts, hp]⟩
  case released =>
    intro hm hr hp
    have hgo : doModRstRelease s = _ := if_pos (by simp [hm, hr, hp])
    exact congrArg (Host.Outcome.next <| settled ·) (hgo.trans (startCause_released (s := { s with board := { s.board with modRst := false, jtagPins := [] } }) hr hp 1))
  case unreleased =>
    intro h
    refine congrArg (Host.Outcome.next <| settled ·) (if_neg fun hgo => ?_)
    simp only [Bool.and_eq_true, beq_iff_eq] at hgo
    obtain ⟨⟨hm, hr⟩, hp⟩ := hgo
    obtain h | h | h := h
    · simp [h] at hm
    · simp [h] at hr
    · exact h hp
  case perstActing => exact fun ha => run_acts (s := { s with board := { s.board with h0Perst := true } }) ha doH0PerstAssert
  case perstStill => exact fun ha => run_still (s := { s with board := { s.board with h0Perst := true } }) ha doH0PerstAssert
  case holdoff => exact fun ha hup t0 hdown ht => if_pos (Bool.and_eq_true_iff.mpr ⟨ha, holdoffOver_of hup hdown ht⟩)
  case hotReset => exact fun hr hp => if_pos (by simp [hr, hp])
  case watchdog => exact fun hr hp => if_pos (by simp [hr, hp])
  case cause =>
    intro cold modRst reason hr hh hp
    have hgo := startCause_heeded reason hr hh
    simp only [if_neg hp] at hgo
    refine ⟨fun h => hgo.trans (if_pos h), fun hc h7 hcomp => hgo.trans (if_neg ?_)⟩
    simp [hc, h7, hcomp]
  case ready =>
    intro cold modRst reason hr hp
    have hgo := startCause_heeded reason hr (heeds_ready hp cold modRst)
    simp only [if_pos hp] at hgo
    refine ⟨fun h => hgo.trans (if_pos ?_), fun hc hcomp => hgo.trans (if_neg ?_)⟩
    · obtain h | h := h <;> simp [h]
    · simp [hc, hp, hcomp]

end Sys2Proof.Proofs
end

section
/-! SUPPORT. The host port: its links, the end of a flip, the bias registers and the HOST commands. -/

namespace Sys2Proof.Proofs

open Sys2Proof.Machine Sys2Proof.Laws

section

variable {m : Chip}

/-! ### The links of the host -/

/-- The status of H0 with its link up. -/
abbrev h0Shown (m : Chip) (speed width : Nat) : Chip := fset (fset (fset m HOST_STAT_H0_UP 1) HOST_STAT_H0_SPEED speed) HOST_STAT_H0_WIDTH width

theorem h0Shown_width (m : Chip) (speed : Nat) {width : Nat} (h : width ≤ 4) : fget (h0Shown m speed width) HOST_STAT_H0_WIDTH = width :=
  (fget_fset _ HOST_STAT_H0_WIDTH _ (by decide) (by decide)).trans (Nat.mod_eq_of_lt (Nat.lt_of_le_of_lt h (by decide)))

theorem h0Shown_speed (m : Chip) {speed : Nat} (width : Nat) (h : speed ≤ 6) : fget (h0Shown m speed width) HOST_STAT_H0_SPEED = speed := by
  rw [fget_fset_apart _ HOST_STAT_H0_WIDTH HOST_STAT_H0_SPEED _ (by decide) rfl (by decide) (.inr (by decide))]
  exact (fget_fset _ HOST_STAT_H0_SPEED _ (by decide) (by decide)).trans (Nat.mod_eq_of_lt (Nat.lt_of_le_of_lt h (by decide)))

theorem h0Shown_up (m : Chip) (speed width : Nat) : fget (h0Shown m speed width) HOST_STAT_H0_UP = 1 := by
  rw [fget_fset_apart _ HOST_STAT_H0_WIDTH HOST_STAT_H0_UP _ (by decide) rfl (by decide) (.inl (by decide)),
    fget_fset_apart _ HOST_STAT_H0_SPEED HOST_STAT_H0_UP _ (by decide) rfl (by decide) (.inl (by decide))]
  exact fget_fset _ HOST_STAT_H0_UP _ (by decide) (by decide)

/-- The machine after the link of H0 came up within the hold-off, before its notice. -/
abbrev h0Back (m : Chip) : Chip := modHost (fset m HOST_STAT_H0_LOST 1) (fun h => { h with downAt := none })

/-- A field of H0's status that is not H0_LOST keeps its value when the link comes back. -/
theorem fget_h0Back (m : Chip) (f : Fld) (ho : f.off = HOST_STAT_H0_LOST.off) (h32 : f.hi < 32) (h : f.hi < 2 ∨ 2 < f.lo) : fget (h0Back m) f = fget m f :=
  fget_fset_apart m HOST_STAT_H0_LOST f 1 (by decide) ho h32 h

theorem h0Back_lost (m : Chip) : fget (h0Back m) HOST_STAT_H0_LOST = 1 := fget_fset m HOST_STAT_H0_LOST 1 (by decide) (by decide)

theorem fget_notice (m : Chip) (code : Nat) (body : List Nat) (f : Fld) : fget (notice m code body) f = fget m f := rfl

theorem doH0LinkUp_first (speed width : Nat) (h : m.host.downAt = none) : doH0LinkUp speed width m = h0Shown m speed width := if_pos (by simp [h])

theorem doH0LinkUp_back (speed width : Nat) {t0 : Nat} (h : m.host.downAt = some t0) :
    doH0LinkUp speed width m = notice (h0Back (h0Shown m speed width)) 8 [csr (h0Back (h0Shown m speed width)) HOST_STAT_H0_UP.off] :=
  if_neg (by simp [h])

theorem h0Down_noFlips (h : m.host.flips = []) :
    h0Down m = putAns (putAns (fset (fset (fset m HOST_STAT_H0_UP 0) HOST_STAT_H0_SPEED 0) HOST_STAT_H0_WIDTH 0xF) 0 (some .discarded)) 1 (some .discarded) := by
  simp only [h0Down, putAns, modHost, fset_host, h, List.filter_nil, List.foldl_nil]

theorem exec_h0LinkUp (speed width : Nat) (s : State) : exec (.h0LinkUp speed width) s =
    runIf s (fun m => !s.board.h0Perst && !fon m HOST_STAT_H0_UP && decide (1 ≤ speed) && decide (speed ≤ 6) && decide (width ≤ 4)) (doH0LinkUp speed width) := rfl

theorem exec_h0LinkDown (s : State) : exec .h0LinkDown s = runIf s (fun m => fon m HOST_STAT_H0_UP) (fun m => h0Down (modHost m (fun h => { h with downAt := some m.ns }))) := rfl

/-- H1 is lost (R620). -/
def h1Gone (m : Chip) : Chip := putAns (fset (fset (fset (fset m HOST_STAT_H1_UP 0) HOST_STAT_H1_SPEED 0) HOST_STAT_H1_WIDTH 0xF) HOST_STAT_H1_LOST 1) 2 (some .discarded)

theorem exec_h1LinkLoss (s : State) : exec .h1LinkLoss s = run s h1Gone := rfl

theorem exec_h1Perst (s : State) : exec .h1Perst s = run s h1Gone := rfl

end

/-- Settles O56: the status fields of H0 are apart from each other, and the notice carries the status with H0_LOST. -/
theorem hostLinksComeAndGo : Obligations.HostLinksComeAndGo := by
  refine fun s ha => ⟨?up, fun h => ?down, fun c => h0Down_noFlips, ?loss, ?perst⟩
  case down => exact does_of_event ha (exec_h0LinkDown s) h rfl
  case loss => exact does_of_run ha (exec_h1LinkLoss s) rfl
  case perst => exact does_of_run ha (exec_h1Perst s) rfl
  case up =>
    intro speed width hperst hdown hlo hhi hwidth
    have hup : Does (.h0LinkUp speed width) s (doH0LinkUp speed width s.chip) :=
      does_of_runIf ha (exec_h0LinkUp speed width s) (by simp [hperst, hdown, hlo, hhi, hwidth])
    refine ⟨fun h => ?_, fun t0 h => ?_⟩
    · rw [doH0LinkUp_first speed width h] at hup
      exact hup
    · rw [doH0LinkUp_back speed width h] at hup
      refine ⟨_, hup, ?_, ?_, ?_, ?_, rfl, rfl⟩
      · rw [fget_notice, fget_h0Back _ HOST_STAT_H0_UP rfl (by decide) (.inl (by decide)), h0Shown_up]
      · rw [fget_notice, fget_h0Back _ HOST_STAT_H0_SPEED rfl (by decide) (.inr (by decide)), h0Shown_speed _ _ hhi]
      · rw [fget_notice, fget_h0Back _ HOST_STAT_H0_WIDTH rfl (by decide) (.inr (by decide)), h0Shown_width _ _ hwidth]
      · rw [fget_notice, h0Back_lost]

end Sys2Proof.Proofs
end

section
/-! SUPPORT. Bias flips, the read-ahead and bias registers, and the HOST commands. -/

namespace Sys2Proof.Proofs

open Sys2Proof.Machine Sys2Proof.Laws

/-! ### A recalled line -/

/-- The line of granule g that came back is no longer awaited by the flip. -/
abbrev cutLine (g line : Nat) (m : Chip) : Chip :=
  modHost m (fun h => { h with flips := h.flips.map (fun f => if f.granule = g then { f with lines := f.lines.filter (· != line) } else f) })

/-- A flip to DEVICE whose last line came back ends. -/
def flipEnds (g : Nat) (m : Chip) : Chip := if (flipOf m g true).any (fun f => f.lines.isEmpty) then flipDone m g true else m

theorem flipEnds_last {g : Nat} {m : Chip} (h : (flipOf m g true).any (fun f => f.lines.isEmpty) = true) : flipEnds g m = flipDone m g true := if_pos h

theorem flipEnds_more {g : Nat} {m : Chip} (h : (flipOf m g true).any (fun f => f.lines.isEmpty) = false) : flipEnds g m = m := if_neg (by simp [h])

theorem doBiasRecallResponse_clean {m : Chip} {g line : Nat} {dirty : Bool} (d : List Byte) (h : dirty = false ∨ windowDa m (g * 65536 + line * 128) = none) :
    doBiasRecallResponse g line dirty d m = flipEnds g (cutLine g line m) := by
  have hnone : (if dirty then windowDa m (g * 65536 + line * 128) else none) = none := by
    obtain h | h := h
    · simp [h]
    · simp [h]
  simp only [doBiasRecallResponse, hnone]
  rfl

theorem doBiasRecallResponse_dirty {m : Chip} {g line da : Nat} (d : List Byte) (h : windowDa m (g * 65536 + line * 128) = some da) :
    doBiasRecallResponse g line true d m = flipEnds g (cutLine g line (writeLine m (da / 128) (goodLine (fit 128 0#8 d)) false).2) := by
  simp only [doBiasRecallResponse, if_true, h]
  rfl

theorem exec_biasRecallResponse (g line : Nat) (dirty : Bool) (d : List Byte) (s : State) : exec (.biasRecallResponse g line dirty d) s =
    runIf s (fun m => (flipOf m g true).any (fun f => f.lines.contains line)) (doBiasRecallResponse g line dirty d) := rfl

section

variable {s : State}

/-- A line that its flip awaits does what its response says, and ends the flip when it is the last. -/
theorem does_biasRecallResponse {g line : Nat} {f : Flip} {dirty : Bool} {d : List Byte} {m : Chip} (ha : acts s = true) (hf : flipOf s.chip g true = some f) (hl : line ∈ f.lines)
    (hm : doBiasRecallResponse g line dirty d s.chip = flipEnds g m) :
    ((flipOf m g true).any (fun f => f.lines.isEmpty) = false → Does (.biasRecallResponse g line dirty d) s m) ∧
    ((flipOf m g true).any (fun f => f.lines.isEmpty) = true → Does (.biasRecallResponse g line dirty d) s (flipDone m g true)) := by
  have hgo := does_of_event ha (exec_biasRecallResponse g line dirty d s) (by simp [hf, hl]) hm
  constructor
  · intro h
    rwa [flipEnds_more h] at hgo
  · intro h
    rwa [flipEnds_last h] at hgo

/-! ### The ends of flips, dwells and read-ahead entries -/

theorem exec_biasFlipHostComplete (g : Nat) : exec (.biasFlipHostComplete g) s =
    runIf s (fun m => (flipOf m g false).isSome && !writesOpen m g) (fun m => flipDone m g false) := rfl

theorem exec_biasDwellExpire (g : Nat) : exec (.biasDwellExpire g) s =
    runIf s (fun m => m.host.waitFlips.any (fun f => f.1 == g) && dwellOver m g) waitGo := rfl

theorem exec_readaheadExpire (path line : Nat) : exec (.readaheadExpire path line) s =
    runIf s (fun m => decide (path < 2) && (tget none line (raOf m path)).any (fun e => decide (e.1 + 2048 ≤ m.ns))) (fun m => setRa m path line none) := rfl

theorem readahead_old {path line t0 : Nat} {d : List Byte} {m : Chip} (hp : path < 2) (h : tget none line (raOf m path) = some (t0, d)) (ht : t0 + 2048 ≤ m.ns) :
    (decide (path < 2) && (tget none line (raOf m path)).any (fun e => decide (e.1 + 2048 ≤ m.ns))) = true := by
  rw [h, Option.any_some]
  exact Bool.and_eq_true_iff.mpr ⟨decide_eq_true hp, decide_eq_true ht⟩

theorem exec_hostReadaheadWrite (v : Word) : exec (.hostReadaheadWrite v) s = runIf s (fun _ => !tb v.toNat 2) (writeHostCtrl v.toNat) := rfl

/-! ### The bias word -/

theorem exec_hostBiasDataAccess (write : Bool) (v : Word) : exec (.hostBiasDataAccess write v) s = run s (doHostBiasDataAccess write v.toNat) := rfl

/-- The first n granules of word k, set from the bits of v. -/
def biasBits (k v n : Nat) (m : Chip) : Chip :=
  (List.range n).foldl (fun c i => modHost c (fun h => { h with hostBias := tput false (32 * k + i) (!tb v i) h.hostBias })) m

theorem biasBits_succ (k v n : Nat) (m : Chip) :
    biasBits k v (n + 1) m = modHost (biasBits k v n m) (fun h => { h with hostBias := tput false (32 * k + n) (!tb v n) h.hostBias }) := by
  simp [biasBits, List.range_succ]

theorem hostBias_put (m : Chip) (j g : Nat) (b : Bool) :
    hostBias (modHost m (fun h => { h with hostBias := tput false j b h.hostBias })) g = if g = j then b else hostBias m g := by
  split
  next h => exact h ▸ tget_tput_same false g b m.host.hostBias
  next h => exact tget_tput_ne false b h m.host.hostBias

theorem hostBias_biasBits (k v n : Nat) (m : Chip) (g : Nat) :
    hostBias (biasBits k v n m) g = if 32 * k ≤ g ∧ g < 32 * k + n then !tb v (g - 32 * k) else hostBias m g := by
  induction n with
  | zero => exact (if_neg (by omega)).symm
  | succ n ih =>
    rw [biasBits_succ, hostBias_put, ih]
    by_cases hg : g = 32 * k + n
    · rw [if_pos hg, if_pos (by omega), hg, Nat.add_sub_cancel_left]
    · rw [if_neg hg]
      congr 1
      exact propext (by omega)

theorem hostBias_fset (m : Chip) (f : Fld) (v g : Nat) : hostBias (fset m f v) g = hostBias m g := rfl

theorem doHostBiasDataAccess_write (v : Nat) (m : Chip) : doHostBiasDataAccess true v m =
    fset (biasBits (fget m HOST_BIAS_SEL_WORD) v 32 m) HOST_BIAS_SEL_WORD (if fget m HOST_BIAS_SEL_WORD = 32767 then 0 else fget m HOST_BIAS_SEL_WORD + 1) := rfl

theorem doHostBiasDataAccess_read (v : Nat) (m : Chip) : doHostBiasDataAccess false v m =
    fset { m with out := some (maskN 32 (fun b => !hostBias m (32 * fget m HOST_BIAS_SEL_WORD + b))) } HOST_BIAS_SEL_WORD
      (if fget m HOST_BIAS_SEL_WORD = 32767 then 0 else fget m HOST_BIAS_SEL_WORD + 1) := rfl

/-! ### HOST.WINDOW -/

/-- Another segment already maps the target. -/
abbrev targetTaken (m : Chip) (k t : Nat) : Bool := (List.range 64).any (fun j => j != k && fon m (HOST_SEGk_VALID j) && fget m (HOST_SEGk_TARGET j) == t)

/-- HOST.WINDOW runs, to write w to segment k. -/
abbrev windowStart (i k w : Nat) (m : Chip) : Chip :=
  windowGo (modHost (cmdOn m i []) (fun h => { h with winCmd := some (i, k, w, csr m (HOST_SEGk_VALID k).off) }))

theorem exec_hostWindow (i : Nat) : exec (.hostWindow i) s = runCmd s i 0x0901 (doHostWindow i) := rfl

section

variable {m : Chip} {p : List Nat} (i : Nat)

theorem doHostWindow_noTarget (hon : tb (nth p 0) 31 = true) (ht : targetOk (bitsN (nth p 0) 17 0) = false) : doHostWindow i p m = fail m i 0x0901 :=
  if_pos (by simp [hon, ht])

theorem doHostWindow_taken (hon : tb (nth p 0) 31 = true) (ht : targetOk (bitsN (nth p 0) 17 0) = true)
    (hk : targetTaken m (bitsN (nth p 0) 23 18) (bitsN (nth p 0) 17 0) = true) : doHostWindow i p m = fail m i 0x0902 :=
  (if_neg (by simp [ht])).trans (if_pos (Bool.and_eq_true_iff.mpr ⟨hon, hk⟩))

theorem doHostWindow_stackOut (hon : tb (nth p 0) 31 = true) (ht : targetOk (bitsN (nth p 0) 17 0) = true)
    (hk : targetTaken m (bitsN (nth p 0) 23 18) (bitsN (nth p 0) 17 0) = false) (hlo : bitsN (nth p 0) 17 0 ≤ 0x5FF)
    (hup : stackUp m (stackOf (bitsN (nth p 0) 17 0 * 2 ^ 30)) = false) : doHostWindow i p m = fail m i 1 := by
  have htaken : ¬(tb (nth p 0) 31 && targetTaken m (bitsN (nth p 0) 23 18) (bitsN (nth p 0) 17 0)) = true := by simp only [hk, Bool.and_false, Bool.false_eq_true, not_false_eq_true]
  refine (if_neg (by simp [ht])).trans ((if_neg htaken).trans (if_pos ?_))
  rw [hon, hup, decide_eq_true hlo]
  rfl

theorem doHostWindow_off (hon : tb (nth p 0) 31 = false) (hw : m.host.winCmd = none) : doHostWindow i p m = windowStart i (bitsN (nth p 0) 23 18) (bitsN (nth p 0) 17 0) m := by
  simp only [doHostWindow, hon, hw, Bool.false_and, Bool.false_eq_true, if_false, Option.isSome_none, b2n, Nat.zero_mul, Nat.zero_add]

theorem doHostWindow_on (hon : tb (nth p 0) 31 = true) (ht : targetOk (bitsN (nth p 0) 17 0) = true)
    (hk : targetTaken m (bitsN (nth p 0) 23 18) (bitsN (nth p 0) 17 0) = false) (hup : 0x5FF < bitsN (nth p 0) 17 0 ∨ stackUp m (stackOf (bitsN (nth p 0) 17 0 * 2 ^ 30)) = true)
    (hw : m.host.winCmd = none) : doHostWindow i p m = windowStart i (bitsN (nth p 0) 23 18) (2 ^ 31 + bitsN (nth p 0) 17 0) m := by
  have hserves : (decide (bitsN (nth p 0) 17 0 ≤ 0x5FF) && !stackUp m (stackOf (bitsN (nth p 0) 17 0 * 2 ^ 30))) = false := by
    obtain h | h := hup
    · rw [decide_eq_false (Nat.not_le.mpr h), Bool.false_and]
    · rw [h, Bool.not_true, Bool.and_false]
  simp only [doHostWindow, hon, ht, hk, hserves, hw, Bool.true_and, Bool.not_true, Bool.false_eq_true, if_false, Option.isSome_none, b2n, if_true, Nat.one_mul]

/-! ### HOST.BIAS and HOST.POLICY -/

theorem exec_hostBias : exec (.hostBias i) s = runCmd s i 0x0902 (doHostBias i) := rfl

theorem exec_hostPolicy : exec (.hostPolicy i) s = runCmd s i 0x0903 (doHostPolicy i) := rfl

/-- The granules of the run that have not the bias asked for, as offsets into the run. -/
abbrev biasTodo (p : List Nat) (m : Chip) : List Nat := (List.range (nth p 1)).filter (fun k => hostBias m (bitsN (nth p 0) 19 0 + k) == tb (nth p 0) 31)

/-- Those granules set. -/
abbrev biasSet (p : List Nat) (m : Chip) : Chip := (biasTodo p m).foldl (fun c k => setBias c (bitsN (nth p 0) 19 0 + k) (tb (nth p 0) 31)) m

theorem doHostBias_set (h : tb (nth p 0) 30 = true) :
    doHostBias i p m = respond (flipsGo (biasSet p m)) i 0 [(biasTodo p m).length, elapsed (biasSet p m) (cmdT0 (biasSet p m) i)] := if_pos h

theorem doHostBias_flip (h : tb (nth p 0) 30 = false) (hb : m.host.biasCmd = none) :
    doHostBias i p m = biasGo (modHost (cmdOn m i [bitsN (nth p 0) 19 0, 0]) (fun h => { h with biasCmd := some (i, bitsN (nth p 0) 19 0, bitsN (nth p 0) 19 0 + nth p 1, tb (nth p 0) 31) })) := by
  simp only [doHostBias, h, hb, Bool.false_eq_true, if_false, Option.isSome_none]

end

end

/-- Settles O52: a recalled line, an end of a flip, a dwell or an entry goes through the row's condition, and each command through its checks in order. -/
theorem biasFlipsAndHostCommands : Obligations.BiasFlipsAndHostCommands := by
  refine fun s ha i => ⟨?recalled, ?toHost, ?dwell, ?entry, ?ctrl, ?empties, ?read, ?write, ?window, ?bias, ?policy⟩
  case recalled =>
    intro g line f d dirty hf hl
    refine ⟨fun h => does_biasRecallResponse ha hf hl (doBiasRecallResponse_clean d h), fun da h => ?_⟩
    exact does_biasRecallResponse ha hf hl (doBiasRecallResponse_dirty d h)
  case toHost => exact fun g hf hw => does_of_event ha (exec_biasFlipHostComplete g) (by simp [hf, hw]) rfl
  case dwell =>
    intro g d hw hd
    have hgo : (s.chip.host.waitFlips.any (fun f => f.1 == g) && dwellOver s.chip g) = true :=
      Bool.and_eq_true_iff.mpr ⟨List.any_eq_true.mpr ⟨_, hw, beq_self_eq_true g⟩, hd⟩
    exact does_of_event ha (exec_biasDwellExpire g) hgo rfl
  case entry => exact fun path line t0 d hp h ht => does_of_event ha (exec_readaheadExpire path line) (readahead_old hp h ht) rfl
  case ctrl => exact fun v h => does_of_event ha (exec_hostReadaheadWrite v) (by simp [h]) rfl
  case empties => exact fun c v h => if_neg (by simp [h])
  case read => exact fun v => does_of_run ha (exec_hostBiasDataAccess false v) (doHostBiasDataAccess_read v.toNat s.chip)
  case write =>
    intro v
    refine ⟨_, does_of_run ha (exec_hostBiasDataAccess true v) (doHostBiasDataAccess_write v.toNat s.chip), fun b hb => ?_, fun g hg => ?_⟩
    · rw [hostBias_fset, hostBias_biasBits, if_pos (by omega), Nat.add_sub_cancel_left]
    · rw [hostBias_fset, hostBias_biasBits, if_neg (by omega)]
  case window =>
    intro hc
    have he := exec_hostWindow (s := s) i
    refine ⟨?_, ?_, ?_, ?_, ?_⟩
    · exact fun hon ht => does_of_command ha he hc (doHostWindow_noTarget i hon ht)
    · exact fun hon ht hk => does_of_command ha he hc (doHostWindow_taken i hon ht hk)
    · exact fun hon ht hk hlo hup => does_of_command ha he hc (doHostWindow_stackOut i hon ht hk hlo hup)
    · exact fun hon hw => does_of_command ha he hc (doHostWindow_off i hon hw)
    · exact fun hon ht hk hup hw => does_of_command ha he hc (doHostWindow_on i hon ht hk hup hw)
  case bias =>
    intro hc
    have he := exec_hostBias (s := s) i
    exact ⟨fun h => does_of_command ha he hc (doHostBias_set i h), fun h hb => does_of_command ha he hc (doHostBias_flip i h hb)⟩
  case policy => exact fun hc => does_of_command ha (exec_hostPolicy i) hc rfl

end Sys2Proof.Proofs
end

section
/-! SUPPORT. The mailboxes: GO, the checks of a command in their order, a waiting command, and a vector's gap. -/

namespace Sys2Proof.Proofs

open Sys2Proof.Machine Sys2Proof.Laws

section

variable {m : Chip} {i : Nat}

/-! ### GO -/

/-- A write of GO sets VECTOR where it is legal. -/
abbrev vectorSet (m : Chip) (i v : Nat) : Chip := if bitsN v 6 0 ≤ 63 ∨ bitsN v 6 0 = 0x7F then fset m (MBm_CTRL_VECTOR i) (bitsN v 6 0) else m

theorem doMailboxGo_overrun {v : Nat} (h : fget (vectorSet m i v) (MBm_STAT_STATE i) = 1 ∨ fon (vectorSet m i v) MB_GLOBAL_READY = false) :
    doMailboxGo i v m = bump (fset (vectorSet m i v) (MBm_STAT_OVERRUN i) 1) MB_OVERRUN_CTR 1 :=
  if_pos (h.imp_right fun h => by rw [h, Bool.not_false])

theorem doMailboxGo_issues {v : Nat} (hidle : fget (vectorSet m i v) (MBm_STAT_STATE i) ≠ 1) (hready : fon (vectorSet m i v) MB_GLOBAL_READY = true) :
    doMailboxGo i v m = issue (fset (vectorSet m i v) (MBm_STAT_STATE i) 1) i := by
  refine if_neg fun h => ?_
  obtain h | h := h
  · exact hidle h
  · rw [hready] at h
    exact absurd h (by decide)

/-! ### The checks of a command -/

/-- The code of the request in mailbox i. -/
abbrev reqCode (m : Chip) (i : Nat) : Nat := bitsN (reqWord m i 0) 31 16

/-- Its payload, as long as its header says. -/
abbrev reqBody (m : Chip) (i : Nat) : List Nat := reqPay m i (bitsN (reqWord m i 0) 8 0)

/-- The commands it conflicts with. -/
abbrev reqBefore (m : Chip) (i : Nat) : List MbRun := conflicts m i m.mbOrder (unitsOf (reqCode m i) (reqBody m i))

/-- A command before it is of the same function, and only this one is in its expert form. -/
abbrev expertMeets (m : Chip) (i : Nat) : Bool :=
  (reqBefore m i).any (fun r => functionOf r.code == functionOf (reqCode m i) && !r.expert && expertForm (reqCode m i) (reqBody m i))

/-- The command issued in a phase: 1 to run, 0 to wait. -/
abbrev issued (m : Chip) (i phase : Nat) : Chip :=
  { m with mbOrder := m.mbOrder + 1, mb := setAt m.mb i (some ⟨reqCode m i, reqBody m i, expertForm (reqCode m i) (reqBody m i), unitsOf (reqCode m i) (reqBody m i), m.mbOrder, phase, m.ns, []⟩) }

theorem goChecks_noCode {code hdr : Nat} {pay : List Nat} (h : catLen code pay = none) : goChecks m code hdr pay = some (3, 0) := by
  simp only [goChecks, h]

theorem goChecks_length {code hdr n : Nat} {pay : List Nat} (h : catLen code pay = some n) (hn : bitsN hdr 8 0 ≠ n) : goChecks m code hdr pay = some (4, 0) := by
  simp only [goChecks, h, if_pos hn]

theorem goChecks_fields {code hdr : Nat} {pay : List Nat} (h : catLen code pay = some (bitsN hdr 8 0)) (hf : fieldsOk m code hdr pay = false) (h3 : code ≠ 0x0203)
    (h4 : code ≠ 0x0204) : goChecks m code hdr pay = some (2, 0) := by
  simp only [goChecks, h, ne_eq, not_true_eq_false, if_false, hf, Bool.not_false, if_true, h3, h4, or_self]

theorem issue_rejected {st detail : Nat} (h : goChecks m (reqCode m i) (reqWord m i 0) (reqBody m i) = some (st, detail)) : issue m i = respondD m i st detail [] := by
  simp only [issue, h]

theorem issue_noCode (h : catLen (reqCode m i) (reqBody m i) = none) : issue m i = respondD m i 3 0 [] := issue_rejected (goChecks_noCode h)

theorem issue_length {n : Nat} (h : catLen (reqCode m i) (reqBody m i) = some n) (hn : bitsN (reqWord m i 0) 8 0 ≠ n) : issue m i = respondD m i 4 0 [] :=
  issue_rejected (goChecks_length h hn)

theorem issue_fields (h : catLen (reqCode m i) (reqBody m i) = some (bitsN (reqWord m i 0) 8 0)) (hf : fieldsOk m (reqCode m i) (reqWord m i 0) (reqBody m i) = false)
    (h3 : reqCode m i ≠ 0x0203) (h4 : reqCode m i ≠ 0x0204) : issue m i = respondD m i 2 0 [] :=
  issue_rejected (goChecks_fields h hf h3 h4)

/-- A command that passes its checks: BUSY, NOT_READY, or issued, to run when nothing stands before it. -/
theorem issue_passed (h : goChecks m (reqCode m i) (reqWord m i 0) (reqBody m i) = none) : issue m i =
    if expertMeets m i = true then fail m i 1 else if chapterBusy (reqCode m i) (reqBefore m i) = true then fail m i 1
    else if (reqBefore m i).isEmpty = true ∧ notReady m (reqCode m i) = true then fail m i 5 else issued m i (if (reqBefore m i).isEmpty then 1 else 0) := by
  simp only [issue, h]
  rfl

section

variable (h : goChecks m (reqCode m i) (reqWord m i 0) (reqBody m i) = none)

include h

theorem issue_busy (hb : expertMeets m i = true ∨ chapterBusy (reqCode m i) (reqBefore m i) = true) : issue m i = fail m i 1 := by
  rw [issue_passed h]
  split
  next => rfl
  next hne => exact if_pos (hb.resolve_left hne)

theorem issue_alone (he : reqBefore m i = []) : issue m i = if notReady m (reqCode m i) = true then fail m i 5 else issued m i 1 := by
  rw [issue_passed h]
  simp only [expertMeets, he, List.any_nil, Bool.false_eq_true, if_false, chapterBusy, Bool.and_false, List.isEmpty_nil, true_and, if_true]

theorem issue_waits (he : reqBefore m i ≠ []) (hx : expertMeets m i = false) (hb : chapterBusy (reqCode m i) (reqBefore m i) = false) : issue m i = issued m i 0 := by
  have hne : (reqBefore m i).isEmpty = false := by simpa using he
  rw [issue_passed h, if_neg (by simp only [hx, Bool.false_eq_true, not_false_eq_true]), if_neg (by simp only [hb, Bool.false_eq_true, not_false_eq_true])]
  simp only [hne, Bool.false_eq_true, false_and, if_false]

end

/-! ### Waiting commands and gaps -/

theorem mayResume_of {r : MbRun} (hr : mbRun m i = some r) (hp : r.phase = 0) (hc : conflicts m i r.order r.units = []) : mayResume m i = true := by
  simp [mayResume, hr, hp, hc]

theorem doCommandWaitResume_of {r : MbRun} (hr : mbRun m i = some r) :
    doCommandWaitResume i m = if notReady m r.code then fail m i 5 else setMb m i (some { r with phase := 1 }) := by
  simp only [doCommandWaitResume, hr]

theorem exec_mailboxGo (v : Word) (s : State) : exec (.mailboxGo i v) s = runIf s (fun _ => decide (i < 4) && tb v.toNat 31) (doMailboxGo i v.toNat) := rfl

theorem exec_commandWaitResume (s : State) : exec (.commandWaitResume i) s = runIf s (fun m => mayResume m i) (doCommandWaitResume i) := rfl

theorem exec_msixGapExpire (v : Nat) (s : State) : exec (.msixGapExpire v) s = runIf s (fun m => gapOver m v) (doMsixGapExpire v) := rfl

end

/-- Settles O53: the checks of a command follow their order, and what stands before it decides between BUSY, NOT_READY, running and waiting. -/
theorem mailboxIssuesCommands : Obligations.MailboxIssuesCommands := by
  refine fun s ha => ⟨?go, ?checks, ?resume, fun v h => does_of_event ha (exec_msixGapExpire v s) h rfl⟩
  case go =>
    intro i v hi hv
    have hgo : (decide (i < 4) && tb v.toNat 31) = true := Bool.and_eq_true_iff.mpr ⟨decide_eq_true hi, hv⟩
    exact ⟨fun h => does_of_event ha (exec_mailboxGo v s) hgo (doMailboxGo_overrun h),
      fun hidle hready => does_of_event ha (exec_mailboxGo v s) hgo (doMailboxGo_issues hidle hready)⟩
  case checks =>
    intro c i
    refine ⟨issue_noCode, fun n => issue_length, issue_fields, fun h => ⟨issue_busy h, fun he hn => ?_, fun he hn => ?_, issue_waits h⟩⟩
    · exact (issue_alone h he).trans (if_pos hn)
    · exact (issue_alone h he).trans (if_neg (ne_true_of_eq_false hn))
  case resume =>
    intro i r hr hp hc
    have hgo := does_of_event ha (exec_commandWaitResume s) (mayResume_of hr hp hc) (doCommandWaitResume_of hr)
    refine ⟨fun hn => ?_, fun hn => ?_⟩
    · rwa [if_pos hn] at hgo
    · rwa [if_neg (ne_true_of_eq_false hn)] at hgo

end Sys2Proof.Proofs
end

section
/-! SUPPORT. The rings: doorbells, the entries read, and SYS.RING. -/

namespace Sys2Proof.Proofs

open Sys2Proof.Machine Sys2Proof.Laws

/-! ### A response leaves the rings -/

@[simp] theorem msix_rings (m : Chip) (v : Nat) : (msix m v).rings = m.rings := by
  unfold msix
  dsimp only
  repeat' split
  all_goals rfl

@[simp] theorem putResp_rings (m : Chip) (i w : Nat) (ws : List Nat) : (putResp m i w ws).rings = m.rings := by
  unfold putResp
  induction ws generalizing m w with
  | nil => rfl
  | cons v ws ih => exact (ih _ _).trans (setCsr_rings m _ v)

@[simp] theorem respond_rings (m : Chip) (i st : Nat) (pay : List Nat) : (respond m i st pay).rings = m.rings := by
  unfold respond respondD
  dsimp only
  rw [msix_rings]
  split <;> simp

section

variable {s : State} {m : Chip} {n : Nat} {r : Ring}

/-! ### Doorbells -/

theorem exec_hostDoorbellWrite (n : Nat) (v : Word) : exec (.hostDoorbellWrite n v) s = runIf s (fun m => decide (n < 64) && !isEvent m n) (doHostDoorbellWrite n v.toNat) := rfl

theorem exec_eventRingDoorbell (n : Nat) (v : Word) : exec (.eventRingDoorbell n v) s = runIf s (fun m => decide (n < 64) && isEvent m n) (doEventRingDoorbell n v.toNat) := rfl

theorem isEvent_none (h : ring m n = none) : isEvent m n = false := by simp [isEvent, h]

theorem isEvent_submission (h : ringKind m n ≤ 5) : isEvent m n = false := by simp [isEvent, Nat.not_le.mpr (Nat.lt_succ_of_le h)]

theorem isEvent_event (h : ring m n = some r) (hk : 6 ≤ ringKind m n) : isEvent m n = true := by simp [isEvent, h, hk]

theorem doHostDoorbellWrite_noRing (d : Nat) (h : ring m n = none) : doHostDoorbellWrite n d m = bump m HOST_DB_BAD_CTR 1 := by
  simp only [doHostDoorbellWrite, h]

/-- How far a held target lies ahead of L; 0 with none held. -/
abbrev heldAhead (m : Chip) (n : Nat) (r : Ring) : Nat := (r.target.map (fun t => dist32 t (ringL m n))).getD 0

theorem heldAhead_le {x : Nat} (h : ∀ t, r.target = some t → dist32 t (ringL m n) ≤ x) : heldAhead m n r ≤ x := by
  unfold heldAhead
  cases ht : r.target with
  | none =>
    rw [Option.map_none, Option.getD_none]
    exact Nat.zero_le x
  | some t =>
    rw [Option.map_some, Option.getD_some]
    exact h t ht

theorem heldAhead_some {t : Nat} (h : r.target = some t) : heldAhead m n r = dist32 t (ringL m n) := by rw [heldAhead, h, Option.map_some, Option.getD_some]

theorem doHostDoorbellWrite_far {d : Nat} (h : ring m n = some r) (hx : dist32 d (ringL m n) = 0 ∨ ringEnts m n < dist32 d (ringL m n)) :
    doHostDoorbellWrite n d m = bump m HOST_DB_BAD_CTR 1 := by
  simp only [doHostDoorbellWrite, h]
  exact if_neg (by omega)

/-- A doorbell within ENTRIES of L counts when it is not behind the target held. -/
theorem doHostDoorbellWrite_near {d : Nat} (h : ring m n = some r) (hlo : 1 ≤ dist32 d (ringL m n)) (hhi : dist32 d (ringL m n) ≤ ringEnts m n) : doHostDoorbellWrite n d m =
    if heldAhead m n r ≤ dist32 d (ringL m n) then
      setRing m n (some { r with target := some d, waiting := if r.stopped then false else r.waiting, stopped := false, badSeen := false })
    else m := by
  simp only [doHostDoorbellWrite, h]
  exact if_pos ⟨hlo, hhi⟩

theorem doEventRingDoorbell_of (d : Nat) (h : ring m n = some r) : doEventRingDoorbell n d m =
    if 1 ≤ dist32 d (ringL m n) ∧ dist32 d (ringL m n) ≤ dist32 (r.next + 2 ^ 32 - 1) (ringL m n) then fset m (MB_RINGn_L_L n) d else bump m HOST_DB_BAD_CTR 1 := by
  simp only [doEventRingDoorbell, h]

/-! ### Entries -/

theorem exec_ringEntryReread (n : Nat) : exec (.ringEntryReread n) s = runIf s (fun m => ringStalled m n) (doRingEntryReread n) := rfl

theorem exec_doorbellAhead (n : Nat) : exec (.doorbellAhead n) s = runIf s (fun m => ringLate m n) (doDoorbellAhead n) := rfl

theorem ringLate_of (h : ring m n = some r) (hw : r.waiting = true) (hs : r.stopped = false) (ht : r.t0 + 64000 ≤ m.ns) : ringLate m n = true := by
  simp [ringLate, h, hw, hs, ht]

theorem doRingEntryReread_launch (hk : ringKind m n = 1) (hw : launchWants m n = true) : doRingEntryReread n m = doLaunchAccept n m :=
  (if_pos hk).trans (if_pos hw)

theorem doRingEntryReread_consist (hk : ringKind m n = 2 ∨ ringKind m n = 3) (hw : conWants m n = true) : doRingEntryReread n m = doConDescriptorAccept n m :=
  (if_neg (by omega)).trans ((if_pos (by omega)).trans (if_pos hw))

theorem doRingEntryReread_points (hk : ringKind m n = 4 ∨ ringKind m n = 5) (ho : ptsOpen m (ringKind m n - 4) = true) (hw : ringWants m n = true) :
    doRingEntryReread n m = ringRead m n (fun _ => true) (ptsTake n) :=
  (if_neg (by omega)).trans ((if_neg (by omega)).trans (if_pos (Bool.and_eq_true_iff.mpr ⟨ho, hw⟩)))

variable {agree : List Nat → Bool} {take : Nat → List Nat → Chip → Chip}

theorem ringRead_entry {ws : List Nat} (h : ring m n = some r) (hd : deviceReady m (r.base + (ringSeq m n % ringEnts m n) * slotBytes m n) (slotBytes m n) = true)
    (hp : (ringPeek m n).1 = some ws) (ha : agree ws = true) : ringRead m n agree take = take (ringSeq m n) ws (ringAccept (ringPeek m n).2.2 n) := by
  simp only [ringRead, h, hd, Bool.not_true, Bool.false_eq_true, if_false, hp, ha, if_true]

theorem ringRead_stale (h : ring m n = some r) (hd : deviceReady m (r.base + (ringSeq m n % ringEnts m n) * slotBytes m n) (slotBytes m n) = true)
    (hp : (ringPeek m n).1 = none) : ringRead m n agree take = ringStale (ringPeek m n).2.2 n (ringPeek m n).2.1 := by
  simp only [ringRead, h, hd, Bool.not_true, Bool.false_eq_true, if_false, hp]

end

/-! ### SYS.RING -/

section

variable {s : State} {m : Chip} {p : List Nat} (i : Nat)

theorem exec_sysRing : exec (.sysRing i) s = runCmd s i 0x0104 (doSysRing i) := rfl

/-- The ring that the command names. -/
abbrev askedRing (p : List Nat) : Nat := bitsN (nth p 0) 5 0

/-- The KIND asked for. -/
abbrev askedKind (p : List Nat) : Nat := bitsN (nth p 0) 27 24

/-- The bytes of the entries asked for. -/
abbrev askedBytes (p : List Nat) : Nat := nth p 1 * (if askedKind p = 1 then 128 else 64)

/-- Where the entries go. -/
abbrev askedBase (p : List Nat) : Nat := nth p 2 + 2 ^ 32 * nth p 3

/-- Where the completions go. -/
abbrev askedCompl (p : List Nat) : Nat := nth p 4 + 2 ^ 32 * nth p 5

/-- The areas asked for. -/
abbrev askedAreas (p : List Nat) : List (Nat × Nat) :=
  if askedKind p ≤ 5 then [(askedBase p, askedBytes p), (askedCompl p, askedBytes p + 64)] else [(askedBase p, askedBytes p)]

/-- An area asked for meets one in use, or the two meet. -/
abbrev askedClash (m : Chip) (p : List Nat) : Bool :=
  (askedAreas p).any (fun a => ((List.range 64).flatMap (ringAreas m)).any (fun b => rangesMeet a.1 a.2 b.1 b.2)) ||
    (decide (askedKind p ≤ 5) && rangesMeet (askedBase p) (askedBytes p) (askedCompl p) (askedBytes p + 64))

/-- The registers of the ring made. -/
abbrev ringMade (m : Chip) (p : List Nat) : Chip :=
  setCsr (setCsr m (MB_RINGn_CFG_KIND (askedRing p)).off (askedKind p * 2 ^ 28 + bitN (nth p 0) 23 * 2 ^ 27 + bitsN (nth p 0) 22 21 * 2 ^ 25 + bitsN (nth p 0) 20 14 * 2 ^ 18 + nth p 1))
    (MB_RINGn_L_L (askedRing p)).off ((nth p 6 + 2 ^ 32 - 1) % 2 ^ 32)

theorem doSysRing_remove (h : bitsN (nth p 0) 31 28 = 1) : doSysRing i p m =
    match ring m (askedRing p) with
    | none => respond m i 0 [0]
    | some r =>
      if r.live ≠ 0 then fail m i 1
      else respond (setCsr (setCsr (setRing m (askedRing p) none) (MB_RINGn_CFG_KIND (askedRing p)).off (regReset (MB_RINGn_CFG_KIND (askedRing p)).off))
        (MB_RINGn_L_L (askedRing p)).off (regReset (MB_RINGn_L_L (askedRing p)).off)) i 0 [0] := if_pos h

/-- A ring without live entries goes. -/
theorem ring_doSysRing_remove {r : Ring} (h : bitsN (nth p 0) 31 28 = 1) (hr : ring m (askedRing p) = some r) (hl : r.live = 0) :
    ring (doSysRing i p m) (askedRing p) = none := by
  rw [doSysRing_remove i h, hr]
  simp only [hl, ne_eq, not_true_eq_false, if_false]
  unfold ring
  rw [respond_rings, setCsr_rings, setCsr_rings]
  exact tget_tput_same none _ none _

theorem doSysRing_taken (h : bitsN (nth p 0) 31 28 ≠ 1) (ht : (ring m (askedRing p)).isSome = true ∨ (6 ≤ askedKind p ∧ (eventRing m (askedKind p)).isSome = true)) :
    doSysRing i p m = fail m i 0x0102 := (if_neg h).trans (if_pos ht)

/-- The ring may be made: there is none of the number, nor another event ring of the kind. -/
theorem ring_free (hr : ring m (askedRing p) = none) (hk : askedKind p < 6 ∨ eventRing m (askedKind p) = none) :
    ¬ ((ring m (askedRing p)).isSome = true ∨ (6 ≤ askedKind p ∧ (eventRing m (askedKind p)).isSome = true)) := by
  rw [hr]
  rintro (h | ⟨h6, h⟩)
  · exact absurd h (by decide)
  · obtain hk | hk := hk
    · omega
    · rw [hk] at h
      exact absurd h (by decide)

theorem doSysRing_make (h : bitsN (nth p 0) 31 28 ≠ 1) (hr : ring m (askedRing p) = none) (hk : askedKind p < 6 ∨ eventRing m (askedKind p) = none) : doSysRing i p m =
    if (!(askedAreas p).all (fun a => areaOk m a.1 a.2) || askedClash m p) = true then fail m i 0x0101
    else respond (fatalPost (setRing (ringMade m p) (askedRing p) (some { base := askedBase p, compl := askedCompl p, next := nth p 6 }))) i 0
      [if askedKind p ≤ 5 then askedBytes p + 64 else 0] := by
  refine (if_neg h).trans ((if_neg (ring_free hr hk)).trans ?_)
  simp only [askedClash, ← Bool.or_assoc]

theorem askedAreas_bad (h : (∃ a ∈ askedAreas p, areaOk m a.1 a.2 = false) ∨ askedClash m p = true) :
    (!(askedAreas p).all (fun a => areaOk m a.1 a.2) || askedClash m p) = true := by
  obtain ⟨a, ha, hbad⟩ | h := h
  · have hall : (askedAreas p).all (fun a => areaOk m a.1 a.2) = false := List.all_eq_false.mpr ⟨a, ha, by simp [hbad]⟩
    rw [hall, Bool.not_false, Bool.true_or]
  · rw [h, Bool.or_true]

theorem askedAreas_good (h : ∀ a ∈ askedAreas p, areaOk m a.1 a.2 = true) (hc : askedClash m p = false) :
    ¬ (!(askedAreas p).all (fun a => areaOk m a.1 a.2) || askedClash m p) = true := by
  rw [List.all_eq_true.mpr h, hc]
  decide

end

/-- Settles O54: a doorbell is judged by how far it lies ahead of L, an entry by what its read finds, and SYS.RING by the ring and the areas it names. -/
theorem ringsAndDoorbells : Obligations.RingsAndDoorbells := by
  refine fun s ha => ⟨?noRing, ?submission, ?event, ?reread, ?late, ?read, ?sysRing⟩
  case noRing =>
    intro n v hn hr
    have he := isEvent_none hr
    refine ⟨does_of_event ha (exec_hostDoorbellWrite n v) (by simp [hn, he]) (doHostDoorbellWrite_noRing v.toNat hr), does_of_run ha (exec_eventRingDoorbell n v) (if_neg ?_)⟩
    simp [he]
  case submission =>
    intro n v r hn hr hk
    have hgo : (decide (n < 64) && !isEvent s.chip n) = true := by simp [hn, isEvent_submission hk]
    have he := exec_hostDoorbellWrite (s := s) n v
    refine ⟨fun hx => ?_, fun hlo hhi ht => ?_, fun hlo hhi t ht hb => ?_⟩
    · exact does_of_event ha he hgo (doHostDoorbellWrite_far hr hx)
    · exact does_of_event ha he hgo ((doHostDoorbellWrite_near hr hlo hhi).trans (if_pos (heldAhead_le ht)))
    · exact does_of_event ha he hgo ((doHostDoorbellWrite_near hr hlo hhi).trans (if_neg (by rw [heldAhead_some ht]; exact Nat.not_le.mpr hb)))
  case event =>
    intro n v r hn hr hk
    have hgo : (decide (n < 64) && isEvent s.chip n) = true := by simp [hn, isEvent_event hr hk]
    have he := exec_eventRingDoorbell (s := s) n v
    refine ⟨fun hlo hhi => ?_, fun h => ?_⟩
    · exact does_of_event ha he hgo ((doEventRingDoorbell_of v.toNat hr).trans (if_pos ⟨hlo, hhi⟩))
    · refine does_of_event ha he hgo ((doEventRingDoorbell_of v.toNat hr).trans (if_neg fun hin => ?_))
      obtain ⟨hlo, hhi⟩ := hin
      obtain h | h := h
      · exact absurd h (Nat.ne_of_gt hlo)
      · exact absurd hhi (Nat.not_le.mpr h)
  case reread =>
    intro n hst
    have he := exec_ringEntryReread (s := s) n
    exact ⟨fun hk hw => does_of_event ha he hst (doRingEntryReread_launch hk hw), fun hk hw => does_of_event ha he hst (doRingEntryReread_consist hk hw),
      fun hk ho hw => does_of_event ha he hst (doRingEntryReread_points hk ho hw)⟩
  case late => exact fun n r hr hw hs ht => does_of_event ha (exec_doorbellAhead n) (ringLate_of hr hw hs ht) rfl
  case read => exact fun c n r agree take hr hd => ⟨fun ws => ringRead_entry hr hd, ringRead_stale hr hd⟩
  case sysRing =>
    intro i hc
    have he := exec_sysRing (s := s) i
    refine ⟨fun h hr => ?_, fun h r hr hl => ?_, fun h r hr hl => ?_, fun h ht => ?_, fun h hr hk hbad => ?_, fun h hr hk hall hclash => ?_⟩
    · exact does_of_command ha he hc (by rw [doSysRing_remove i h, hr])
    · refine does_of_command ha he hc ?_
      rw [doSysRing_remove i h, hr]
      exact if_pos hl
    · refine ⟨_, does_of_command ha he hc rfl, ?_⟩
      exact ring_doSysRing_remove i h hr hl
    · exact does_of_command ha he hc (doSysRing_taken i h ht)
    · exact does_of_command ha he hc ((doSysRing_make i h hr hk).trans (if_pos (askedAreas_bad hbad)))
    · exact does_of_command ha he hc ((doSysRing_make i h hr hk).trans (if_neg (askedAreas_good hall hclash)))

end Sys2Proof.Proofs
end

section
/-! SUPPORT. The end of a start, the SYS commands, and secure boot. -/

namespace Sys2Proof.Proofs

open Sys2Proof.Machine Sys2Proof.Laws

/-! ### START_READY -/

/-- The module has completed a start and is READY. -/
def Started (m : Chip) : Prop := m.start.phase = 5 ∧ m.start.completed = true

theorem Started.kept {a b : Chip} (h : Started a) (k : Kept a b) : Started b :=
  ⟨(congrArg (·.phase) k.start).trans h.1, (congrArg (·.completed) k.start).trans h.2⟩

theorem Started.foldl {α : Type} {f : Chip → α → Chip} (hf : ∀ c x, Started c → Started (f c x)) (l : List α) {m : Chip} (h : Started m) : Started (l.foldl f m) := by
  induction l generalizing m with
  | nil => exact h
  | cons x l ih => exact ih (hf m x h)

theorem kept_putCompletion {m : Chip} (h : m.start.phase ≠ 6) (n seq : Nat) (ws : List Nat) : Kept m (putCompletion m n seq ws) := by
  unfold putCompletion
  split
  · exact Kept.refl m
  · rw [if_neg h]
    exact ((kept_mioStore _ _ _ _).trans (kept_host _ _)).trans (kept_msix _ _)

theorem kept_ringDone {m : Chip} (h : m.start.phase ≠ 6) (n : Nat) : Kept m (ringDone m n) := by
  rw [ringDone, if_neg h, modRing]
  split
  · exact kept_setRing _ _ _
  · exact Kept.refl m

theorem started_payOwed {m : Chip} (h : Started m) : Started (payOwed m) := by
  refine Started.foldl (fun c o hc => ?_) _ h
  have h6 : c.start.phase ≠ 6 := by
    rw [hc.1]
    decide
  split
  · exact hc.kept (kept_putCompletion h6 _ _ _)
  · exact hc.kept (kept_ringDone h6 _)

theorem started_writeRecord {m : Chip} (h : Started m) : Started (writeRecord m) := by
  unfold writeRecord
  dsimp only
  refine Started.foldl (fun c i hc => hc.kept ?_) _ ?_
  · exact Kept.ite (Kept.refl _) (kept_writeLine _ _ _ _)
  · exact h

/-- START_READY leaves a started module, whatever its stacks, ports and dies came to. -/
theorem started_doStartReady (stk ports dies : Nat) (m : Chip) : Started (doStartReady stk ports dies m) := by
  unfold doStartReady
  extract_lets buf served brought shut start counted
  have h : Started counted := by simp only [counted, start, Started, bump_start, fset_start, and_self]
  exact started_writeRecord (started_payOwed h)

section

variable {s : State}

/-- The module at READY, with its start in the start log. -/
def atReady (stk ports dies : Nat) (s : State) : State :=
  { s with chip := doStartReady stk ports dies s.chip, board := { s.board with startLog := s.board.startLog ++ [b2n s.chip.start.warm] } }

theorem exec_startReady (stk ports dies : Nat) : exec (.startReady stk ports dies) s =
    if acts s && s.chip.start.phase == 4 then .next (settled (atReady stk ports dies s)) else .next s := rfl

theorem started_atReady (stk ports dies : Nat) (s : State) : Started (atReady stk ports dies s).chip := by
  dsimp only [atReady]
  exact started_doStartReady stk ports dies s.chip

theorem started_settled {t : State} (hr : t.board.rails = true) (h : Started t.chip) : Started (settled t).chip := by
  rw [settled, if_pos (by simp [acts, hr, h.1])]
  exact h.kept (kept_settle _)

theorem exec_startReady_ready (stk ports dies : Nat) (ha : acts s = true) (hp : s.chip.start.phase = 4) :
    ∃ t, exec (.startReady stk ports dies) s = .next t ∧ Started t.chip ∧ t.board.startLog = s.board.startLog ++ [b2n s.chip.start.warm] := by
  have hgo : (acts s && s.chip.start.phase == 4) = true := by rw [ha, hp]; rfl
  refine ⟨_, (exec_startReady stk ports dies).trans (if_pos hgo), started_settled ?_ (started_atReady stk ports dies s), ?_⟩
  · dsimp only [atReady]
    exact rails_of_acts ha
  · rw [settled_board]
    rfl

/-! ### Too hot to start -/

theorem exec_bootThermalRecheck (temps powers : List Nat) (hr : s.board.rails = true) (hp : s.chip.start.phase = 3) :
    exec (.bootThermalRecheck temps powers) s = .next (settled (doBootThermalRecheck temps powers s)) := if_pos (by simp [hr, hp])

theorem doBootThermalRecheck_cool {temps powers : List Nat} (h : ∀ d k, d < 10 → k < sensors d → estimate temps powers d k ≤ 110 * 256) :
    doBootThermalRecheck temps powers s = bootImage { s with board := { s.board with hot := false } } := by
  refine if_pos (List.all_eq_true.mpr fun d hd => List.all_eq_true.mpr fun k hk => decide_eq_true ?_)
  exact h d k (List.mem_range.mp hd) (List.mem_range.mp hk)

theorem doBootThermalRecheck_hot {temps powers : List Nat} {d k : Nat} (hd : d < 10) (hk : k < sensors d) (h : 110 * 256 < estimate temps powers d k) :
    doBootThermalRecheck temps powers s = s := by
  refine if_neg fun hall => ?_
  have hcool := List.all_eq_true.mp (List.all_eq_true.mp hall d (List.mem_range.mpr hd)) k (List.mem_range.mpr hk)
  exact absurd (of_decide_eq_true hcool) (Nat.not_le.mpr h)

/-! ### The SYS commands -/

theorem exec_sysSize (i : Nat) : exec (.sysSize i) s = runCmd s i 0x0101 (doSysSize i) := rfl

theorem exec_sysIdent (i : Nat) : exec (.sysIdent i) s = runCmd s i 0x0102 (fun _ => doSysIdent s.board i) := rfl

theorem exec_sysState (i : Nat) : exec (.sysState i) s = runCmd s i 0x0103 (doSysState i) := rfl

theorem exec_sysReset (i : Nat) (ha : acts s = true) (hc : cmdReady s.chip i 0x0106 = true) : exec (.sysReset i) s = .next (settled (doSysReset i (cmdPay s.chip i) s)) :=
  if_pos (by rw [ha, hc]; rfl)

/-- The other mailboxes' commands end with ABORTED. -/
abbrev othersAborted (i : Nat) (m : Chip) : Chip := (List.range 4).foldl (fun c j => if j ≠ i ∧ (mbRun c j).isSome then fail c j 6 else c) m

theorem doSysReset_heeded (i : Nat) {p : List Nat} (h : heeds s.chip (bitsN (nth p 0) 31 28 == 1) false = true) : doSysReset i p s =
    startCause { s with chip := fset (respond (othersAborted i s.chip) i 0 []) MB_GLOBAL_READY 0 } (bitsN (nth p 0) 31 28 == 1) false
      (if (bitsN (nth p 0) 31 28 == 1) = true then 1 else 2) := if_pos h

theorem doSysReset_unheeded (i : Nat) {p : List Nat} (h : heeds s.chip (bitsN (nth p 0) 31 28 == 1) false = false) :
    doSysReset i p s = { s with chip := respond s.chip i 0 [] } := if_neg (ne_true_of_eq_false h)

/-! ### SEC.MEASURE and SEC.ATTEST -/

theorem exec_secMeasure (i : Nat) : exec (.secMeasure i) s = runCmd s i 0x0C01 (fun _ => doSecMeasure s.board i) := rfl

theorem exec_secAttest (i : Nat) : exec (.secAttest i) s = runCmd s i 0x0C02 (doSecAttest s.board i) := rfl

section

variable {b : Board} {m : Chip} {p : List Nat} (i : Nat)

theorem doSecMeasure_eq : doSecMeasure b i m =
    respond m i 0 ([b2n m.start.skipped * 2 ^ 24 + b2n (trialRuns b m) * 2 ^ 20 + b2n b.bankPending.isSome * 2 ^ 16 + b.selected % 2 * 2 ^ 8 + m.start.running % 2,
      b.fuseSvn % 256 * 2 ^ 16 + m.start.svn % 256 * 2 ^ 8 + m.start.key % 256, b2n b.key0Revoked * 2 + b2n m.start.warm] ++ bytesWords (fit 64 0#8 m.start.meas)) := rfl

theorem doSecAttest_report (h : bitsN (nth p 0) 31 28 = 0) : doSecAttest b i p m =
    respond m i 0 (attestReport b m (p.drop 1) ++ bytesWords (fit 116 0#8 (edSign m.start.aliasKey (wordBytes (attestReport b m (p.drop 1)))))) := if_pos h

/-- The certificate asked for: the key's of this start or the device's. -/
abbrev askedCert (b : Board) (p : List Nat) (m : Chip) : List Byte := if tb (nth p 0) 24 then m.start.aliasCert else b.deviceCert

theorem doSecAttest_beyond (h : bitsN (nth p 0) 31 28 ≠ 0) (hoff : (askedCert b p m).length ≤ nth p 1) : doSecAttest b i p m = fail m i 2 :=
  (if_neg h).trans (if_pos hoff)

theorem doSecAttest_cert (h : bitsN (nth p 0) 31 28 ≠ 0) (hoff : nth p 1 < (askedCert b p m).length) : doSecAttest b i p m =
    respond m i 0 ([(askedCert b p m).length, min 2000 ((askedCert b p m).length - nth p 1)] ++
      padWords (((askedCert b p m).drop (nth p 1)).take (min 2000 ((askedCert b p m).length - nth p 1)))) :=
  (if_neg h).trans (if_neg (Nat.not_le.mpr hoff))

end

/-! ### SEC.UPDATE -/

/-- The state after a command of the image: SEC_STAT shows the boot record. -/
abbrev secSettled (t : State) : State := { t with chip := settle (secStat t.board t.chip) }

theorem exec_secUpdate (i : Nat) (ha : acts s = true) (hc : cmdReady s.chip i 0x0C03 = true) : exec (.secUpdate i) s = .next (secSettled (doSecUpdate i (cmdPay s.chip i) s)) :=
  if_pos (by rw [ha, hc]; rfl)

section

variable (i : Nat) {p : List Nat}

theorem doSecUpdate_busy (h : s.chip.start.update.isSome = true) : doSecUpdate i p s = { s with chip := fail s.chip i 1 } := if_pos h

variable (hu : s.chip.start.update = none)

include hu

theorem doSecUpdate_write (h : bitsN (nth p 0) 31 28 = 0) : doSecUpdate i p s = updateWrite i p s := by
  rw [doSecUpdate, hu, h]
  rfl

theorem doSecUpdate_commit (h : bitsN (nth p 0) 31 28 = 1) : doSecUpdate i p s = updateCommit i (tb (nth p 0) 24) s := by
  rw [doSecUpdate, hu, h]
  rfl

theorem doSecUpdate_revert (h : bitsN (nth p 0) 31 28 = 2) : doSecUpdate i p s = updateRevert i s := by
  rw [doSecUpdate, hu, h]
  rfl

end

theorem updateCommit_noTrial (i : Nat) (keep : Bool) (h : trialRuns s.board s.chip = false) : updateCommit i keep s = { s with chip := fail s.chip i 0x0C05 } :=
  if_pos (by rw [h, Bool.not_false])

/-- A trial bank that is committed is the selected one, and the fuses follow its SVN. -/
theorem updateCommit_fuses (i : Nat) (h : trialRuns s.board s.chip = true) (hsvn : s.chip.start.svn ≤ 64) : updateCommit i false s =
    { s with board := { s.board with selected := s.chip.start.running, trial := none, fuseSvn := max s.board.fuseSvn s.chip.start.svn },
             chip := updateDone i s.chip.start.running s.chip.start.svn s.chip } := by
  simp only [updateCommit, h, Bool.not_true, Bool.false_eq_true, if_false, Nat.not_lt.mpr hsvn]

theorem updateRevert_pending (i : Nat) (h : s.board.bankPending.isSome = true) : updateRevert i s =
    { s with board := { s.board with bankPending := none }, chip := updateDone i s.board.selected (imgSvn (bankHeader s.board s.board.selected)) s.chip } := if_pos h

theorem exec_flashProgramDone (ok : Bool) {u : Nat × Nat} (ha : acts s = true) (h : s.chip.start.update = some u) :
    exec (.flashProgramDone ok) s = .next (secSettled (doFlashProgramDone ok s)) := if_pos (by rw [ha, h]; rfl)

/-- The module with no update under way. -/
abbrev updateOver (m : Chip) : Chip := { m with start := { m.start with update := none, updImage := [] } }

theorem doFlashProgramDone_good {j k : Nat} (h : s.chip.start.update = some (j, k)) : doFlashProgramDone true s =
    { s with board := { putBank s.board k 0 s.chip.start.updImage with bankPending := some k },
             chip := updateDone j k (imgSvn (bytesWords (s.chip.start.updImage.take 256))) (updateOver s.chip) } := by
  rw [doFlashProgramDone, h]
  rfl

theorem doFlashProgramDone_bad {j k : Nat} (h : s.chip.start.update = some (j, k)) : doFlashProgramDone false s = { s with chip := fail (updateOver s.chip) j 0x0C06 } := by
  rw [doFlashProgramDone, h]
  rfl

end

/-- Settles O57: START_READY leaves a started module, and each command goes through its checks in order. -/
theorem startEndsAndSystemCommands : Obligations.StartEndsAndSystemCommands := by
  refine fun s ha i => ⟨?ready, ?unready, ?recheck, ?size, ?ident, ?state, ?reset, ?measured, ?attest, ?update, ?programmed⟩
  case ready =>
    intro stk ports dies hp
    obtain ⟨t, he, ⟨hphase, hcompleted⟩, hlog⟩ := exec_startReady_ready stk ports dies ha hp
    exact ⟨t, he, hphase, hcompleted, hlog⟩
  case unready => exact fun stk ports dies hp => if_neg (by simp [hp])
  case recheck =>
    intro temps powers hp
    have he := exec_bootThermalRecheck temps powers (rails_of_acts ha) hp
    refine ⟨fun h => ?_, fun d k hd hk h => ?_⟩
    · exact he.trans (congrArg (Host.Outcome.next <| settled ·) (doBootThermalRecheck_cool h))
    · exact he.trans (congrArg (Host.Outcome.next <| settled ·) (doBootThermalRecheck_hot hd hk h))
  case size => exact fun hc => does_of_command ha (exec_sysSize i) hc rfl
  case ident => exact fun hc => does_of_command ha (exec_sysIdent i) hc rfl
  case state => exact fun hc => does_of_command ha (exec_sysState i) hc rfl
  case reset =>
    intro hc
    have he := exec_sysReset i ha hc
    exact ⟨fun h => he.trans (congrArg (Host.Outcome.next <| settled ·) (doSysReset_heeded i h)),
      fun h => he.trans (congrArg (Host.Outcome.next <| settled ·) (doSysReset_unheeded i h))⟩
  case measured => exact fun hc => does_of_command ha (exec_secMeasure i) hc (doSecMeasure_eq i)
  case attest =>
    intro hc
    have he := exec_secAttest (s := s) i
    refine ⟨fun h => ?_, fun h => ⟨fun hoff => ?_, fun hoff => ?_⟩⟩
    · exact does_of_command ha he hc (doSecAttest_report i h)
    · exact does_of_command ha he hc (doSecAttest_beyond i h hoff)
    · exact does_of_command ha he hc (doSecAttest_cert i h hoff)
  case update =>
    intro hc
    have he {t : State} (h : doSecUpdate i (cmdPay s.chip i) s = t) : exec (.secUpdate i) s = .next (secSettled t) := h ▸ exec_secUpdate i ha hc
    refine ⟨fun hu => he (doSecUpdate_busy i hu), fun hu h => he (doSecUpdate_write i hu h), fun hu h ht => ?_, fun hu h ht hk hsvn => ?_, fun hu h hp => ?_⟩
    · exact he ((doSecUpdate_commit i hu h).trans (updateCommit_noTrial i _ ht))
    · exact he ((doSecUpdate_commit i hu h).trans (hk ▸ updateCommit_fuses i ht hsvn))
    · exact he ((doSecUpdate_revert i hu h).trans (updateRevert_pending i hp))
  case programmed =>
    intro j k hu
    exact ⟨(exec_flashProgramDone true ha hu).trans (congrArg (Host.Outcome.next <| secSettled ·) (doFlashProgramDone_good hu)),
      (exec_flashProgramDone false ha hu).trans (congrArg (Host.Outcome.next <| secSettled ·) (doFlashProgramDone_bad hu))⟩

end Sys2Proof.Proofs
end

section
/-! SUPPORT. Power and temperature: samples, sensors, steps and limits, and the faults of rails, converters and VIN48. -/

namespace Sys2Proof.Proofs

open Sys2Proof.Machine Sys2Proof.Laws

/-! ### Registers through what a power event writes -/

theorem cget_congr {a b : Chip} {o : Nat} (hlo : csr a o = csr b o) (hhi : csr a (o + 4) = csr b (o + 4)) : cget a o = cget b o := by
  rw [cget, cget, hlo, hhi]

theorem cget_fset_ne (m : Chip) (f : Fld) (v : Nat) {o : Nat} (hlo : o ≠ f.off) (hhi : o + 4 ≠ f.off) : cget (fset m f v) o = cget m o :=
  cget_congr (csr_fset_ne m f v hlo) (csr_fset_ne m f v hhi)

theorem cget_bump_ne (m : Chip) {o p : Nat} (n : Nat) (h : o + 4 < p ∨ p + 4 < o) : cget (bump m p n) o = cget m o :=
  cget_congr (csr_bump_ne m n (by omega) (by omega)) (csr_bump_ne m n (by omega) (by omega))

theorem fget_lt (m : Chip) (f : Fld) : fget m f < 2 ^ (f.hi + 1 - f.lo) := Nat.mod_lt _ (Nat.two_pow_pos _)

theorem fget_thermalNotice (m : Chip) (event die sensor : Nat) (f : Fld) : fget (thermalNotice m event die sensor) f = fget m f := rfl

theorem cget_thermalNotice (m : Chip) (event die sensor o : Nat) : cget (thermalNotice m event die sensor) o = cget m o := rfl

theorem pwr_thermalNotice (m : Chip) (event die sensor : Nat) : (thermalNotice m event die sensor).pwr = m.pwr := rfl

/-- A change of the power state alone leaves the registers. -/
abbrev withPwr (m : Chip) (p : PwrState) : Chip := { m with pwr := p }

theorem fget_withPwr (m : Chip) (p : PwrState) (f : Fld) : fget (withPwr m p) f = fget m f := rfl

theorem cget_withPwr (m : Chip) (p : PwrState) (o : Nat) : cget (withPwr m p) o = cget m o := rfl

section

variable {s : State} {m : Chip}

/-! ### A power sample -/

/-- The energy of a sample, with what was left before. -/
abbrev sampleFj (mv ma : Nat) (m : Chip) : Nat := m.pwr.remFj + mv * ma * 1024

/-- The sample is counted. -/
def sampled (mv ma : Nat) (m : Chip) : Chip :=
  bump (fset (withPwr m { m.pwr with remFj := sampleFj mv ma m % 10 ^ 12, epochUw := m.pwr.epochUw + mv * ma }) PWR_INPUT_VIN_MV (sat 65535 mv)) PWR_ENERGY_CTR
    (sampleFj mv ma m / 10 ^ 12)

/-- The surge clamp acts. -/
def clamped (m : Chip) : Chip := thermalNotice (bump (fset (withPwr m { m.pwr with surge := true }) PWR_STAT_SURGE 1) PWR_SURGE_CTR 1) 7 0 0

theorem doPowerSample_eq (mv ma : Nat) (m : Chip) : doPowerSample mv ma m =
    if surgeTrip (sampled mv ma m) * 10 ^ 6 < mv * ma ∧ ¬ (sampled mv ma m).pwr.surge then clamped (sampled mv ma m) else sampled mv ma m := rfl

theorem pwr_sampled (mv ma : Nat) (m : Chip) :
    (sampled mv ma m).pwr = { m.pwr with remFj := sampleFj mv ma m % 10 ^ 12, epochUw := m.pwr.epochUw + mv * ma } := by
  rw [sampled, bump_pwr, fset_pwr]

theorem pwr_clamped (m : Chip) : (clamped m).pwr = { m.pwr with surge := true } := by
  rw [clamped, pwr_thermalNotice, bump_pwr, fset_pwr]

theorem energy_sampled (mv ma : Nat) (m : Chip) : cget (sampled mv ma m) PWR_ENERGY_CTR = min (cget m PWR_ENERGY_CTR + sampleFj mv ma m / 10 ^ 12) (2 ^ 48 - 1) := by
  rw [sampled, cget_bump, cget_fset_ne _ PWR_INPUT_VIN_MV _ (by decide) (by decide), cget_withPwr]

theorem energy_clamped (m : Chip) : cget (clamped m) PWR_ENERGY_CTR = cget m PWR_ENERGY_CTR := by
  rw [clamped, cget_thermalNotice, cget_bump_ne _ _ (by decide), cget_fset_ne _ PWR_STAT_SURGE _ (by decide) (by decide), cget_withPwr]

theorem vin_sampled (mv ma : Nat) (m : Chip) : fget (sampled mv ma m) PWR_INPUT_VIN_MV = sat 65535 mv := by
  rw [sampled, fget_bump_ne _ _ (by decide) (by decide), fget_fset _ PWR_INPUT_VIN_MV _ (by decide) (by decide)]
  exact Nat.mod_eq_of_lt (Nat.lt_succ_of_le (Nat.min_le_left _ _))

theorem vin_clamped (m : Chip) : fget (clamped m) PWR_INPUT_VIN_MV = fget m PWR_INPUT_VIN_MV := by
  rw [clamped, fget_thermalNotice, fget_bump_ne _ _ (by decide) (by decide), fget_fset_ne _ PWR_STAT_SURGE PWR_INPUT_VIN_MV _ (by decide), fget_withPwr]

theorem surgeTrip_sampled (mv ma : Nat) (m : Chip) : surgeTrip (sampled mv ma m) = surgeTrip m := by
  have h : fget (sampled mv ma m) PWR_STAT_PHASE_FAIL = fget m PWR_STAT_PHASE_FAIL := by
    rw [sampled, fget_bump_ne _ _ (by decide) (by decide), fget_fset_ne _ PWR_INPUT_VIN_MV PWR_STAT_PHASE_FAIL _ (by decide), fget_withPwr]
  rw [surgeTrip, surgeTrip, fon, fon, h]

theorem energy_doPowerSample (mv ma : Nat) (m : Chip) :
    cget (doPowerSample mv ma m) PWR_ENERGY_CTR = min (cget m PWR_ENERGY_CTR + sampleFj mv ma m / 10 ^ 12) (2 ^ 48 - 1) := by
  rw [doPowerSample_eq]
  split
  · rw [energy_clamped, energy_sampled]
  · exact energy_sampled mv ma m

theorem vin_doPowerSample (mv ma : Nat) (m : Chip) : fget (doPowerSample mv ma m) PWR_INPUT_VIN_MV = sat 65535 mv := by
  rw [doPowerSample_eq]
  split
  · rw [vin_clamped, vin_sampled]
  · exact vin_sampled mv ma m

theorem remFj_doPowerSample (mv ma : Nat) (m : Chip) : (doPowerSample mv ma m).pwr.remFj = sampleFj mv ma m % 10 ^ 12 := by
  rw [doPowerSample_eq]
  split
  · rw [pwr_clamped, pwr_sampled]
  · rw [pwr_sampled]

theorem epochUw_doPowerSample (mv ma : Nat) (m : Chip) : (doPowerSample mv ma m).pwr.epochUw = m.pwr.epochUw + mv * ma := by
  rw [doPowerSample_eq]
  split
  · rw [pwr_clamped, pwr_sampled]
  · rw [pwr_sampled]

/-- The clamp acts above the trip, and stays while it acts. -/
theorem surge_doPowerSample (mv ma : Nat) (m : Chip) : (doPowerSample mv ma m).pwr.surge = (m.pwr.surge || decide (surgeTrip m * 10 ^ 6 < mv * ma)) := by
  have hkept : (sampled mv ma m).pwr.surge = m.pwr.surge := by rw [pwr_sampled]
  rw [doPowerSample_eq, surgeTrip_sampled, hkept]
  split
  next h =>
    rw [pwr_clamped, decide_eq_true h.1, Bool.or_true]
  next h =>
    rw [hkept]
    cases hsurge : m.pwr.surge with
    | true => rfl
    | false => rw [decide_eq_false fun hover => h ⟨hover, by simp [hsurge]⟩, Bool.false_or]

/-- The management bus sees the voltage of the sample. -/
abbrev vinShown (s : State) (mv : Nat) : State := { s with board := { s.board with vinMv := mv } }

theorem exec_powerSample (mv ma : Nat) (ha : acts s = true) :
    exec (.powerSample mv ma) s = .next { s with board := { s.board with vinMv := mv }, chip := settle (doPowerSample mv ma s.chip) } := by
  have he : exec (.powerSample mv ma) s = run (if acts s then vinShown s mv else s) (doPowerSample mv ma) := rfl
  rw [he, if_pos ha]
  exact run_acts (s := vinShown s mv) ha (doPowerSample mv ma)

/-! ### Thermal samples -/

theorem exec_thermalSample (temps powers : List Nat) (ha : acts s = true) : exec (.thermalSample temps powers) s =
    .next (if overheated s.chip (doThermalSample temps powers s.chip) then thermalTrip { s with chip := doThermalSample temps powers s.chip }
      else { s with chip := settle (doThermalSample temps powers s.chip) }) := by
  simp only [acts, Bool.and_eq_true, bne_iff_ne] at ha
  obtain ⟨⟨hr, h0⟩, h7⟩ := ha
  have he : exec (.thermalSample temps powers) s = if s.board.rails && s.chip.start.phase != 0 then
      .next (if overheated s.chip (doThermalSample temps powers s.chip) then thermalTrip { s with chip := doThermalSample temps powers s.chip }
        else { s with chip := if s.chip.start.phase = 7 then { doThermalSample temps powers s.chip with err := s.chip.err } else settle (doThermalSample temps powers s.chip) })
      else .next s := rfl
  rw [he, if_pos (by simp [hr, h0]), if_neg h7]

/-- The neighbours of a sensor that count. -/
abbrev around (m : Chip) (d k : Nat) : List Nat := (neighbours d k).filter (fun n => !(sensor m d n).suspect)

/-- How far a sensor strays from its neighbours, times their number. -/
abbrev stray (m : Chip) (e : Nat → Nat) (d k : Nat) : Nat :=
  (e k * (around m d k).length - ((around m d k).map e).foldl (· + ·) 0) + (((around m d k).map e).foldl (· + ·) 0 - e k * (around m d k).length)

section

variable {e : Nat → Nat} {d k : Nat} (hn : around m d k ≠ [])

include hn

theorem around_length_ne_zero : (around m d k).length ≠ 0 := mt List.length_eq_zero_iff.mp hn

theorem sensorNext_of : sensorNext m e d k =
    if (sensor m d k).suspect then
      (if 5 * 256 * (around m d k).length < stray m e d k then { est := e k, suspect := true, run := 0 }
       else if 64 ≤ (sensor m d k).run + 1 then { est := e k, suspect := false, run := 0 } else { est := e k, suspect := true, run := (sensor m d k).run + 1 })
    else if stray m e d k ≤ 15 * 256 * (around m d k).length then { est := e k, suspect := false, run := 0 }
    else if 16 ≤ (sensor m d k).run + 1 then { est := e k, suspect := true, run := 0 } else { est := e k, suspect := false, run := (sensor m d k).run + 1 } :=
  if_neg (around_length_ne_zero hn)

theorem sensorNext_near (ho : (sensor m d k).suspect = false) (h : stray m e d k ≤ 15 * 256 * (around m d k).length) :
    sensorNext m e d k = { est := e k, suspect := false, run := 0 } := by
  rw [sensorNext_of hn, ho, if_neg Bool.false_ne_true, if_pos h]

theorem sensorNext_strays (ho : (sensor m d k).suspect = false) (h : 15 * 256 * (around m d k).length < stray m e d k) : sensorNext m e d k =
    if 15 ≤ (sensor m d k).run then { est := e k, suspect := true, run := 0 } else { est := e k, suspect := false, run := (sensor m d k).run + 1 } := by
  rw [sensorNext_of hn, ho, if_neg Bool.false_ne_true, if_neg (Nat.not_le.mpr h)]
  simp only [Nat.succ_le_succ_iff]

theorem sensorNext_back (ho : (sensor m d k).suspect = true) (h : stray m e d k ≤ 5 * 256 * (around m d k).length) : sensorNext m e d k =
    if 63 ≤ (sensor m d k).run then { est := e k, suspect := false, run := 0 } else { est := e k, suspect := true, run := (sensor m d k).run + 1 } := by
  rw [sensorNext_of hn, if_pos ho, if_neg (Nat.not_lt.mpr h)]
  simp only [Nat.succ_le_succ_iff]

theorem sensorNext_away (ho : (sensor m d k).suspect = true) (h : 5 * 256 * (around m d k).length < stray m e d k) :
    sensorNext m e d k = { est := e k, suspect := true, run := 0 } := by
  rw [sensorNext_of hn, if_pos ho, if_pos h]

end

/-- Each threshold is 5 °C lower for a die that is past it already. -/
theorem thermalState_eq (old tj : Nat) : thermalState old tj =
    if 105 * 256 ≤ tj ∨ (old = 2 ∧ 100 * 256 < tj) then 2 else if 95 * 256 ≤ tj ∨ (old ≠ 0 ∧ 90 * 256 < tj) then 1 else 0 := by
  have hthr : (if old = 2 then decide (100 * 256 < tj) else decide (105 * 256 ≤ tj)) = true ↔ 105 * 256 ≤ tj ∨ (old = 2 ∧ 100 * 256 < tj) := by
    split <;> rw [decide_eq_true_iff] <;> omega
  have hwarn : (if old = 0 then decide (95 * 256 ≤ tj) else decide (90 * 256 < tj)) = true ↔ 95 * 256 ≤ tj ∨ (old ≠ 0 ∧ 90 * 256 < tj) := by
    split <;> rw [decide_eq_true_iff] <;> omega
  simp only [thermalState, hthr, hwarn]

/-! ### Steps and limits -/

theorem exec_throttleTimer : exec .throttleTimer s = runIf s throttleTimerDue throttleAct := rfl

theorem nextLimit_le (m : Chip) : nextLimit m ≤ 2800 := by
  refine (Nat.min_le_left _ _).trans ?_
  rw [limitCap]
  split <;> omega

/-- The step and the limit take effect, before the surge clamp ends. -/
def stepped (m : Chip) : Chip :=
  fset (fset (fset (if fget m PWR_STAT_NEXT_STEP = fget m PWR_STAT_STEP then m else bump m PWR_STEP_CTR 1) PWR_STAT_STEP (fget m PWR_STAT_NEXT_STEP)) PWR_STAT_BCLK_HALF
    (b2n (decide (9 ≤ fget m PWR_STAT_NEXT_STEP)))) PWR_LIMIT_IN_FORCE (nextLimit m)

theorem fget_throttleAct (m : Chip) (f : Fld) :
    fget (throttleAct m) f = fget (if m.pwr.surge then fset (stepped m) PWR_STAT_S_POWER (min 11 (fget m PWR_STAT_S_POWER + 1)) else stepped m) f := rfl

/-- The end of the clamp reaches S_POWER only. -/
theorem fget_throttleAct_stepped (m : Chip) {f : Fld} (h32 : f.hi < 32) (h : f.off ≠ PWR_STAT_S_POWER.off ∨ f.off = PWR_STAT_S_POWER.off ∧ (f.hi < 16 ∨ 19 < f.lo)) :
    fget (throttleAct m) f = fget (stepped m) f := by
  rw [fget_throttleAct]
  split
  · obtain h | ⟨ho, h⟩ := h
    · exact fget_fset_ne _ PWR_STAT_S_POWER f _ h
    · exact fget_fset_apart _ PWR_STAT_S_POWER f _ (by decide) ho h32 h
  · rfl

theorem step_stepped (m : Chip) : fget (stepped m) PWR_STAT_STEP = fget m PWR_STAT_NEXT_STEP := by
  rw [stepped, fget_fset_ne _ PWR_LIMIT_IN_FORCE PWR_STAT_STEP _ (by decide),
    fget_fset_apart _ PWR_STAT_BCLK_HALF PWR_STAT_STEP _ (by decide) rfl (by decide) (.inr (by decide)), fget_fset _ PWR_STAT_STEP _ (by decide) (by decide)]
  exact Nat.mod_eq_of_lt (fget_lt m PWR_STAT_NEXT_STEP)

theorem half_stepped (m : Chip) : fget (stepped m) PWR_STAT_BCLK_HALF = if 9 ≤ fget m PWR_STAT_NEXT_STEP then 1 else 0 := by
  rw [stepped, fget_fset_ne _ PWR_LIMIT_IN_FORCE PWR_STAT_BCLK_HALF _ (by decide), fget_fset _ PWR_STAT_BCLK_HALF _ (by decide) (by decide), b2n]
  simp only [decide_eq_true_eq]
  split <;> rfl

theorem limit_stepped (m : Chip) : fget (stepped m) PWR_LIMIT_IN_FORCE = nextLimit m := by
  rw [stepped, fget_fset _ PWR_LIMIT_IN_FORCE _ (by decide) (by decide)]
  exact Nat.mod_eq_of_lt (Nat.lt_of_le_of_lt (nextLimit_le m) (by decide))

theorem power_stepped (m : Chip) : fget (stepped m) PWR_STAT_S_POWER = fget m PWR_STAT_S_POWER := by
  rw [stepped, fget_fset_ne _ PWR_LIMIT_IN_FORCE PWR_STAT_S_POWER _ (by decide),
    fget_fset_apart _ PWR_STAT_BCLK_HALF PWR_STAT_S_POWER _ (by decide) rfl (by decide) (.inr (by decide)),
    fget_fset_apart _ PWR_STAT_STEP PWR_STAT_S_POWER _ (by decide) rfl (by decide) (.inl (by decide))]
  split
  · rfl
  · exact fget_bump_ne m 1 (by decide) (by decide)

theorem power_throttleAct (m : Chip) : fget (throttleAct m) PWR_STAT_S_POWER = if m.pwr.surge then min 11 (fget m PWR_STAT_S_POWER + 1) else fget m PWR_STAT_S_POWER := by
  rw [fget_throttleAct]
  split
  · rw [fget_fset _ PWR_STAT_S_POWER _ (by decide) (by decide)]
    exact Nat.mod_eq_of_lt (Nat.lt_of_le_of_lt (Nat.min_le_left _ _) (by decide))
  · exact power_stepped m

theorem nextPower_eq (sp avg l run : Nat) : nextPower sp avg l run =
    if l < avg then (min (sp + 1) 11, 0) else if 100 * avg < 95 * l then (if 3 ≤ run then (sp - 1, 0) else (sp, run + 1)) else (sp, 0) := by
  simp only [nextPower, Nat.succ_le_succ_iff]

/-! ### Faults -/

theorem fget_foldl {α : Type} {f : Fld} {g : Chip → α → Chip} {l : List α} (h : ∀ c, ∀ x ∈ l, fget (g c x) f = fget c f) (m : Chip) : fget (l.foldl g m) f = fget m f := by
  induction l generalizing m with
  | nil => rfl
  | cons x l ih => exact (ih (fun c y hy => h c y (List.mem_cons_of_mem x hy)) (g m x)).trans (h m x List.mem_cons_self)

theorem fget_setLanes_ne (m : Chip) (p mask st : Nat) {f : Fld} (h : f.off ≠ (LNKp_LSTATE_STATE0 p).off) : fget (setLanes m p mask st) f = fget m f :=
  fget_foldl (fun c n _ => fget_setLane_ne c p n st h) m

theorem fatalValid_fatalRecord (m : Chip) (base kind : Nat) : fget (fatalRecord m base kind) ERR_STAT_FATAL_VALID = 1 :=
  fget_fset _ ERR_STAT_FATAL_VALID 1 (by decide) (by decide)

/-- Every link falls silent. -/
def linksSilent (m : Chip) : Chip :=
  (List.range 36).foldl (fun c p => setLanes (modPort c p (fun q => { q with ctl := [], vcq := [[], [], [], []], txMsgs := [], txOut := [], txRest := [] })) p 15 0) m

/-- The phase and what is due leave the registers. -/
theorem fget_startErr (m : Chip) (st : StartState) (e : ErrState) (f : Fld) : fget { m with start := st, err := e } f = fget m f := rfl

theorem fget_roleFatal (base kind : Nat) (m : Chip) (f : Fld) : fget (roleFatal base kind m) f = fget (fset (linksSilent (fatalRecord m base kind)) MB_GLOBAL_READY 0) f := by
  unfold roleFatal
  dsimp only
  rw [fget_startErr, linksSilent]

theorem fatalValid_linksSilent (m : Chip) : fget (linksSilent m) ERR_STAT_FATAL_VALID = fget m ERR_STAT_FATAL_VALID := by
  refine fget_foldl (fun c p hp => ?_) m
  have h : ERR_STAT_FATAL_VALID.off ≠ (LNKp_LSTATE_STATE0 p).off := by
    have hp36 := List.mem_range.mp hp
    simp only [ERR_STAT_FATAL_VALID, LNKp_LSTATE_STATE0]
    omega
  rw [fget_setLanes_ne _ p 15 0 h, fget_modPort]

theorem fatalValid_roleFatal (base kind : Nat) (m : Chip) : fget (roleFatal base kind m) ERR_STAT_FATAL_VALID = 1 := by
  rw [fget_roleFatal, fget_fset_ne _ MB_GLOBAL_READY ERR_STAT_FATAL_VALID _ (by decide), fatalValid_linksSilent, fatalValid_fatalRecord]

theorem exec_railFault (r : Nat) : exec (.railFault r) s = run s (doRailFault r) := rfl

theorem doRailFault_die {r : Nat} (h : r < 8) : doRailFault r m = loseDie r 0 m := if_pos h

theorem doRailFault_role {r : Nat} (hlo : 8 ≤ r) (hhi : r < 26) : doRailFault r m = roleFatal (railBase r) 11 m := (if_neg (Nat.not_lt.mpr hlo)).trans (if_pos hhi)

theorem doRailFault_standby {r : Nat} (h : 26 ≤ r) : doRailFault r m = m := (if_neg (by omega)).trans (if_neg (Nat.not_lt.mpr h))

theorem exec_converterFail (n : Nat) : exec (.converterFail n) s = run s (doConverterFail n) := rfl

/-- One more converter has failed. -/
abbrev converterOut (n : Nat) (m : Chip) : Chip := fset (withPwr m { m.pwr with convFail := n :: m.pwr.convFail }) PWR_STAT_PHASE_FAIL 1

/-- The first failure caps the limit in force. -/
abbrev limitCapped (m : Chip) : Chip := fset m PWR_LIMIT_IN_FORCE (min 2000 (fget m PWR_LIMIT_IN_FORCE))

theorem doConverterFail_known {n : Nat} (h : 4 ≤ n ∨ n ∈ m.pwr.convFail) : doConverterFail n m = m := if_pos (h.imp_right List.contains_iff_mem.mpr)

theorem converter_new {n : Nat} (hn : n < 4) (h : n ∉ m.pwr.convFail) : ¬ (4 ≤ n ∨ m.pwr.convFail.contains n = true) := by
  rw [List.contains_iff_mem]
  exact not_or.mpr ⟨Nat.not_le.mpr hn, h⟩

theorem doConverterFail_first {n : Nat} (hn : n < 4) (h : m.pwr.convFail = []) : doConverterFail n m = thermalNotice (limitCapped (converterOut n m)) 8 0 0 :=
  (if_neg (converter_new hn (by simp [h]))).trans (if_neg (by simp [h]))

theorem doConverterFail_second {n : Nat} (hn : n < 4) (hne : m.pwr.convFail ≠ []) (h : n ∉ m.pwr.convFail) : doConverterFail n m = roleFatal 0 11 (converterOut n m) :=
  (if_neg (converter_new hn h)).trans (if_pos hne)

theorem limit_converterOut (n : Nat) (m : Chip) : fget (converterOut n m) PWR_LIMIT_IN_FORCE = fget m PWR_LIMIT_IN_FORCE :=
  fget_fset_ne _ PWR_STAT_PHASE_FAIL PWR_LIMIT_IN_FORCE _ (by decide)

theorem limit_limitCapped (m : Chip) : fget (limitCapped m) PWR_LIMIT_IN_FORCE = min 2000 (fget m PWR_LIMIT_IN_FORCE) := by
  rw [fget_fset _ PWR_LIMIT_IN_FORCE _ (by decide) (by decide)]
  exact Nat.mod_eq_of_lt (Nat.lt_of_le_of_lt (Nat.min_le_left _ _) (by decide))

theorem phaseFail_converterOut (n : Nat) (m : Chip) : fget (limitCapped (converterOut n m)) PWR_STAT_PHASE_FAIL = 1 :=
  (fget_fset_ne _ PWR_LIMIT_IN_FORCE PWR_STAT_PHASE_FAIL _ (by decide)).trans (fget_fset _ PWR_STAT_PHASE_FAIL 1 (by decide) (by decide))

theorem sendDepart_acts (ha : acts s = true) (reason : Nat) :
    sendDepart s reason = { s with board := { s.board with depart := (activePorts s.chip, reason) }, chip := departAll s.chip reason } := if_pos ha

theorem depart_doVin48Undervolt (ha : acts s = true) : (doVin48Undervolt s).board.depart = (activePorts s.chip, 1) := by
  unfold doVin48Undervolt
  rw [sendDepart_acts ha]
  rfl

/-! ### The PWR commands -/

theorem exec_pwrLimit (i : Nat) : exec (.pwrLimit i) s = runCmd s i 0x0B01 (doPwrLimit i) := rfl

theorem exec_pwrStatus (i : Nat) : exec (.pwrStatus i) s = runCmd s i 0x0B02 (doPwrStatus i) := rfl

section

variable (i : Nat) {p : List Nat}

theorem doPwrLimit_range (h : bitsN (nth p 0) 11 0 < 1000 ∨ 2800 < bitsN (nth p 0) 11 0) : doPwrLimit i p m = fail m i 0x0B01 := if_pos h

theorem doPwrLimit_sets (hlo : 1000 ≤ bitsN (nth p 0) 11 0) (hhi : bitsN (nth p 0) 11 0 ≤ 2800) : doPwrLimit i p m =
    respond (fset (fset (fset m PWR_LIMIT_TARGET (bitsN (nth p 0) 11 0)) PWR_CTRL_FLOOR (bitsN (nth p 0) 23 20)) PWR_CTRL_FORCE (bitN (nth p 0) 31)) i 0
      [fget m PWR_LIMIT_TARGET * 2 ^ 16 + fget m PWR_LIMIT_IN_FORCE] := if_neg (by omega)

end

end

/-- Settles O58: a sample, a step or a fault is a few writes to fields apart from each other, and a trip or a loss of VIN48 leaves the module without its rails. -/
theorem powerAndTemperature : Obligations.PowerAndTemperature := by
  refine fun s ha => ⟨fun mv ma => exec_powerSample mv ma ha, ?sample, ?thermal, ?sensors, fun old tj _ => thermalState_eq old tj, fun h => does_of_event ha exec_throttleTimer h rfl,
    ?acts, nextPower_eq, ?rail, ?converter, ?undervolt, ?overvolt, ?limit, fun i hc => does_of_command ha (exec_pwrStatus i) hc rfl⟩
  case sample =>
    exact fun mv ma => ⟨fun _ => energy_doPowerSample mv ma s.chip, remFj_doPowerSample mv ma s.chip, epochUw_doPowerSample mv ma s.chip, vin_doPowerSample mv ma s.chip,
      surge_doPowerSample mv ma s.chip⟩
  case thermal =>
    intro temps powers
    have he := exec_thermalSample temps powers ha
    refine ⟨fun h => ⟨_, he.trans (congrArg _ (if_pos h)), rfl, rfl, rfl, rfl, rfl⟩, fun h => he.trans (congrArg _ (if_neg (ne_true_of_eq_false h)))⟩
  case sensors => exact fun e d k => ⟨fun hn => sensorNext_near hn, fun hn => sensorNext_strays hn, fun hn => sensorNext_back hn, fun hn => sensorNext_away hn⟩
  case acts =>
    refine ⟨?_, ?_, ?_, rfl, power_throttleAct s.chip⟩
    · rw [fget_throttleAct_stepped s.chip (by decide) (.inr (by decide)), step_stepped]
    · rw [fget_throttleAct_stepped s.chip (by decide) (.inr (by decide)), half_stepped]
    · rw [fget_throttleAct_stepped s.chip (by decide) (.inl (by decide)), limit_stepped]
  case rail =>
    intro r
    have he := exec_railFault (s := s) r
    exact ⟨fun h => does_of_run ha he (doRailFault_die h), fun hlo hhi => does_of_run ha he (doRailFault_role hlo hhi), fun h => does_of_run ha he (doRailFault_standby h)⟩
  case converter =>
    intro n
    have he := exec_converterFail (s := s) n
    refine ⟨fun h => does_of_run ha he (doConverterFail_known h), fun hn h => ⟨_, does_of_run ha he (doConverterFail_first hn h), ?_, ?_, ?_⟩,
      fun hn hne h => ⟨_, does_of_run ha he (doConverterFail_second hn hne h), rfl, fatalValid_roleFatal 0 11 _⟩⟩
    · rw [pwr_thermalNotice, fset_pwr, fset_pwr, h]
    · rw [fget_thermalNotice, phaseFail_converterOut]
    · rw [fget_thermalNotice, limit_limitCapped, limit_converterOut]
  case undervolt => exact ⟨doVin48Undervolt s, rfl, rfl, rfl, rfl, rfl, depart_doVin48Undervolt ha⟩
  case overvolt => exact ⟨doVin48Overvolt s, rfl, rfl, rfl, rfl, rfl⟩
  case limit =>
    intro i hc
    have he := exec_pwrLimit (s := s) i
    exact ⟨fun h => does_of_command ha he hc (doPwrLimit_range i h), fun hlo hhi => does_of_command ha he hc (doPwrLimit_sets i hlo hhi)⟩

end Sys2Proof.Proofs
end

section
/-! SUPPORT. Twinning: the messages of the twin and what they leave, the TWIN commands, and the handover. -/

namespace Sys2Proof.Proofs

open Sys2Proof.Machine Sys2Proof.Laws

section

variable {m : Chip}

/-! ### The twinning state beside the registers -/

theorem twinSt_modTwin (m : Chip) (f : TwinState → TwinState) : twinSt (modTwin m f) = twinSt m := rfl

theorem mayDeclare_iff : mayDeclare m = true ↔ twinSt m = 3 ∨ twinSt m = 4 := by simp [mayDeclare]

/-! ### A message by its SUB -/

section

variable {p : Nat} {f : Flit} (hp : isTwinPort p = true)

include hp

theorem twinCtl_noBody (hf : f.body = []) : twinCtl p f m = if 2 ≤ twinSt m then unpair m else m :=
  (if_neg (by simp [hp])).trans (if_pos hf)

variable (hf : f.body ≠ [])

include hf

theorem twinCtl_body : twinCtl p f m = match bitsN (nth (flitBody f) 0) 3 0 with
    | 1 => if 2 ≤ twinSt m then doHeartbeatRx f m else m
    | 2 => if 2 ≤ twinSt m then doJendRx p f m else m
    | 3 => doJackRx f m
    | 4 => doPairRx f m
    | 6 => if 1 ≤ twinSt m then doRegionRx p f m else m
    | _ => m := (if_neg (by simp [hp])).trans (if_neg hf)

theorem twinCtl_heartbeat (hs : bitsN (nth (flitBody f) 0) 3 0 = 1) (h2 : 2 ≤ twinSt m) : twinCtl p f m = doHeartbeatRx f m := by
  rw [twinCtl_body hp hf, hs]
  exact if_pos h2

theorem twinCtl_jend (hs : bitsN (nth (flitBody f) 0) 3 0 = 2) (h2 : 2 ≤ twinSt m) : twinCtl p f m = doJendRx p f m := by
  rw [twinCtl_body hp hf, hs]
  exact if_pos h2

theorem twinCtl_jack (hs : bitsN (nth (flitBody f) 0) 3 0 = 3) : twinCtl p f m = doJackRx f m := by
  rw [twinCtl_body hp hf, hs]
  rfl

theorem twinCtl_pair (hs : bitsN (nth (flitBody f) 0) 3 0 = 4) : twinCtl p f m = doPairRx f m := by
  rw [twinCtl_body hp hf, hs]
  rfl

theorem twinCtl_region (hs : bitsN (nth (flitBody f) 0) 3 0 = 6) (h1 : 1 ≤ twinSt m) : twinCtl p f m = doRegionRx p f m := by
  rw [twinCtl_body hp hf, hs]
  exact if_pos h1

end

/-! ### The heartbeat -/

section

variable {f : Flit}

/-- The heartbeat shows the twin alive. -/
abbrev beaten (f : Flit) (m : Chip) : Chip :=
  modTwin m (fun t => { t with hbSeen := true, lastHb := nth64 (flitBody f) 2, peerState := bitsN (nth (flitBody f) 0) 7 4, waitWarm := none, portMiss := 0 })

/-- The regions that wait for an answer are sent again. -/
def regionsAgain (m : Chip) : Chip :=
  m.twin.regionWait.foldl (fun c k => match region c k with
    | some r => twinSendOne c (regionMsg k false r)
    | none => c) m

theorem regionsAgain_none (h : m.twin.regionWait = []) : regionsAgain m = m := by
  rw [regionsAgain, h]
  rfl

theorem doHeartbeatRx_eq (f : Flit) (m : Chip) : doHeartbeatRx f m =
    if mayDeclare (beaten f m) && bitsN (nth (flitBody f) 0) 7 4 == 7 then takeOver (beaten f m)
    else regionsAgain (if twinSt (beaten f m) = 4 then (if (beaten f m).twin.jSet then twinNote (enterTwin (beaten f m) 3) 1 (beaten f m).twin.twin else enterTwin (beaten f m) 2) else beaten f m) := rfl

theorem doHeartbeatRx_fenced (hs : twinSt m = 3 ∨ twinSt m = 4) (h7 : bitsN (nth (flitBody f) 0) 7 4 = 7) : doHeartbeatRx f m = takeOver (beaten f m) := by
  rw [doHeartbeatRx_eq, show mayDeclare (beaten f m) = true from mayDeclare_iff.mpr hs, h7]
  rfl

/-- A twin that is not fenced, or whose role this module may not take, keeps it. -/
theorem doHeartbeatRx_alive (h : ¬ ((twinSt m = 3 ∨ twinSt m = 4) ∧ bitsN (nth (flitBody f) 0) 7 4 = 7)) : doHeartbeatRx f m =
    regionsAgain (if twinSt m = 4 then (if m.twin.jSet then twinNote (enterTwin (beaten f m) 3) 1 m.twin.twin else enterTwin (beaten f m) 2) else beaten f m) := by
  rw [doHeartbeatRx_eq, if_neg]
  · rfl
  · rw [Bool.and_eq_true, mayDeclare_iff, beq_iff_eq, twinSt_modTwin]
    exact h

end

/-! ### The journal point -/

theorem csr_setJ_ne {j o : Nat} (hlo : o ≠ twinJOff) (hhi : o ≠ twinJOff + 4) : csr (setJ m j) o = csr m o := by
  rw [setJ, csr_setCsr_ne _ _ hhi, csr_setCsr_ne _ _ hlo]

theorem twinJ_setJ (m : Chip) {j : Nat} (h : j < 2 ^ 64) : twinJ (setJ m j) = j := by
  rw [twinJ, setJ, csr_setCsr, csr_setCsr_ne _ _ (show twinJOff ≠ twinJOff + 4 by decide), csr_setCsr]
  omega

theorem setLag_eq (m : Chip) : setLag m = m ∨ ∃ v, setLag m = fset m TWIN_STAT_LAG v := by
  unfold setLag
  split
  · exact .inr ⟨_, rfl⟩
  · exact .inl rfl

theorem twin_setLag (m : Chip) : (setLag m).twin = m.twin := by
  obtain h | ⟨v, h⟩ := setLag_eq m
  · rw [h]
  · rw [h, fset_twin]

theorem twinJ_setLag (m : Chip) : twinJ (setLag m) = twinJ m := by
  obtain h | ⟨v, h⟩ := setLag_eq m
  · rw [h]
  · rw [h, twinJ, twinJ, csr_fset_ne m TWIN_STAT_LAG v (by decide), csr_fset_ne m TWIN_STAT_LAG v (by decide)]

theorem twinSt_setLag (m : Chip) : twinSt (setLag m) = twinSt m := by
  obtain h | ⟨v, h⟩ := setLag_eq m
  · rw [h]
  · rw [h, twinSt, twinSt, fget_fset_apart m TWIN_STAT_LAG TWIN_STAT_STATE v (by decide) rfl (by decide) (.inr (by decide))]

theorem twinSt_setJ (m : Chip) (j : Nat) : twinSt (setJ m j) = twinSt m :=
  congrArg (fun w => bitsN w 31 28) (csr_setJ_ne (m := m) (j := j) (o := TWIN_STAT_STATE.off) (by decide) (by decide))

/-! ### JACK -/

section

variable {f : Flit} {start : Nat} {full : Bool} {img : List Byte}

theorem doJackRx_noWait (hw : m.twin.wait = none) : doJackRx f m = m := by
  rw [doJackRx, hw]

theorem doJackRx_other (hw : m.twin.wait = some (start, full, img)) (h : nth64 (flitBody f) 2 ≠ start) : doJackRx f m = m := by
  rw [doJackRx, hw]
  exact if_pos h

/-- The occurrence waits no more. -/
def jacked (start : Nat) (full : Bool) (img : List Byte) (m : Chip) : Chip :=
  modTwin m (fun t => { t with wait := none, imgAck := img, jSet := t.jSet || full, jCame := t.jCame || (full && t.jFrom.any (fun j => decide (j ≤ start))) })

theorem doJackRx_partial (hw : m.twin.wait = some (start, false, img)) (h : nth64 (flitBody f) 2 = start) : doJackRx f m = jacked start false img m := by
  rw [doJackRx, hw]
  exact if_neg (not_not.mpr h)

theorem doJackRx_full (hw : m.twin.wait = some (start, true, img)) (h : nth64 (flitBody f) 2 = start) (h2 : twinSt m ≠ 2) :
    doJackRx f m = setLag (setJ (jacked start true img m) start) := by
  have hst : twinSt (setLag (setJ (jacked start true img m) start)) = twinSt m := by
    rw [twinSt_setLag, twinSt_setJ, jacked, twinSt_modTwin]
  rw [doJackRx, hw]
  exact (if_neg (not_not.mpr h)).trans (if_neg fun he => h2 (hst.symm.trans he))

end

/-! ### PAIR and REGION -/

theorem doPairRx_waits {f : Flit} (h : m.twin.regionWait ≠ []) : doPairRx f m =
    modTwin m (fun t => { t with pairSeen := some (bitsN (nth (flitBody f) 0) 18 8, bitsN (nth (flitBody f) 1) 10 0, tb (nth (flitBody f) 1) 31, bitsN (nth (flitBody f) 2) 13 0) }) :=
  if_neg h

/-! ### Routed messages -/

section

variable {f : Flit}

theorem routedHere_heartbeat (h : nth (flitBody f) 0 / 2 ^ 16 = 0x0A01) : routedHere f m = twinHb f m := by
  rw [routedHere, h]
  rfl

theorem routedHere_take (h : nth (flitBody f) 0 / 2 ^ 16 = 0x0A02) : routedHere f m = twinTake f m := by
  rw [routedHere, h]
  rfl

theorem routedHere_release (h : nth (flitBody f) 0 / 2 ^ 16 = 0x0A03) : routedHere f m = twinRelease f m := by
  rw [routedHere, h]
  rfl

/-- The role that a routed message names. -/
abbrev msgRole (f : Flit) : Nat := bitsN (nth (flitBody f) 0) 10 0

/-- The holder that it names. -/
abbrev msgHolder (f : Flit) : Nat := bitsN (nth (flitBody f) 1) 10 0

/-- The role is held by none. -/
abbrev roleFreed (role : Nat) (m : Chip) : Chip := modTwin m (fun t => { t with alias_ := tput 0 role 0 t.alias_ })

/-- The role is held by another module. -/
abbrev roleHeld (role holder : Nat) (m : Chip) : Chip :=
  modTwin m (fun t => { t with alias_ := tput 0 role (holder + 1) t.alias_, twinHolds := t.twinHolds || (role == selfNum m) })

theorem twinTake_own (hs : f.src = msgRole f) (hh : msgHolder f = msgRole f) : twinTake f m = roleFreed (msgRole f) m := if_pos ⟨hs, hh⟩

/-- A role taken by its sender enters the table, whether or not a handover starts. -/
theorem alias_twinTake (hs : f.src = msgHolder f) (hh : msgHolder f ≠ msgRole f)
    (hc : tget 0 (msgRole f) m.twin.alias_ = 0 ∨ tget 0 (msgRole f) m.twin.alias_ = msgHolder f + 1) : tget 0 (msgRole f) (twinTake f m).twin.alias_ = msgHolder f + 1 := by
  have hheld : tget 0 (msgRole f) (roleHeld (msgRole f) (msgHolder f) m).twin.alias_ = msgHolder f + 1 := tget_tput_same 0 _ _ _
  unfold twinTake
  dsimp only
  rw [if_neg fun h => hh h.2, if_pos ⟨hs, hc⟩]
  split
  · exact hheld
  · exact hheld

theorem twinTake_conflict (hs : f.src ≠ msgHolder f) (hr : f.src ≠ msgRole f ∨ msgHolder f ≠ msgRole f) : twinTake f m = twinConflict m (msgRole f) :=
  (if_neg fun h => hr.elim (· h.1) (· h.2)).trans (if_neg fun h => hs h.1)

theorem twinRelease_holder (hc : tget 0 (msgRole f) m.twin.alias_ = f.src + 1) (hr : msgRole f ≠ selfNum m) : twinRelease f m = roleFreed (msgRole f) m :=
  (if_neg fun h => h.1 hc).trans (if_neg fun h => hr h.1)

theorem twinRelease_other (hc : tget 0 (msgRole f) m.twin.alias_ ≠ f.src + 1) (hr : msgRole f ≠ selfNum m) : twinRelease f m = m :=
  if_pos ⟨hc, fun h => hr h.1⟩

end

end

/-- Settles O47: each message by its SUB or its MSG, then by the states it finds. -/
theorem twinMessagesAct : Obligations.TwinMessagesAct := by
  refine fun m p f hp => ⟨fun hf h => (twinCtl_noBody hp hf).trans (if_pos h), fun hf h => (twinCtl_noBody hp hf).trans (if_neg (Nat.not_le.mpr h)), ?beat,
    fun hf hs h => twinCtl_jend hp hf hs h, fun hf hs hw => (twinCtl_jack hp hf hs).trans (doJackRx_noWait hw), ?jack,
    fun hf hs hw => (twinCtl_pair hp hf hs).trans (doPairRx_waits hw), fun hf hs h1 h4 => (twinCtl_region hp hf hs h1).trans (if_neg h4),
    fun hf hs h1 h4 => (twinCtl_region hp hf hs h1).trans (if_pos h4), fun hm h2 hs => (routedHere_heartbeat hm).trans (if_pos ⟨h2, hs⟩), ?take, ?release⟩
  case beat =>
    intro hf hs h2
    have hb := twinCtl_heartbeat hp hf hs h2
    refine ⟨fun hst h7 => hb.trans (doHeartbeatRx_fenced hst h7), fun h4 hw h => ?_, fun h4 h7 hj hw => ?_⟩
    · rw [hb, doHeartbeatRx_alive (by omega), if_neg h4]
      exact regionsAgain_none hw
    · rw [hb, doHeartbeatRx_alive fun h => h7 h.2, if_pos h4, if_pos hj]
      exact regionsAgain_none hw
  case jack =>
    intro hf hs start full img hw
    have hj := twinCtl_jack hp hf hs (m := m)
    refine ⟨fun h => hj.trans (doJackRx_other hw h), fun h hfull => ?_, fun h hfull h2 hlt => ?_⟩
    · subst hfull
      rw [hj, doJackRx_partial hw h]
      exact ⟨rfl, rfl, rfl⟩
    · subst hfull
      rw [hj, doJackRx_full hw h h2, twinJ_setLag, twin_setLag]
      exact ⟨rfl, twinJ_setJ _ hlt⟩
  case take =>
    intro hm
    have ht := routedHere_take hm (m := m)
    refine ⟨fun hs hh => ht.trans (twinTake_own hs hh), fun hs hh hc => ?_, fun hs hr => ht.trans (twinTake_conflict hs hr)⟩
    rw [ht]
    exact alias_twinTake hs hh hc
  case release =>
    intro hm
    have hr := routedHere_release hm (m := m)
    exact ⟨fun hc hn => hr.trans (twinRelease_holder hc hn), fun hc hn => hr.trans (twinRelease_other hc hn)⟩

end Sys2Proof.Proofs
end

section
/-! SUPPORT. The TWIN commands, the reads of the table of roles, and the handover. -/

namespace Sys2Proof.Proofs

open Sys2Proof.Machine Sys2Proof.Laws

section

variable {s : State} {m : Chip} {p : List Nat} (i : Nat)

/-! ### TWIN.PAIR -/

theorem exec_twinPair : exec (.twinPair i) s = runCmd s i 0x0A01 (doTwinPair i) := rfl

/-- The states in which a pairing may begin: unpaired, or the holder of this twin's role. -/
def mayPair (m : Chip) (t : Nat) : Prop := twinSt m = 0 ∨ (twinSt m = 5 ∧ fget m TWIN_HELD_MODULE = t)

theorem mayPair_iff {t : Nat} : (twinSt m == 0 || (twinSt m == 5 && fget m TWIN_HELD_MODULE == t)) = true ↔ mayPair m t := by
  simp [mayPair]

/-- The keeper control area is an aligned scratch range. -/
abbrev keepCtlBad (m : Chip) (keep : Nat) : Prop := keep % 65536 ≠ 0 ∨ (!scratchRange m keep 0x40000) = true

/-- The pairing begins. -/
abbrev pairBegun (i : Nat) (p : List Nat) (m : Chip) : Chip :=
  modTwin (cmdOn m i []) (fun x => { x with twin := nth p 0, keepCtl := nth64 p 1, mb := some i, mbT0 := m.ns })

theorem doTwinPair_state (h : ¬ mayPair m (nth p 0)) : doTwinPair i p m = fail m i 0x0A01 :=
  if_pos (by rw [Bool.not_eq_true', ← Bool.not_eq_true, mayPair_iff]; exact h)

theorem doTwinPair_may (h : mayPair m (nth p 0)) : doTwinPair i p m =
    if (!pairWired m (nth p 0)) = true then fail m i 0x0A02
    else if keepCtlBad m (nth64 p 1) then fail m i 0x0A03
    else
      let m2 := if twinSt (pairBegun i p m) = 0 then enterTwin (pairBegun i p m) 1 else pairBegun i p m
      pairGo (twinSend m2 (pairMsg m2)) := if_neg (by rw [mayPair_iff.mpr h]; decide)

theorem exec_twinPairTimeout : exec .twinPairTimeout s = runIf s pairLate (fun m => pairFail m 0x0A06) := rfl

theorem pairLate_of {j : Nat} (hmb : m.twin.mb = some j) (hgo : cmdGoing m j 0x0A01 = true) (hseen : m.twin.pairSeen = none)
    (ht : m.twin.mbT0 + 10000000000 ≤ m.ns) : pairLate m = true := by
  rw [pairLate, hmb, hseen, Option.any_some, Option.any_none, hgo, decide_eq_true ht]
  rfl

/-! ### TWIN.DETACH -/

theorem exec_twinDetach : exec (.twinDetach i) s = runCmd s i 0x0A02 (doTwinDetach i) := rfl

/-- The command finds the state that its OP needs. -/
inductive Detaches (m : Chip) (op : Nat) : Prop
  | unpairs (h : op = 0 ∧ [2, 3, 4, 6].contains (twinSt m) = true)
  | handsOver (h : op = 1 ∧ twinSt m = 3 ∧ m.twin.handover = 0 ∧ m.twin.mb = none)
  | returns (h : op = 2 ∧ twinSt m = 5 ∧ m.twin.peerState = 6 ∧ m.twin.mb = none)
  | takesOver (h : op = 3 ∧ [3, 4, 7].contains (twinSt m) = true)

theorem doTwinDetach_unpairs (h : bitsN (nth p 0) 31 28 = 0) (hs : twinSt m ∈ [2, 3, 4, 6]) : doTwinDetach i p m = respond (unpair (twinSend m [])) i 0 [] :=
  if_pos ⟨h, List.contains_iff_mem.mpr hs⟩

theorem doTwinDetach_handsOver (h : bitsN (nth p 0) 31 28 = 1) (hs : twinSt m = 3) (hh : m.twin.handover = 0) (hmb : m.twin.mb = none) :
    doTwinDetach i p m = modTwin (cmdOn m i []) (fun t => { t with handover := 1, mb := some i, jFrom := none, jCame := false }) :=
  (if_neg (by omega)).trans (if_pos ⟨h, hs, hh, hmb⟩)

theorem doTwinDetach_returns (h : bitsN (nth p 0) 31 28 = 2) (hs : twinSt m = 5) (hp : m.twin.peerState = 6) (hmb : m.twin.mb = none) :
    doTwinDetach i p m = modTwin (cmdOn m i []) (fun t => { t with handover := 4, mb := some i }) :=
  (if_neg (by omega)).trans ((if_neg (by omega)).trans (if_pos ⟨h, hs, hp, hmb⟩))

theorem doTwinDetach_takesOver (h : bitsN (nth p 0) 31 28 = 3) (hs : twinSt m ∈ [3, 4, 7]) : doTwinDetach i p m = respond (takeOver m) i 0 [] :=
  (if_neg (by omega)).trans ((if_neg (by omega)).trans ((if_neg (by omega)).trans (if_pos ⟨h, List.contains_iff_mem.mpr hs⟩)))

theorem doTwinDetach_refused (h : ¬ Detaches m (bitsN (nth p 0) 31 28)) : doTwinDetach i p m = fail m i 0x0A01 :=
  (if_neg fun k => h (.unpairs k)).trans ((if_neg fun k => h (.handsOver k)).trans ((if_neg fun k => h (.returns k)).trans (if_neg fun k => h (.takesOver k))))

theorem not_detaches {op : Nat} (h : op = 0 ∧ twinSt m ∈ [0, 1, 5, 7] ∨ op = 1 ∧ twinSt m ≠ 3 ∨ op = 2 ∧ twinSt m ≠ 5 ∨ op = 3 ∧ twinSt m ∈ [0, 1, 2, 5, 6] ∨ 3 < op) :
    ¬ Detaches m op := by
  simp only [List.mem_cons, List.not_mem_nil, or_false] at h
  intro hd
  cases hd with
  | unpairs k =>
    simp only [List.contains_iff_mem, List.mem_cons, List.not_mem_nil, or_false] at k
    omega
  | handsOver k => omega
  | returns k => omega
  | takesOver k =>
    simp only [List.contains_iff_mem, List.mem_cons, List.not_mem_nil, or_false] at k
    omega

/-! ### TWIN.PROTECT -/

theorem exec_twinProtect : exec (.twinProtect i) s = runCmd s i 0x0A03 (doTwinProtect i) := rfl

/-- The region asked for. -/
abbrev askedRegion (p : List Nat) : Region := ⟨nth64 p 1, nth64 p 3, nth p 5⟩

/-- Its place in the table. -/
abbrev askedSlot (p : List Nat) : Nat := bitsN (nth p 0) 3 0

theorem doTwinProtect_state (h : twinSt m ∈ [1, 5, 6, 7]) : doTwinProtect i p m = fail m i 0x0A01 := if_pos (List.contains_iff_mem.mpr h)

/-- Ask the twin for the region: with CLEAR it names the region that goes. -/
def twinAsked (i : Nat) (p : List Nat) (t0 : Nat) (clear : Bool) (c : Chip) (x : Region) : Chip :=
  twinSendOne (modTwin (cmdOn c i []) (fun t => { t with mb := some i, mbT0 := t0, regionWait := [askedSlot p], refused := false })) (regionMsg (askedSlot p) clear x)

/-- The states in which the region table may change. -/
theorem not_contains_of_serves (h : twinSt m ∈ [0, 2, 3, 4]) : ¬ [1, 5, 6, 7].contains (twinSt m) = true := by
  simp only [List.contains_iff_mem, List.mem_cons, List.not_mem_nil, or_false] at h ⊢
  omega

theorem doTwinProtect_enter (hs : twinSt m ∈ [0, 2, 3, 4]) (h : bitsN (nth p 0) 31 28 ≠ 1) : doTwinProtect i p m =
    if sourceBad m (askedSlot p) (askedRegion p).src (regionBytes (askedRegion p)) = true then fail m i 0x0A03
    else if 65536 < ownUnits m (askedSlot p) + (askedRegion p).units then fail m i 0x0A04
    else if decide (2 ≤ twinSt m) = true then twinAsked i p m.ns (bitsN (nth p 0) 31 28 == 1) (putRegion m (askedSlot p) (some (askedRegion p))) (askedRegion p)
    else respond (putRegion m (askedSlot p) (some (askedRegion p))) i 0 [] :=
  (if_neg (not_contains_of_serves hs)).trans (if_neg (by rw [beq_iff_eq]; exact h))

theorem doTwinProtect_clear (hs : twinSt m ∈ [0, 2, 3, 4]) (h : bitsN (nth p 0) 31 28 = 1) : doTwinProtect i p m =
    match region m (askedSlot p) with
    | some x => if decide (2 ≤ twinSt m) = true then twinAsked i p m.ns (bitsN (nth p 0) 31 28 == 1) m x else respond (putRegion m (askedSlot p) none) i 0 []
    | none => respond m i 0 [] :=
  (if_neg (not_contains_of_serves hs)).trans (if_pos (by rw [beq_iff_eq]; exact h))

/-! ### STATUS, POLICY and the table of roles -/

theorem exec_twinStatus : exec (.twinStatus i) s = runCmd s i 0x0A04 (doTwinStatus i) := rfl

theorem exec_twinPolicy : exec (.twinPolicy i) s = runCmd s i 0x0A05 (doTwinPolicy i) := rfl

theorem exec_twinAliasDataRead : exec .twinAliasDataRead s = run s doTwinAliasDataRead := rfl

theorem doTwinAliasDataRead_free (h : tget 0 (fget m TWIN_ALIAS_IDX_ROLE) m.twin.alias_ = 0) :
    doTwinAliasDataRead m = fset { m with out := some 0 } TWIN_ALIAS_IDX_ROLE (fget m TWIN_ALIAS_IDX_ROLE + 1) := by
  simp only [doTwinAliasDataRead, h]

theorem doTwinAliasDataRead_held {holder : Nat} (h : tget 0 (fget m TWIN_ALIAS_IDX_ROLE) m.twin.alias_ = holder + 1) :
    doTwinAliasDataRead m = fset { m with out := some (2 ^ 31 + holder) } TWIN_ALIAS_IDX_ROLE (fget m TWIN_ALIAS_IDX_ROLE + 1) := by
  simp only [doTwinAliasDataRead, h]

/-! ### The handover -/

theorem exec_twinHandoverProceed : exec .twinHandoverProceed s = runIf s handoverReady doTwinHandoverProceed := rfl

theorem doTwinHandoverProceed_drained (h : m.twin.handover = 1) : doTwinHandoverProceed m = modTwin m (fun t => { t with handover := 2, jFrom := some (now m), jCame := false }) :=
  if_pos h

theorem addRow_twin (m : Chip) (r : TtRow) : (addRow m r).twin = m.twin := by
  unfold addRow
  split
  · exact setRow_twin _ _ _
  · rfl

theorem foldl_twin {α : Type} {f : Chip → α → Chip} (h : ∀ c x, (f c x).twin = c.twin) (l : List α) (m : Chip) : (l.foldl f m).twin = m.twin := by
  induction l generalizing m with
  | nil => rfl
  | cons x l ih => exact (ih (f m x)).trans (h m x)

theorem journalRows_twin (m : Chip) : (journalRows m).twin = m.twin := by
  unfold journalRows
  dsimp only
  split
  · split
    · unfold postMioto
      split
      · exact addRow_twin _ _
      · rfl
    · rfl
  · exact foldl_twin (fun c e => setRow_twin c _ _) _ m

theorem mioClearArm_twin (m : Chip) : (mioClearArm m).twin = m.twin := by rw [mioClearArm, fset_twin]

theorem enterTwin_released_twin (m : Chip) : (enterTwin m 6).twin = m.twin := by
  unfold enterTwin
  dsimp only
  rw [journalRows_twin, if_neg (by decide), if_pos (by decide), mioClearArm_twin, fset_twin, recMark_twin]

theorem departAll_twin (m : Chip) (reason : Nat) : (departAll m reason).twin = m.twin := by
  refine foldl_twin (fun c p => ?_) _ m
  split
  · rw [modPort_twin, fset_twin, sendCtl, modPort_twin]
  · rfl

theorem twin_eq_of_clean {a b : TwinState} (h : { a with dirty := [] } = { b with dirty := [] }) : a = { b with dirty := a.dirty } := by
  cases a
  cases b
  simpa using h

/-- A response leaves the twinning state, but for its dirty pages. -/
theorem respond_twin (m : Chip) (i st : Nat) (pay : List Nat) : { (respond m i st pay).twin with dirty := [] } = { m.twin with dirty := [] } := by
  have hput := (kept_putResp m i 0 ([st * 2 ^ 16 + pay.length, reqWord m i 1, 0] ++ pay)).twin
  unfold respond respondD
  dsimp only
  rw [(kept_msix _ _).twin]
  split <;> simpa using hput

/-- The module has left its work and is RELEASED. -/
def released (m : Chip) : Chip :=
  twinNote (modTwin (enterTwin (departAll (modTwin m (fun t => { t with mb := none, jFrom := none, jCame := false })) 3) 6) (fun t => { t with handover := 3, twinHolds := true })) 4
    (selfNum (modTwin m (fun t => { t with mb := none, jFrom := none, jCame := false })))

theorem released_twin (m : Chip) : (released m).twin = { m.twin with mb := none, jFrom := none, jCame := false, handover := 3, twinHolds := true } := by
  rw [released, twinNote, notice_twin, modTwin, enterTwin_released_twin, departAll_twin, modTwin]

theorem doTwinHandoverProceed_released (h : m.twin.handover = 2) : doTwinHandoverProceed m =
    match m.twin.mb with
    | some i => respond (released m) i 0 []
    | none => released m := by
  unfold doTwinHandoverProceed
  rw [if_neg (by omega)]
  dsimp only
  rw [if_pos h]
  rfl

theorem twin_doTwinHandoverProceed (h : m.twin.handover = 2) : (doTwinHandoverProceed m).twin.handover = 3 ∧ (doTwinHandoverProceed m).twin.twinHolds = true ∧
    (doTwinHandoverProceed m).twin.mb = none := by
  rw [doTwinHandoverProceed_released h]
  split
  next i _ =>
    rw [twin_eq_of_clean (respond_twin (released m) i 0 []), released_twin]
    exact ⟨rfl, rfl, rfl⟩
  next =>
    rw [released_twin]
    exact ⟨rfl, rfl, rfl⟩

end

/-- Settles O48: each command by the twinning states in which it may act, then by its checks; the handover leaves the twinning state through two steps. -/
theorem twinCommands : Obligations.TwinCommands := by
  refine fun s ha i => ⟨?pair, ?timeout, ?detach, ?protect, fun hc => does_of_command ha (exec_twinStatus i) hc rfl,
    fun hc => does_of_command ha (exec_twinPolicy i) hc rfl, ?table, ?drained, ?released⟩
  case pair =>
    intro hc
    have he := exec_twinPair (s := s) i
    refine ⟨fun h0 h5 => ?_, fun h0 hw => ?_, fun h0 hw hk => ?_, fun h hw hk hr => ?_⟩
    · refine does_of_command ha he hc (doTwinPair_state i ?_)
      rintro (h | ⟨h, hm⟩)
      · exact h0 h
      · exact h5.elim (· h) (· hm)
    · exact does_of_command ha he hc ((doTwinPair_may i (.inl h0)).trans (if_pos (by rw [hw, Bool.not_false])))
    · refine does_of_command ha he hc ((doTwinPair_may i (.inl h0)).trans ((if_neg (by rw [hw]; decide)).trans (if_pos ?_)))
      exact hk.imp_right fun h => by rw [h, Bool.not_false]
    · refine does_of_command ha he hc ((doTwinPair_may i h).trans ((if_neg (by rw [hw]; decide)).trans (if_neg ?_)))
      rintro (hbad | hbad)
      · exact hbad hk
      · rw [hr] at hbad
        exact absurd hbad (by decide)
  case timeout => exact fun j hmb hgo hseen ht => does_of_event ha exec_twinPairTimeout (pairLate_of hmb hgo hseen ht) rfl
  case detach =>
    intro hc
    have he := exec_twinDetach (s := s) i
    exact ⟨fun h hs => does_of_command ha he hc (doTwinDetach_unpairs i h hs), fun h hs hh hmb => does_of_command ha he hc (doTwinDetach_handsOver i h hs hh hmb),
      fun h hs hp hmb => does_of_command ha he hc (doTwinDetach_returns i h hs hp hmb), fun h hs => does_of_command ha he hc (doTwinDetach_takesOver i h hs),
      fun h => does_of_command ha he hc (doTwinDetach_refused i (not_detaches h))⟩
  case protect =>
    intro hc
    have he := exec_twinProtect (s := s) i
    have hzero (h : twinSt s.chip = 0) : twinSt s.chip ∈ [0, 2, 3, 4] ∧ ¬ decide (2 ≤ twinSt s.chip) = true := by
      rw [h]
      decide
    refine ⟨fun h => ?_, fun hs ho hb => ?_, fun hs ho hb hu => ?_, fun hs ho hb hu => ?_, fun hs ho hr => ?_, fun hs ho x hr => ?_⟩
    · exact does_of_command ha he hc (doTwinProtect_state i h)
    · exact does_of_command ha he hc ((doTwinProtect_enter i hs ho).trans (if_pos hb))
    · exact does_of_command ha he hc ((doTwinProtect_enter i hs ho).trans ((if_neg (ne_true_of_eq_false hb)).trans (if_pos hu)))
    · obtain ⟨hin, hunpaired⟩ := hzero hs
      exact does_of_command ha he hc ((doTwinProtect_enter i hin ho).trans ((if_neg (ne_true_of_eq_false hb)).trans ((if_neg (Nat.not_lt.mpr hu)).trans (if_neg hunpaired))))
    · refine does_of_command ha he hc ((doTwinProtect_clear i hs ho).trans ?_)
      rw [hr]
    · obtain ⟨hin, hunpaired⟩ := hzero hs
      refine does_of_command ha he hc ((doTwinProtect_clear i hin ho).trans ?_)
      rw [hr]
      exact if_neg hunpaired
  case table =>
    exact ⟨fun h => does_of_run ha exec_twinAliasDataRead (doTwinAliasDataRead_free h), fun holder h => does_of_run ha exec_twinAliasDataRead (doTwinAliasDataRead_held h)⟩
  case drained =>
    intro h hw
    exact does_of_event ha exec_twinHandoverProceed (by simp [handoverReady, h, hw]) (doTwinHandoverProceed_drained h)
  case released =>
    intro h hj
    exact ⟨doTwinHandoverProceed s.chip, does_of_runIf ha exec_twinHandoverProceed (by simp [handoverReady, h, hj]), twin_doTwinHandoverProceed h⟩

end Sys2Proof.Proofs
end

section
/-! SUPPORT. Launches: acceptance, the gate, placement, and the commands that end or test. -/

namespace Sys2Proof.Proofs

open Sys2Proof.Machine Sys2Proof.Laws

section

variable {s : State} {m : Chip}

/-! ### Acceptance -/

theorem exec_launchAccept (n : Nat) : exec (.launchAccept n) s = runIf s (fun m => launchWants m n) (doLaunchAccept n) := rfl

section

variable {n seq : Nat} {w : List Nat}

/-- The launch read from entry SEQ of a ring. -/
abbrev newLaunch (n seq : Nat) (w : List Nat) (m : Chip) : Launch := { ring := n, seq := seq, w := w, t0 := m.ns, atGate := gateWait w || gateSkip w }

/-- The module with the launch accepted. -/
abbrev launchTaken (n seq : Nat) (w : List Nat) (m : Chip) : Chip := { setLaunch m m.launchId (some (newLaunch n seq w m)) with launchId := m.launchId + 1 }

theorem launchTake_fails {st : Nat} (h : launchChecks m w = some st) : launchTake n seq w m = endLaunch (launchTaken n seq w m) m.launchId st := by
  unfold launchTake
  rw [h]

theorem launchTake_passes (h : launchChecks m w = none) : launchTake n seq w m =
    if gateWait w then gatesNote (launchTaken n seq w m)
    else if gateSkip w then gatesNote (gateSkipTest (launchTaken n seq w m) m.launchId (newLaunch n seq w m))
    else gateLeave (launchTaken n seq w m) m.launchId := by
  unfold launchTake
  rw [h]

theorem launchTake_waits (h : launchChecks m w = none) (hw : gateWait w = true) : launchTake n seq w m = gatesNote (launchTaken n seq w m) :=
  (launchTake_passes h).trans (if_pos hw)

theorem launchTake_queues (h : launchChecks m w = none) (hw : gateWait w = false) (hs : gateSkip w = false) :
    launchTake n seq w m = gateLeave (launchTaken n seq w m) m.launchId :=
  (launchTake_passes h).trans ((if_neg (ne_true_of_eq_false hw)).trans (if_neg (ne_true_of_eq_false hs)))

end

/-! ### The gate -/

section

variable {l : Nat} {x : Launch}

theorem exec_gatePoll (l : Nat) : exec (.gatePoll l) s = runIf s (fun m => (launch m l).any (·.atGate)) (doGatePoll l) := rfl

theorem atGate_of (hx : launch m l = some x) (hg : x.atGate = true) : (launch m l).any (·.atGate) = true := by
  rw [hx, Option.any_some, hg]

theorem gateSkipTest_noSkip (h : gateSkip x.w = false) : gateSkipTest m l x = gateLeave m l := if_pos (by rw [h, Bool.not_false])

/-- A good read of the skip word completes the launch SKIPPED, or lets it go. -/
theorem gateSkipTest_reads (h : gateSkip x.w = true) (hr : deviceReady m (gateSkipDa x.w) 4 = true) (hgood : (loadWord m (gateSkipDa x.w) true).2.1 = none) : gateSkipTest m l x =
    if skipHolds x.w (loadWord m (gateSkipDa x.w) true).1 then gatesNote (endLaunch (bump (loadWord m (gateSkipDa x.w) true).2.2 PTS_SKIP_CTR 1) l 5)
    else gateLeave (loadWord m (gateSkipDa x.w) true).2.2 l := by
  rw [gateSkipTest, h, hr, if_neg (by decide), if_neg (by decide)]
  dsimp only
  rw [hgood]

theorem doGatePoll_met (hx : launch m l = some x) (hmet : x.met = true) : doGatePoll l m = gateSkipTest m l x := by
  rw [doGatePoll, hx]
  exact if_pos (by rw [hmet, Bool.true_or])

/-- A good read of the wait word goes on to the skip word at its value or above. -/
theorem doGatePoll_reads (hx : launch m l = some x) (hmet : x.met = false) (hw : gateWait x.w = true) (hr : deviceReady m (gateWaitDa x.w) 4 = true)
    (hgood : (loadWord m (gateWaitDa x.w) true).2.1 = none) : doGatePoll l m =
    if nth x.w 9 ≤ (loadWord m (gateWaitDa x.w) true).1 then
      gateSkipTest (modLaunch (loadWord m (gateWaitDa x.w) true).2.2 l (fun y => { y with met := true })) l { x with met := true }
    else (loadWord m (gateWaitDa x.w) true).2.2 := by
  rw [doGatePoll, hx]
  dsimp only
  rw [hmet, hw, hr, if_neg (by decide), if_neg (by decide), hgood]

theorem exec_gateTimeout (l : Nat) : exec (.gateTimeout l) s = runIf s (fun m => gateLate m l) (doGateTimeout l) := rfl

end

/-! ### Placement -/

theorem exec_blockPlace : exec .blockPlace s = runIf s (fun m => (nextPlace m).isSome) doBlockPlace := rfl

theorem doBlockPlace_next {n l c : Nat} {x : Launch} (h : nextPlace m = some (n, l, x, c)) : doBlockPlace m =
    modLaunch (modCore { (if x.inv then m else codeClear m x.w) with placeRing := n } c (placeOn m l x.next x.w)) l
      (fun y => { y with next := y.next + 1, live := y.live + 1, inv := true }) := by
  simp only [doBlockPlace, h]

/-! ### Commands -/

theorem exec_sysAbort (i : Nat) : exec (.sysAbort i) s = runCmd s i 0x0105 (doSysAbort i) := rfl

theorem exec_diagCore (i : Nat) : exec (.diagCore i) s = runCmd s i 0x0D01 (doDiagCore i) := rfl

theorem doDiagCore_out (i : Nat) {p : List Nat} (h : dieUp m (nth p 0) = false) : doDiagCore i p m = cmdOn m i [nth p 0] := if_neg (ne_true_of_eq_false h)

theorem exec_coreTestEnd (d units failed first : Nat) : exec (.coreTestEnd d units failed first) s =
    runIf s (fun m => (coreTest m d).isSome) (doCoreTestEnd d units failed first) := rfl

theorem doCoreTestEnd_of {d i : Nat} (units failed first : Nat) (h : coreTest m d = some i) : doCoreTestEnd d units failed first m =
    respond m i 0 [units % 8 * 2 ^ 24 + min failed 320, if failed = 0 then 0xFFF else first % 4096, elapsed m (cmdT0 m i)] := by
  simp only [doCoreTestEnd, h]

end

/-- Settles O19: a launch by its checks, its gate by what each of its words holds, and a placement by what the search found. -/
theorem launchesFromRingToCore : Obligations.LaunchesFromRingToCore := by
  refine fun s ha => ⟨fun n h => does_of_event ha (exec_launchAccept n) h rfl, ?taken, ?waits, ?skips, fun l h => does_of_event ha (exec_gateTimeout l) h rfl, ?place,
    fun i hc => does_of_command ha (exec_sysAbort i) hc rfl, fun i hc hd => does_of_command ha (exec_diagCore i) hc (doDiagCore_out i hd), ?tested⟩
  case taken =>
    exact fun m n seq w => ⟨fun st => launchTake_fails, launchTake_waits, launchTake_queues⟩
  case waits =>
    intro l x hx hg hmet hw hr hgood
    have hat := atGate_of hx hg
    have hpoll := doGatePoll_reads hx hmet hw hr hgood
    refine ⟨fun hlt => ?_, fun hle hs => ?_⟩
    · exact does_of_event ha (exec_gatePoll l) hat (hpoll.trans (if_neg (Nat.not_le.mpr hlt)))
    · exact does_of_event ha (exec_gatePoll l) hat (hpoll.trans ((if_pos hle).trans (gateSkipTest_noSkip hs)))
  case skips =>
    intro l x hx hg hmet hs hr hgood
    have hat := atGate_of hx hg
    have hpoll := (doGatePoll_met hx hmet).trans (gateSkipTest_reads hs hr hgood)
    refine ⟨fun h => ?_, fun h => ?_⟩
    · exact does_of_event ha (exec_gatePoll l) hat (hpoll.trans (if_pos h))
    · exact does_of_event ha (exec_gatePoll l) hat (hpoll.trans (if_neg (ne_true_of_eq_false h)))
  case place => exact fun n l x c h => does_of_event ha exec_blockPlace (by rw [h]; rfl) (doBlockPlace_next h)
  case tested => exact fun d units failed first i h => does_of_event ha (exec_coreTestEnd d units failed first) (by rw [h]; rfl) (doCoreTestEnd_of units failed first h)

end Sys2Proof.Proofs
end

section
/-! SUPPORT. A code line on a stack at level 3: the code cache lets it wait (R455), whatever a read of it would find. -/

namespace Sys2Proof.Proofs

open Sys2Proof.Machine Sys2Proof.Laws

/-! ### The code cache and a held stack -/

theorem exec_codeCacheFill (c slot : Nat) (s : State) : exec (.codeCacheFill c slot) s =
    runIf s (fun m => decide (c < 2560) && codeMiss m c slot) (doCodeCacheFill c slot) := rfl

/-- A line whose stack is held at level 3 is not taken. -/
theorem doCodeCacheFill_held {m : Chip} {c slot : Nat} {g : Grp} (hg : grp m c slot = some g) (hok : daOk g.pc = true) (hal : g.pc % 8 = 0)
    (hheld : stackHeld m (g.pc / 128) = true) : doCodeCacheFill c slot m = m := by
  rw [doCodeCacheFill, hg]
  exact (if_neg (by simp [hok, hal])).trans (if_pos hheld)

/-- The machine after a fill of a held line has the code cache that it had. -/
theorem code_of_held {s t : State} {c slot : Nat} {g : Grp} (ha : acts s = true) (hc : c < 2560) (hmiss : codeMiss s.chip c slot = true) (hg : grp s.chip c slot = some g)
    (hok : daOk g.pc = true) (hal : g.pc % 8 = 0) (hheld : stackHeld s.chip (g.pc / 128) = true) (ht : exec (.codeCacheFill c slot) s = .next t) :
    t.chip.code = s.chip.code := by
  have hdoes := does_of_event ha (exec_codeCacheFill c slot s) (Bool.and_eq_true_iff.mpr ⟨decide_eq_true hc, hmiss⟩) (doCodeCacheFill_held hg hok hal hheld)
  rw [Does, ht] at hdoes
  injection hdoes with h
  rw [h, settle_code]

/-! ### A line that was never written -/

theorem rawLine_unwritten {m : Chip} {ln : Nat} (h : m.lmeta = []) : rawLine m ln = goodLine (cellBytes m.mem (ln * 128) 128) := by
  rw [rawLine, h]
  exact congrArg (fun w => (⟨_, w, false, []⟩ : Line)) (Nat.xor_zero _)

/-- It reads good at an exit where nothing stands before its cells. -/
theorem readExit_unwritten {m : Chip} {ln : Nat} {mioto : Bool} (hbad : badAddress m (ln * 128) mioto = false) (hback : backing m (ln * 128) = none)
    (hpark : parkedCopy m ln = none) (hlost : lineLost m ln = false) (h : m.lmeta = []) : (readExit m ln mioto).1.fate = .good := by
  have hread : (readLine m ln mioto).1 = { ln := goodLine (cellBytes m.mem (ln * 128) 128) } :=
    readLine_clean hbad hback hpark (by simp [hlost]) (rawLine_unwritten h) rfl rfl
  rw [readExit, hread, if_neg (by simp [wbOk, goodLine]), hread]

/-! ### The counterexample -/

/-- The group at the first line of stack 0. -/
def heldGrp : Grp := { blk := 0, idx := 0, pc := 0 }

/-- A running module whose stack 0 serves at level 3, with a group of core 0 at a PC on that stack. -/
def heldModule : State where
  board := { rails := true }
  chip :=
    { csr := [(0x60104, 0x300)], stks := [{ svc := 0, level := 3 }], start := { phase := 5 }, cores := [(0, { groups := [(0, some heldGrp)] })] }

theorem stackHeld_heldModule : stackHeld heldModule.chip (heldGrp.pc / 128) = true := by decide

theorem codeMiss_heldModule : codeMiss heldModule.chip 0 0 = true := by decide

theorem readExit_heldModule : (readExit heldModule.chip (heldGrp.pc / 128) false).1.fate = .good :=
  readExit_unwritten (by decide) (by decide) (by decide) (by decide) rfl

/-- Refutes O20: a read of the line of the PC would be good, but its stack is held at level 3, so the line waits (R455) and the code cache of the die stays empty. -/
theorem not_coreEvents : ¬ Obligations.CoreEvents := by
  intro h
  obtain ⟨_, hfill, _⟩ := h heldModule rfl
  obtain ⟨t, ht, _, hcode⟩ := hfill 0 0 heldGrp (by decide) codeMiss_heldModule rfl (by decide) (by decide) readExit_heldModule
  have hkept := code_of_held (g := heldGrp) rfl (by decide) codeMiss_heldModule rfl (by decide) (by decide) stackHeld_heldModule ht
  rw [hkept] at hcode
  generalize (readExit heldModule.chip (heldGrp.pc / 128) false).1.ln.data = d at hcode
  simp [heldModule, heldGrp, modAt, dieOf, List.replicate_succ] at hcode

end Sys2Proof.Proofs
end
